-- ==== Sys2Proof/Word.lean ====
section
/-! DEFINITION. The word types of the block and the shape of a sparse table. -/
namespace Sys2Proof

/-- A byte. -/
abbrev Byte := BitVec 8
/-- A register access half, a Vyush word (R292), a COUNT or TARGET (R430). -/
abbrev Word32 := BitVec 32
/-- A 64-bit register, a general Vyush register (R290), a counter value (R364). -/
abbrev Word64 := BitVec 64
/-- A string of bytes. -/
abbrev Bytes := List Byte

/-- A sparse table: its listed keys rise strictly, and no listed value is the table's default. -/
abbrev Tab (α : Type) := List (Nat × α)

/-- A field of a word: its lowest bit and its width, bit 0 being the least significant (R22). -/
structure Bits where
  lo : Nat
  width : Nat
  deriving DecidableEq, Repr

end Sys2Proof
end

