-- ==== Sys2Proof/Syntax.lean ====
section
/-! DEFINITION. The commands that the block takes, with their operands. -/
namespace Sys2Proof

/-- An owner of resources (R579): the Taproot host of package 0, the host of package 1, and Shed. -/
inductive Master where
  | host0 | host1 | shed
  deriving DecidableEq, Repr

/-- What a write of a 64-bit register covers: all of it, its half at offset 0 or its half at offset 4 (R404, R419, R705). The halves
are CMD_TAIL and CPL_HEAD of a doorbell. -/
inductive Half where
  | both | tail | head
  deriving DecidableEq, Repr

/-- An accepted command: its ring and the pointer value of its descriptor (R436). -/
structure Ref where
  ring : Nat
  idx : Nat
  deriving DecidableEq, Repr

/-- A packet: its header of R510, its traffic class, its payload, whether it was cut short (R506), and whether a cell of it stands in
the packet buffer with an uncorrectable error (R651). -/
structure Packet where
  hdr : BitVec 192
  cls : Nat
  payload : Bytes
  aborted : Bool
  bad : Bool
  deriving DecidableEq, Repr

/-- What the part's own checks find under a command: nothing, a residue mismatch (R150), an uncorrectable error (R651), or a residue
mismatch in the read-out of a held slot (R150). -/
inductive Upset where
  | clean | residue | ecc | readout
  deriving DecidableEq, Repr

/-- A thread that issues the instruction at its PC, and what the core's checks find under it (R279, R353, R354).
DESIGN CHOICE: assumption 32. -/
structure VOp where
  tile : Nat
  tid : Nat
  upset : Upset
  deriving DecidableEq, Repr

/-- What stage 2 found on a lane: it saw the inverse pattern, a DFE tap is at the end of its range, the eye, as LANE_EYE holds it,
the values to which the DFE taps have adapted, and the coefficients of its FFE, as LX_TXEQ holds them (R469, R477, R502, R505). -/
structure LaneTrained where
  inverted : Bool
  dfeSat : Bool
  eye : Nat
  taps : List Word32
  txeq : Nat
  deriving DecidableEq, Repr

/-- What the receiver of a link did up to the end of a flit: by its FEC (R473, R502), lane, symbols and codewords corrected, the lane of every
codeword found beyond correction since the last flit, and whether the flit itself lies wholly or partly in such a codeword (R489); by its equalisers (R469), the taps that live traffic has adapted, with their new values and whether
they are at the end of their range. Lanes count as physical lanes on a port, and within the link on a trunk or Taproot. -/
structure Fec where
  fixed : List (Nat × Nat × Nat)
  bad : List Nat
  cut : Bool
  taps : List (Nat × Nat × Word32 × Bool)
  deriving DecidableEq, Repr

/-- A packet, and what the checks that it sets off find. -/
structure Checked where
  p : Packet
  upset : Upset
  deriving DecidableEq, Repr

/-- A write of a 64-bit register: the half that is written, or both, and the value (R705). -/
structure HalfWrite where
  half : Half
  value : Word64
  deriving DecidableEq, Repr

/-- A card whose PCIe link is lost, with its endpoint in D3hot or not (R401). -/
structure TapLoss where
  card : Nat
  d3hot : Bool
  deriving DecidableEq, Repr

/-- What a PCIe link has trained to: its generation, and Flit mode (R398, R411). -/
structure TapMode where
  gen : Nat
  flit : Bool
  deriving DecidableEq, Repr

/-- A logical lane of a link: a port, a trunk or Taproot (R472). -/
structure LaneAt where
  link : Nat
  lane : Nat
  deriving DecidableEq, Repr

/-- A mailbox request as the part reads it from host memory (R599), none where the read failed,
and whether the write of its response succeeds. -/
structure MbxReq where
  bytes : Option Bytes
  respOk : Bool
  deriving DecidableEq, Repr

/-- A rail over one evaluation interval: mean voltage and current, and the extremes of its voltage, in mV and mA. -/
structure RailReading where
  mv : Nat
  ma : Nat
  minMv : Nat
  maxMv : Nat
  deriving DecidableEq, Repr

/-- The sensor readings of one evaluation interval, in units of 0.125 °C (R598), none where a sensor is absent. -/
structure Readings where
  temp : List (Option Int)
  hbm : List (Option Int)
  coolant : Option Int
  rails : List RailReading
  deriving DecidableEq, Repr


/-- The commands of the block: one constructor for each row of the table of operations and events. -/
inductive Instr where
  /-- NOP: The NOP command does nothing, or with ACTION EVENT_SET gives COUNT and TARGET to a range of the job's events; it can also serve as a join point (R435). -/
  | nop (c : Ref)
  /-- OPEN_BUCKET: The store-bound reduction command is checked and queued for admission; at the root it holds the reduced gradient for STEP (R232). -/
  | openBucket (c : Ref)
  /-- CLOSE_BUCKET: Either cancels an in-flight operation (CANCEL) or frees the held gradient of a completed OPEN_BUCKET at the root (RELEASE) (R260). -/
  | closeBucket (c : Ref)
  /-- ALLREDUCE: A reduction command whose root delivers the whole once-rounded result to the DST_MASK members of every part (R232). -/
  | allreduce (c : Ref)
  /-- REDUCE_SCATTER: A reduction command that delivers to each member only its share under the uneven-shard rule (R263). -/
  | reduceScatter (c : Ref)
  /-- ALLGATHER: A tagged command that gathers each member's share and delivers all elements to every DST_MASK member (R265). -/
  | allgather (c : Ref)
  /-- SHIFT: A tagged command in which each member sends LENGTH bytes unchanged to the member OFFSET indices away (R267). -/
  | shift (c : Ref)
  /-- PERMUTE: A tagged command that exchanges expert row counts and then rows grouped by expert (R270). -/
  | permute (c : Ref)
  /-- NORM: Computes the job-wide exact sum of squares and norm of held gradients in two exchange passes with the owning parts (R275). -/
  | norm (c : Ref) (upset : Upset)
  /-- STEP: Applies the clip-or-skip policy to the NORM result and updates the covered shards with the FUU microprogram (R187). -/
  | step (c : Ref) (fault : Option (Nat × Upset))
  /-- PUBLISH: Converts the new master weights of the covered tensors and multicasts them to the members of a destination mask (R205). -/
  | publish (c : Ref)
  /-- PARK: Stores the bytes sent by a source under a cold-frame handle, optionally converting them (R211). -/
  | park (c : Ref)
  /-- FETCH: Sends the parked elements of a handle to a destination, optionally converting them and releasing the handle (R211). -/
  | fetch (c : Ref)
  /-- CHECKPOINT: Drains or cancels the job's open buckets and writes an image of job state, tables and arrays (R217). -/
  | checkpoint (c : Ref)
  /-- RESTORE: Checks an image and loads its microprogram, group and tensor sections in three rounds (R707). -/
  | restore (c : Ref) (image : Option Bytes)
  /-- SIEVE_RUN: Checks a thread-program request and queues it to run on one package's thread clusters (R326). -/
  | sieveRun (c : Ref) (block : Option Bytes)
  /-- FENCE: Enters a member into the fence table and aborts the operations that still owe values from that member (R445). -/
  | fence (c : Ref)
  /-- UNFENCE: Removes a member's fence entry so that its traffic is accepted again (R446). -/
  | unfence (c : Ref)
  /-- LAUNCH_AT: Waits for a global-counter TARGET and then signals its event, or cancels matching pending LAUNCH_ATs (R382). -/
  | launchAt (c : Ref)
  /-- SCHEDULE_LOAD: Loads a Planting schedule image into the bank that is not in force, to take force at START (R543). -/
  | scheduleLoad (c : Ref) (image : Option Bytes)
  /-- ROUTE_STAGE: Checks a route image and writes it into the inactive route version (R530). -/
  | routeStage (c : Ref) (image : Option Bytes)
  /-- ROUTE_SWAP: Flips the active route version at tick AT, provided the expected version is staged (R531). -/
  | routeSwap (c : Ref)
  /-- SURVEY: Ring command that writes a full summary of the part's state to a host buffer (R458). -/
  | survey (c : Ref)
  /-- DESCRIPTOR_READ: The part reads the descriptor at CMD_HEAD of a ready ring, checks it and accepts it once resources allow (R423). -/
  | descriptorRead (ring : Nat) (desc : Option (BitVec 512)) (upset : Upset)
  /-- WAIT_RELEASE: An accepted command becomes free of its waits at the end of the tick in which all of its wait events are set (R433). -/
  | waitRelease (c : Ref) (upset : Upset)
  /-- ADMIT: An eligible tagged command is admitted in eligibility order, reserves slots and sends ready notices (R236). -/
  | admitOp (c : Ref)
  /-- CONTRIB: A contribution packet arrives; its element values are checked, counted and queued to the beds (R513). -/
  | contrib (port : Nat) (p : Packet)
  /-- RAKE_ACCUMULATE: A bed takes a queued value from its input queue, quantizes it onto the anchor grid and adds it into its slot (R121). -/
  | rakeAccumulate (bed : Nat) (upset : Upset)
  /-- XP: A received XP record is checked for place and residue, decoded and combined into the bucket's slots (R144). -/
  | xp (port : Nat) (p : Packet) (upset : Upset)
  /-- CHUNK_FINAL: All stripes of a chunk become final; a non-root sends its XP records, and the root holds or reads out the chunk (R245). -/
  | chunkFinal (job : Nat) (tag : Nat) (chunk : Nat) (upset : Upset)
  /-- BUCKET_COMPLETE: A bucket completes at the root, which sends the bucket summary to every part of PARTS_MASK (R250). -/
  | bucketComplete (job : Nat) (tag : Nat)
  /-- NONROOT_COMPLETE: A non-root part releases the bucket's slots and writes its completion once its last record is sent or its results are delivered (R249). -/
  | nonrootComplete (job : Nat) (tag : Nat)
  /-- RESULT: A RESULT packet arrives and is replicated to the mask ports and to the matching operation's DST_MASK ports (R535). -/
  | result (port : Nat) (p : Packet)
  /-- READY: A ready notice arrives and lets the part send to the notice's sender, or is kept as an early notice (R237). -/
  | ready (port : Nat) (p : Packet)
  /-- READY2: The second ready notice of PERMUTE arrives and lets the senders send their rows (R270). -/
  | ready2 (port : Nat) (p : Packet)
  /-- SUMMARY: A bucket summary arrives and is taken into the operation and into the tensor's running maximum (R251). -/
  | summary (port : Nat) (p : Packet)
  /-- ABORT: An abort notice arrives and aborts the matching operation with PEER_ABORT, then is passed on by direction (R258). -/
  | abort (port : Nat) (p : Packet)
  /-- NORM_MAX: A peer's MAXREC and element count for the first NORM pass arrive (R275). -/
  | normMax (port : Nat) (c : Checked)
  /-- NORM_SUM: A peer's single-slot XP record for the second NORM pass arrives (R275). -/
  | normSum (port : Nat) (p : Packet) (upset : Upset)
  /-- PUB_MAX: A peer's WMAX for a tensor arrives for the T_PUB exchange (R114). -/
  | pubMax (port : Nat) (p : Packet)
  /-- BLOCK: Master weights of a straddling MX block arrive at the part that owns the block's first element (R206). -/
  | block (port : Nat) (p : Packet)
  /-- STATS: Partial row or column sums of factored statistics arrive as XP records and are combined (R182). -/
  | stats (port : Nat) (p : Packet)
  /-- ALLGATHER_DATA: An ALLGATHER data packet arrives and is delivered to the DST_MASK members, converted where formats differ (R265). -/
  | allgatherData (port : Nat) (p : Packet)
  /-- SHIFT_DATA: A SHIFT data packet arrives and is forwarded to its target member (R267). -/
  | shiftData (port : Nat) (p : Packet)
  /-- PERMUTE_COUNTS: A sender's expert row counts arrive; once all counts are accepted, second ready notices go out (R270). -/
  | permuteCounts (port : Nat) (p : Packet)
  /-- PERMUTE_ROWS: Rows arrive and land at byte offsets fixed by the counts, with overflow rows dropped (R271). -/
  | permuteRows (port : Nat) (p : Packet)
  /-- PARK_DATA: Bytes of a PARK arrive and are stored under the handle (R211). -/
  | parkData (port : Nat) (p : Packet)
  /-- IMAGE_DATA: Image bytes for RESTORE arrive from a Runner endpoint (R215). -/
  | imageData (port : Nat) (p : Packet)
  /-- PACKET_ROUTE: The first cell of a packet chooses the outputs of the whole packet and enters the virtual output queues (R519). -/
  | packetRoute (inp : Nat) (p : Packet)
  /-- XP_SEND: A part sends its XP records to PARENT once PARENT's ready notice has arrived (R237). -/
  | xpSend (job : Nat) (tag : Nat) (chunk : Nat) (upset : Upset)
  /-- BUCKET_DEADLINE: At the deadline tick, the part aborts with TIMEOUT a bucket that is still owed traffic (R256). -/
  | bucketDeadline (job : Nat) (tag : Nat)
  /-- NORM_DEADLINE: At NORM's deadline, the part aborts with TIMEOUT a NORM that is still missing peer messages (R275). -/
  | normDeadline (c : Ref)
  /-- STEP_START: A STEP that waited for its tensors' sets of bucket maxima starts its update (R251). -/
  | stepStart (c : Ref) (fault : Option (Nat × Upset))
  /-- PUBLISH_START: A PUBLISH that waited for GEN_STEP to reach GEN starts converting and sending (R204). -/
  | publishStart (c : Ref)
  /-- CHECKPOINT_START: A CHECKPOINT starts writing its image once the drained buckets have completed (R217). -/
  | checkpointStart (c : Ref)
  /-- COMMAND_COMPLETE: A command's work ends; its report and completion entry are written and its event is signalled (R437). -/
  | commandComplete (c : Ref)
  /-- IRQ_DELAY: The ring's coalescing delay expires and the ring's MSI-X message is sent (R426). -/
  | irqDelay (ring : Nat)
  /-- LAUNCH_MATURE: An on-time LAUNCH_AT matures at tick TARGET and signals its event (R382). -/
  | launchMature (c : Ref)
  /-- PROGRAM_START: An eligible SIEVE_RUN loads its text, clears its windows and starts its threads (R328). -/
  | programStart (c : Ref) (text : Option Bytes) (bufs : List Bytes)
  /-- PROGRAM_DEADLINE: At the program's deadline, a program with threads not yet halted is stopped with TIMEOUT (R328). -/
  | programDeadline (c : Ref)
  /-- BR: Vyush conditional branch on a predicate (R294). -/
  | br (v : VOp)
  /-- JMP: Vyush unconditional jump (R294). -/
  | jmp (v : VOp)
  /-- CALL: Vyush call, which pushes the return stack (R294). -/
  | call (v : VOp)
  /-- RET: Vyush return, which pops the return stack (R294). -/
  | ret (v : VOp)
  /-- HALT: The thread halts and counts as arrived at every later barrier (R305). -/
  | halt (v : VOp)
  /-- BAR_T: Barrier over the live threads of the tile, at which the tile's logged writes become visible (R305). -/
  | barT (v : VOp)
  /-- BAR_G: Barrier over the program's live threads, at which the logged and peer writes are applied in order (R308). -/
  | barG (v : VOp)
  /-- SYNC_L: In balanced mode, makes the thread's writes visible within the tile (R312). -/
  | syncL (v : VOp)
  /-- SYNC_G: In balanced mode, makes the thread's writes visible to every tile (R312). -/
  | syncG (v : VOp)
  /-- WAITX: Waits until every buffer transfer of the thread has completed (R320). -/
  | waitx (v : VOp)
  /-- ADD: 64-bit integer add (R296). -/
  | add (v : VOp)
  /-- SUB: 64-bit integer subtract (R296). -/
  | sub (v : VOp)
  /-- MUL: 64-bit integer multiply, low half (R296). -/
  | mul (v : VOp)
  /-- MULH: Signed integer multiply, high half (R296). -/
  | mulh (v : VOp)
  /-- MULHU: Unsigned integer multiply, high half (R296). -/
  | mulhu (v : VOp)
  /-- DIV: Signed integer divide (R296). -/
  | div (v : VOp)
  /-- DIVU: Unsigned integer divide (R296). -/
  | divu (v : VOp)
  /-- REM: Signed integer remainder (R296). -/
  | rem (v : VOp)
  /-- REMU: Unsigned integer remainder (R296). -/
  | remu (v : VOp)
  /-- AND: Bitwise AND (R296). -/
  | and (v : VOp)
  /-- OR: Bitwise OR (R296). -/
  | or (v : VOp)
  /-- XOR: Bitwise XOR (R296). -/
  | xor (v : VOp)
  /-- SHL: Shift left (R296). -/
  | shl (v : VOp)
  /-- SHR: Logical shift right (R296). -/
  | shr (v : VOp)
  /-- SAR: Arithmetic shift right (R296). -/
  | sar (v : VOp)
  /-- ROTL: Rotate left (R296). -/
  | rotl (v : VOp)
  /-- MIN: Signed minimum (R296). -/
  | min (v : VOp)
  /-- MAX: Signed maximum (R296). -/
  | max (v : VOp)
  /-- MINU: Unsigned minimum (R296). -/
  | minu (v : VOp)
  /-- MAXU: Unsigned maximum (R296). -/
  | maxu (v : VOp)
  /-- MOV: Integer register move (R296). -/
  | mov (v : VOp)
  /-- CMP_EQ: Integer equality compare into a predicate (R294). -/
  | cmpEq (v : VOp)
  /-- CMP_LT: Signed less-than compare into a predicate (R294). -/
  | cmpLt (v : VOp)
  /-- CMP_LTU: Unsigned less-than compare into a predicate (R294). -/
  | cmpLtu (v : VOp)
  /-- FADD: FP32 add (R297). -/
  | fadd (v : VOp)
  /-- FSUB: FP32 subtract (R297). -/
  | fsub (v : VOp)
  /-- FMUL: FP32 multiply (R297). -/
  | fmul (v : VOp)
  /-- FMA: FP32 fused multiply-add (R297). -/
  | fma (v : VOp)
  /-- FNMA: FP32 fused negated multiply-add (R297). -/
  | fnma (v : VOp)
  /-- FDIV: FP32 divide (R297). -/
  | fdiv (v : VOp)
  /-- FSQRT: FP32 square root (R297). -/
  | fsqrt (v : VOp)
  /-- FMAX: FP32 maximum (R297). -/
  | fmax (v : VOp)
  /-- FMIN: FP32 minimum (R297). -/
  | fmin (v : VOp)
  /-- FABS: FP32 absolute value (R297). -/
  | fabs (v : VOp)
  /-- FSIGN: FP32 sign (R297). -/
  | fsign (v : VOp)
  /-- FSEL: FP32 select (R297). -/
  | fsel (v : VOp)
  /-- FMOV: FP32 move (R297). -/
  | fmov (v : VOp)
  /-- FCMP_EQ: FP32 equality compare into a predicate (R294). -/
  | fcmpEq (v : VOp)
  /-- FCMP_LT: FP32 less-than compare into a predicate (R294). -/
  | fcmpLt (v : VOp)
  /-- FCMP_LE: FP32 less-or-equal compare into a predicate (R294). -/
  | fcmpLe (v : VOp)
  /-- DEC: Decodes an encoding of a given format to FP32 (R298). -/
  | dec (v : VOp)
  /-- ENC: Encodes an FP32 value into a given format (R298). -/
  | enc (v : VOp)
  /-- WCLR: Clears an exact accumulator and sets its anchor and headroom (R299). -/
  | wclr (v : VOp)
  /-- WACC: Adds a value into an exact accumulator (R299). -/
  | wacc (v : VOp)
  /-- WDOT: Adds an exact product into an exact accumulator (R299). -/
  | wdot (v : VOp)
  /-- WADD: Combines one exact accumulator into another (R299). -/
  | wadd (v : VOp)
  /-- WREAD: Reads an exact accumulator out into a format (R299). -/
  | wread (v : VOp)
  /-- MAXR: Combines a MAXREC with the magnitude of a value (R299). -/
  | maxr (v : VOp)
  /-- LD: Zero-extending load from the tile's own window (R307). -/
  | ld (v : VOp)
  /-- LDS: Sign-extending load from the tile's own window (R307). -/
  | lds (v : VOp)
  /-- ST: Store to the tile's own window, logged in deterministic mode (R306). -/
  | st (v : VOp)
  /-- PLD: Load from a peer tile's window (R303). -/
  | pld (v : VOp)
  /-- PST: Store to a peer tile's window (R306). -/
  | pst (v : VOp)
  /-- AADD: Atomic add (R308). -/
  | aadd (v : VOp)
  /-- AMIN: Atomic signed minimum (R308). -/
  | amin (v : VOp)
  /-- AMAX: Atomic signed maximum (R308). -/
  | amax (v : VOp)
  /-- AMINU: Atomic unsigned minimum (R308). -/
  | aminu (v : VOp)
  /-- AMAXU: Atomic unsigned maximum (R308). -/
  | amaxu (v : VOp)
  /-- AAND: Atomic AND (R308). -/
  | aand (v : VOp)
  /-- AOR: Atomic OR (R308). -/
  | aor (v : VOp)
  /-- ASWP: Atomic swap (R308). -/
  | aswp (v : VOp)
  /-- ACAS: Atomic compare-and-swap (R308). -/
  | acas (v : VOp)
  /-- SACC: Exact add into a scratch slot (R315). -/
  | sacc (v : VOp)
  /-- SLD: Copies a scratch slot into an exact accumulator (R315). -/
  | sld (v : VOp)
  /-- BXFER_I: Starts a copy from a buffer into the window (R318). -/
  | bxferI (v : VOp)
  /-- BXFER_O: Starts a copy from the window to a buffer (R318). -/
  | bxferO (v : VOp)
  /-- TRANSFER_COMPLETE: A buffer transfer completes (R320). -/
  | transferComplete (tile : Nat) (tid : Nat) (data : Option Bytes)
  /-- GETS: Reads a special register into a general register (R291). -/
  | gets (v : VOp)
  /-- SEED: Computes a Seedline draw (R302). -/
  | seed (v : VOp)
  /-- WQTAKE: Takes the next work item below a limit (R321). -/
  | wqtake (v : VOp)
  /-- DOORBELL: A doorbell write sets CMD_TAIL and/or CPL_HEAD, and an out-of-range write halts the ring (R421). -/
  | doorbell (m : Master) (ring : Nat) (half : Half) (value : Word64)
  /-- RING_ENABLE: Writing ENABLE as 1 takes an IDLE ring to RUNNING or refuses it (R415). -/
  | ringEnable (m : Master) (ring : Nat) (ctrl : Word32)
  /-- RING_DISABLE: Writing ENABLE as 0 takes a ring to DRAINING (R417). -/
  | ringDisable (m : Master) (ring : Nat) (ctrl : Word32)
  /-- JOB_ENABLE: Writing ENABLE as 1 makes a job ACTIVE or REFUSED (R448). -/
  | jobEnable (m : Master) (job : Nat)
  /-- JOB_DISABLE: Writing ENABLE as 0 makes an ACTIVE job ENDING, cancels its work and releases its resources (R450). -/
  | jobDisable (m : Master) (job : Nat)
  /-- JOB_END_COMPLETE: The ending of a job completes and it becomes FREE or REFUSED (R450). -/
  | jobEndComplete (job : Nat)
  /-- LAYOUT_COMMIT: Copies the staged runs into the selected layout, or refuses the commit (R453). -/
  | layoutCommit (m : Master) (value : Word32)
  /-- PART_RESET: Writing 0x5EED resets the package as at power-on while keeping the PCIe link (R410). -/
  | partReset (m : Master) (value : Word32)
  /-- INIT_DONE: Writing INIT_DONE marks set-up complete and closes the expert gate (R462). -/
  | initDone (m : Master)
  /-- EXPERT_GATE_CLOSE: Writing CLOSE closes the expert gate (R462). -/
  | expertGateClose (m : Master)
  /-- SURVEY_GO: Starts the register SURVEY into the buffer named by SURVEY_ADDR and SURVEY_LEN (R455). -/
  | surveyGo (m : Master)
  /-- SURVEY_COMPLETE: A SURVEY finishes writing its summary; the register SURVEY sets DONE and sends MSI-X vector 0 (R456). -/
  | surveyComplete (failed : Bool)
  /-- GC_LOAD: A write to GC_LOAD steps the counter of a quiet FREE or ROOT part, or is refused (R390). -/
  | gcLoad (m : Master) (w : HalfWrite)
  /-- TIME_CTRL: A write to TIME_CTRL sets the role and upstream, which moves the synchronisation state (R373). -/
  | timeCtrl (m : Master) (value : Word32)
  /-- TICK_OUT_ENABLE: Enabling TICK_OUT pulses takes the pin's resource-owner entry, or fails with RESOURCE_HELD (R396). -/
  | tickOutEnable (m : Master) (value : Word32)
  /-- DEBUG_CLOCK_ENABLE: Enabling the debug clock on TICK_OUT takes the pin, or fails with RESOURCE_HELD (R621). -/
  | debugClockEnable (m : Master) (value : Word32)
  /-- PORT_ENABLE: Writing ENABLE as 1 starts bring-up of a port, or refuses the port (R504). -/
  | portEnable (m : Master) (port : Nat)
  /-- PORT_DISABLE: Writing ENABLE as 0 squelches the port and discards its replay contents (R504). -/
  | portDisable (m : Master) (port : Nat)
  /-- PORT_RETRAIN: Writing RETRAIN starts a retrain of an ACTIVE port (R493). -/
  | portRetrain (m : Master) (port : Nat)
  /-- LX_CTRL: Writing the lane test controls freezes equalisation or takes the lane out of its port for loopback or PRBS (R505). -/
  | lxCtrl (m : Master) (lane : Nat) (value : Word32)
  /-- LX_PRBS_ERR_READ: A read of the PRBS error counter returns its value and clears it (R505). -/
  | lxPrbsErrRead (m : Master) (lane : Nat)
  /-- MIRROR_ENABLE: Enabling a mirror session takes its capture bank, or fails with RESOURCE_HELD (R558). -/
  | mirrorEnable (m : Master) (session : Nat) (value : Word32)
  /-- MIRROR_DISABLE: Disabling a mirror session stops it after the record in progress and frees its bank (R565). -/
  | mirrorDisable (m : Master) (session : Nat) (value : Word32)
  /-- MIR_HEAD: A write of the consumed-record pointer, which is ignored when out of range (R565). -/
  | mirHead (m : Master) (session : Nat) (value : Word32)
  /-- TELEMETRY_ENABLE: Enabling telemetry takes capture banks 0 and 1, or fails with RESOURCE_HELD (R558). -/
  | telemetryEnable (m : Master) (value : Word32)
  /-- TELEMETRY_INTERVAL: At the end of a 2^20-tick interval, the congestion map is written to the host and/or sent to a coordinate (R559). -/
  | telemetryInterval
  /-- CLAIM: An OWN_CLAIM write claims a resource through the ownership arbiter (R582). -/
  | claim (m : Master) (resource : Nat)
  /-- RELEASE: An OWN_CLAIM write releases a resource that the master owns (R584). -/
  | release (m : Master) (resource : Nat)
  /-- HPPR: GO with HARD at 1 starts a hard post-package repair of an HBM row, or refuses it (R648). -/
  | hppr (m : Master) (stack : Nat) (value : Word32)
  /-- SPPR: GO with HARD at 0 starts a soft post-package repair of an HBM row (R648). -/
  | sppr (m : Master) (stack : Nat) (value : Word32)
  /-- PPR_COMPLETE: A post-package repair ends, with DONE and, on failure, FAIL set (R648). -/
  | pprComplete (stack : Nat) (ok : Bool) (left : Nat)
  /-- MR_SEL: A write of MR_SEL reads the selected HBM mode register into MR_DATA (R701). -/
  | mrSel (m : Master) (stack : Nat) (value : Word32) (data : Nat)
  /-- REGISTER_WRITE: A write to any register without a row of its own acts by its access code, ownership and the expert gate (R27). -/
  | registerWrite (m : Master) (addr : Nat) (size : Nat) (value : Word64)
  /-- IDENTITY: Mailbox request that returns the serial, the identity key and its certificate chain (R602). -/
  | identity (m : Master) (req : MbxReq)
  /-- QUOTE: Mailbox request that returns a signed attestation quote over a nonce (R629). -/
  | quote (m : Master) (req : MbxReq)
  /-- LOG_FETCH: Mailbox request that returns held trouble-log entries (R614). -/
  | logFetch (m : Master) (req : MbxReq)
  /-- LOG_ACK: Mailbox request that acknowledges held trouble-log entries (R613). -/
  | logAck (m : Master) (req : MbxReq)
  /-- SENSORS: Mailbox request that returns the sensor and rail readings (R602). -/
  | sensors (m : Master) (req : MbxReq)
  /-- HEALTH_DETAIL: Mailbox request that returns a unit's score and band counters (R618). -/
  | healthDetail (m : Master) (req : MbxReq)
  /-- POWER_CAP: Mailbox request that sets or withdraws the master's power cap (R605). -/
  | powerCap (m : Master) (req : MbxReq)
  /-- GATE_CHALLENGE: Mailbox request that returns a fresh expert-grant challenge (R630). -/
  | gateChallenge (m : Master) (req : MbxReq)
  /-- GATE_GRANT: Mailbox request that checks a signed grant and opens the expert gate (R631). -/
  | gateGrant (m : Master) (req : MbxReq)
  /-- FW_BEGIN: Mailbox request that checks a firmware header and erases the image area (R625). -/
  | fwBegin (m : Master) (req : MbxReq)
  /-- FW_CHUNK: Mailbox request that writes firmware body bytes at OFFSET (R625). -/
  | fwChunk (m : Master) (req : MbxReq)
  /-- FW_COMMIT: Mailbox request that checks the body digest, sets the completion marker and may raise the SVN floor (R625). -/
  | fwCommit (m : Master) (req : MbxReq)
  /-- SHUTDOWN: Mailbox request that runs the full BIST, soft-repairs, records the result and quiesces the part (R638). -/
  | shutdown (m : Master) (req : MbxReq)
  /-- SLICE: Expert mailbox request that runs one slice on a bed or pseudo-channel now (R602). -/
  | slice (m : Master) (req : MbxReq)
  /-- REPAIR: Expert mailbox request that treats a named bed as failed and repairs it (R645). -/
  | repair (m : Master) (req : MbxReq)
  /-- FUSE: Expert mailbox request that burns the soft-repair list into fuses (R647). -/
  | fuse (m : Master) (req : MbxReq)
  /-- LIFECYCLE: Mailbox request that checks a signed token and changes the lifecycle state, then resets the part (R634). -/
  | lifecycle (m : Master) (req : MbxReq)
  /-- OWNER_ENROLL: Mailbox request that installs an owner public key (R628). -/
  | ownerEnroll (m : Master) (req : MbxReq)
  /-- POR_ASSERT: POR_N held low resets the package as at power-on (R689). -/
  | porAssert
  /-- POR_RELEASE: POR_N rises and the reset start sequence begins (R688). -/
  | porRelease (railsOk : Bool)
  /-- ROOT_PLL_LOCK: The root PLL locks; the five clocks are released and the counter starts at 0 (R362). -/
  | rootPllLock
  /-- FIRMWARE_BOOT: The boot ROM checks the firmware image and starts it or enters RECOVERY (R624). -/
  | firmwareBoot
  /-- WIPE_COMPLETE: The HBM wipe ends and STORE_READY rises when at least one die has a store (R677). -/
  | wipeComplete
  /-- SEEDLING_EXIT: SEEDLING clears once INIT_DONE and STORE_READY are 1 and every configured port has retrained at full rate or is down (R464). -/
  | seedlingExit
  /-- CLOCK_FAILURE: A missing reference edge for 200 ns or a loss of root-PLL lock stops the package (R363). -/
  | clockFailure (cause : Nat)
  /-- RAIL_COLLAPSE: A rail below 90% of nominal for 10 µs stops the package (R686). -/
  | railCollapse (rail : Nat) (millivolts : Nat)
  /-- THERMAL_TRIP: A sensor comparator reaches its trip temperature, which stops the part and drives THERMTRIP_N low (R609). -/
  | thermalTrip (sensor : Nat)
  /-- STANDBY_POWER_LOSS: Loss of standby power clears the always-on region (R611). -/
  | standbyPowerLoss
  /-- TAPROOT_LINK_DOWN: The Taproot link goes down or the endpoint enters D3hot, and host traffic is held (R401). -/
  | taprootLinkDown (loss : TapLoss)
  /-- TAPROOT_LINK_UP: The Taproot link returns and held completions are written in completion order (R401). -/
  | taprootLinkUp (card : Nat) (width : Nat) (mode : TapMode)
  /-- DETECT_TEST: The 10 ms stage-1 test classifies each lane of a port (R481). -/
  | detectTest (port : Nat) (lanes : List Nat)
  /-- TRAIN_COMPLETE: Every lane in use holds eye margin for 1 ms and the port enters LOCK (R475). -/
  | trainComplete (port : Nat) (lanes : List LaneTrained)
  /-- LOCK_COMPLETE: Lanes hold lock and marker alignment for 16 markers, and the port maps and deskews them (R478). -/
  | lockComplete (port : Nat) (markers : List Nat)
  /-- CAP_TIMER: In stage 4 the port sends a CAP flit every 1 µs (R475). -/
  | capTimer (port : Nat)
  /-- CAP_FLIT: A CAP flit arrives; the port settles its width or fails stage 4 (R480). -/
  | capFlit (port : Nat) (cap : Bytes)
  /-- STAGE_TIMEOUT: A bring-up stage times out; the port squelches, retries, and fails after eight failures (R476). -/
  | stageTimeout (port : Nat)
  /-- SQUELCH_END: The squelch period ends and the port restarts at stage 1 (R475). -/
  | squelchEnd (port : Nat)
  /-- CELL_FLIT: A flit is received, checked, and accepted or discarded, and its acknowledgements and credits are taken (R489). -/
  | cellFlit (place : LaneAt) (fec : Fec) (flit : Bytes)
  /-- ACK_TIMER: The receiver's acknowledgement or NAK-repeat interval expires (R490). -/
  | ackTimer (port : Nat)
  /-- FAR_RETRAIN: Training patterns from the far end on an ACTIVE port start a retrain (R493). -/
  | farRetrain (port : Nat)
  /-- RETRAIN_COMPLETE: A retrain returns the port to ACTIVE, resuming from RESUME_SEQ (R495). -/
  | retrainComplete (port : Nat)
  /-- LINK_LOST: A receiver declares its link lost; it discards replay stores, closes open packets and reports the port down (R497). -/
  | linkLost (port : Nat) (replayEcc : Bool)
  /-- FULL_RATE_ADVERTISE: Once INIT_DONE and STORE_READY are 1, ACTIVE ports advertise FULL_RATE_READY (R500). -/
  | fullRateAdvertise
  /-- FULL_RATE_RETRY: One second after a failed full-rate retrain, the port tries full rate again (R501). -/
  | fullRateRetry (port : Nat)
  /-- TIME_EXCHANGE: Every 2^14 ticks a follower sends a time request upstream (R370). -/
  | timeExchange
  /-- TIME_REQUEST: A received time request is answered with stamps, HOPS and BOUND (R371). -/
  | timeRequest (port : Nat) (flit : Bytes)
  /-- TIME_REPLY: A received time reply yields offset and delay samples that move the follower state and slew (R373). -/
  | timeReply (port : Nat) (flit : Bytes)
  /-- COUNTER_STEP: A follower in ACQUIRE steps its counter once it is quiet (R374). -/
  | counterStep
  /-- GRAFT_SENSE: Every 10 ms the package reads each trunk's sense contacts (R575). -/
  | graftSense (volts : List Nat)
  /-- PAIR_FLIT: A PAIR flit arrives and the pairing checks are applied (R577). -/
  | pairFlit (trunk : Nat) (pair : Bytes)
  /-- PAIRING_TIMEOUT: A pairing stage times out; the trunk or pair restarts, or pairing is refused after eight timeouts (R575). -/
  | pairingTimeout (trunk : Nat)
  /-- MERGE_COMPLETE: Package 1 locks over the cable and the pair enters PAIRED (R575). -/
  | mergeComplete
  /-- SLOT_BOUNDARY: A Planting slot boundary passes and the next slot's owners take force (R546). -/
  | slotBoundary
  /-- SCHEDULE_START: A loaded schedule bank takes force at tick START (R545). -/
  | scheduleStart
  /-- ROUTE_SWAP_AT: At tick AT the active route version flips on both packages (R531). -/
  | routeSwapAt
  /-- ROUTE_STAGE_WRITE: Once no cell of the inactive epoch is held, ROUTE_STAGE writes the inactive version (R530). -/
  | routeStageWrite
  /-- ROUTE_STAGE_TIMEOUT: A ROUTE_STAGE that finds no clear tick within 2^20 ticks completes with TIMEOUT (R530). -/
  | routeStageTimeout
  /-- POOL_WAIT_GRANT: An engine request that waited on an empty pool receives its buffer (R551). -/
  | poolWaitGrant (die : Nat) (pool : Nat)
  /-- WATCHDOG_EXPIRY: The Shed watchdog expires and the controller restarts from flash (R594). -/
  | watchdogExpiry
  /-- FIRMWARE_RESTARTED: Shed firmware runs again after a restart and sets RESTARTED (R594). -/
  | firmwareRestarted
  /-- HEARTBEAT: Every 2^20 ticks while firmware runs, HEARTBEAT rises by 1 (R409). -/
  | heartbeat
  /-- EVALUATION_INTERVAL: At the end of each 2^17-tick evaluation, Shed samples sensors and sets the throttle depth (R606). -/
  | evaluationInterval (r : Readings)
  /-- SCORING_INTERVAL: At the end of each 2^27-tick interval, Shed updates every unit's health score (R616). -/
  | scoringInterval
  /-- GRANT_EXPIRY: An expert grant's lifetime ends and the gate closes (R462). -/
  | grantExpiry
  /-- PERIODIC_SLICE: Each compute die chooses the next bed or pseudo-channel window for a slice and marks it OUT (R640). -/
  | periodicSlice (die : Nat)
  /-- SLICE_BEGIN: A slice starts once its bed is empty, saving the reduced buckets it holds (R641). -/
  | sliceBegin (unit : Nat)
  /-- SLICE_DEFERRED: A slice whose bed does not empty within 2^27 ticks is skipped (R641). -/
  | sliceDeferred (unit : Nat)
  /-- SLICE_END: A 2 ms slice ends and restores the saved state (R640). -/
  | sliceEnd (unit : Nat) (passed : Bool)
  /-- PATROL_SCRUB: Patrol scrub reads a line and corrects it or enters it in the lost-line list (R658). -/
  | patrolScrub (line : Nat) (found : Nat)
  /-- TICK: The global counter advances by one tick, the unscheduled-class token buckets of shapers and policers refill, and per-tick samplings such as the telemetry depth samples are taken (R365). -/
  | tick
  /-- CELL_TIME: In each ARITH cycle Trellis matches inputs to outputs in its scheduled and request-grant-accept phases and moves one cell per matched pair, applying egress removals and buffer releases (R518). -/
  | cellTime
  /-- FLIT_SLOT: A port's transmitter fills its next flit slot with a CELL, IDLE, TIME or CAP flit, taking credit and keeping CELL flits in the replay store (R486). -/
  | flitSlot (port : Nat)
  /-- FULL_BIST_COMPLETE: The full BIST of a SHUTDOWN or of a boot ends after up to 1.5 s, soft-repairs the failures, writes the BIST record and its response or lets STORE_READY follow (R638). -/
  | fullBistComplete (failed : List Nat)
  /-- SHED_SRAM_UNCORRECTABLE: The Shed controller's SRAM reports an uncorrectable error and the controller restarts from flash (R594). -/
  | shedSramUncorrectable (addr : Nat)
  /-- STANDBY_POWER_APPLIED: Standby power VSB is applied and the always-on region starts with an empty trouble log, SEQ from 0 and BOOT_COUNT from 0 (R611). -/
  | standbyPowerApplied
  /-- STACK_TRAINING: An HBM stack finishes training after reset and its STACK_STATUS goes from TRAINING to READY, or to FAILED with entry 0x08:6 (R651). -/
  | stackTraining (stack : Nat) (ok : Bool) (retries : Nat)
  deriving DecidableEq, Repr

end Sys2Proof
end

