-- ==== Sys2Proof/Decode.lean ====
section
/-! DEFINITION. The decoder of a table word: the table of operations and events gives no row any bits, so no word spells a command. -/
namespace Sys2Proof

/-- The command that a word of `nbits` bits spells by the table's bits: no row has bits, so there is none. DESIGN CHOICE: assumption 4. -/
def decodeTableWord (nbits w : Nat) : Option Instr :=
  match nbits, w with
  | _, _ => none

end Sys2Proof
end

