-- ==== Sys2Proof/Machine/Data.lean ====
section
/-! DEFINITION. Fields of words, sparse tables, byte order and small list tools that every part of the machine uses. -/
namespace Sys2Proof.Machine

/-- The value of field `f` of the word `x` (R22). -/
def bget {n : Nat} (f : Bits) (x : BitVec n) : Nat := x.toNat / 2 ^ f.lo % 2 ^ f.width

/-- `x` with field `f` set to the low bits of `v`, every other bit kept. -/
def bset {n : Nat} (f : Bits) (x : BitVec n) (v : Nat) : BitVec n :=
  BitVec.ofNat n (x.toNat % 2 ^ f.lo + 2 ^ f.lo * (v % 2 ^ f.width)
    + 2 ^ (f.lo + f.width) * (x.toNat / 2 ^ (f.lo + f.width)))

/-- Field `f` of `x` as a truth value. -/
def bflag {n : Nat} (f : Bits) (x : BitVec n) : Bool := bget f x != 0

/-- Field `f` of `x` read as two's complement. -/
def bsgn {n : Nat} (f : Bits) (x : BitVec n) : Int :=
  let v := bget f x
  if v < 2 ^ (f.width - 1) then (v : Int) else (v : Int) - 2 ^ f.width

/-- The low `w` bits of an integer in two's complement. -/
def toTwos (w : Nat) (v : Int) : Nat := (v % (2 ^ w : Int)).toNat

/-- A `w`-bit word read as two's complement. -/
def ofTwos (w : Nat) (v : Nat) : Int :=
  let u := v % 2 ^ w
  if u < 2 ^ (w - 1) then (u : Int) else (u : Int) - 2 ^ w

/-- The mask of a field within a word of `n` bits. -/
def bmask (f : Bits) : Nat := (2 ^ f.width - 1) * 2 ^ f.lo

/-- The value of a sparse table at a key. -/
def tget {α : Type} (d : α) : Tab α → Nat → α
  | [], _ => d
  | (k, v) :: t, i => if k = i then v else tget d t i

/-- A listed entry of a sparse table. -/
def tfind {α : Type} : Tab α → Nat → Option α
  | [], _ => none
  | (k, v) :: t, i => if k = i then some v else tfind t i

/-- A sparse table with an entry listed at a key, in key order. -/
def tput {α : Type} : Tab α → Nat → α → Tab α
  | [], i, v => [(i, v)]
  | (k, w) :: t, i, v =>
    if i < k then (i, v) :: (k, w) :: t else if i = k then (i, v) :: t else (k, w) :: tput t i v

/-- A sparse table with a key no longer listed. -/
def tdel {α : Type} : Tab α → Nat → Tab α
  | [], _ => []
  | (k, w) :: t, i => if k = i then tdel t i else (k, w) :: tdel t i

/-- A sparse table with value `v` at key `i`: the default is not listed. -/
def tset {α : Type} [DecidableEq α] (d : α) (t : Tab α) (i : Nat) (v : α) : Tab α :=
  if v = d then tdel t i else tput t i v

/-- The keys rise strictly from above `b`. -/
def risesFrom {α : Type} : Nat → Tab α → Bool
  | _, [] => true
  | b, (k, _) :: t => decide (b < k) && risesFrom k t

/-- The canonical form of a sparse table: keys rise strictly and no value is the default. -/
def Tab.wf {α : Type} [DecidableEq α] (d : α) (t : Tab α) : Bool :=
  (match t with
    | [] => true
    | (k, _) :: r => risesFrom k r) && t.all (fun e => decide (e.2 ≠ d))

/-- The `n` bytes of a number, least significant first (R23). -/
def leBytes : Nat → Nat → Bytes
  | 0, _ => []
  | n + 1, v => BitVec.ofNat 8 v :: leBytes n (v / 256)

/-- The number that bytes spell, least significant first (R23). -/
def ofLe : Bytes → Nat
  | [] => 0
  | b :: r => b.toNat + 256 * ofLe r

/-- `n` bytes of a byte string from offset `o`, zero beyond its end. -/
def bytesAt (b : Bytes) (o n : Nat) : Bytes :=
  let t := (b.drop o).take n
  t ++ List.replicate (n - t.length) 0

/-- The number spelt by `n` bytes from offset `o`. -/
def numAt (b : Bytes) (o n : Nat) : Nat := ofLe (bytesAt b o n)

/-- Bits `[lo + w - 1 : lo]` of a number. -/
def nbits (v lo w : Nat) : Nat := v / 2 ^ lo % 2 ^ w

/-- `p` divided by `q`, rounded up. -/
def ceilDiv (p q : Nat) : Nat := (p + q - 1) / q

/-- `b` padded with zero bytes to a multiple of `n`. -/
def padTo (n : Nat) (b : Bytes) : Bytes := b ++ List.replicate (ceilDiv b.length n * n - b.length) 0

/-- The list `[0, ..., n - 1]` shifted to start at `a`. -/
def rangeFrom (a n : Nat) : List Nat := (List.range n).map (· + a)

/-- A list cut into pieces of `n`, at most `fuel` of them. -/
def chunksOf {α : Type} (n : Nat) : Nat → List α → List (List α)
  | 0, _ => []
  | _, [] => []
  | fuel + 1, l => l.take n :: chunksOf n fuel (l.drop n)

/-- A saturating counter of `w` bits (R28). -/
def satAdd (w c n : Nat) : Nat := min (c + n) (2 ^ w - 1)

/-- The list without its first element that equals `a`. -/
def eraseOne {α : Type} [DecidableEq α] (l : List α) (a : α) : List α := l.erase a

/-- The first element that satisfies `p` replaced by its image. -/
def updFirst {α : Type} (p : α → Bool) (f : α → α) : List α → List α
  | [] => []
  | a :: r => if p a then f a :: r else a :: updFirst p f r

/-- The largest integer whose square is at most `n`, found bit by bit below `2 ^ k`. -/
def isqrtBits (n : Nat) : Nat → Nat → Nat
  | 0, acc => acc
  | k + 1, acc => isqrtBits n k (if (acc + 2 ^ k) * (acc + 2 ^ k) ≤ n then acc + 2 ^ k else acc)

/-- The integer square root. -/
def isqrt (n : Nat) : Nat := isqrtBits n (Nat.log2 n / 2 + 1) 0

end Sys2Proof.Machine
end

