-- ==== Sys2Proof/Machine/Formats.lean ====
section
/-! DEFINITION. Number formats, exact values, rounding and conversion (chapter Number Formats, R60 to R93). -/
namespace Sys2Proof.Machine

/-- A value that crosses a conversion: a NaN, an infinity, a finite magnitude with its sign (so that −0 is kept),
or an over-range value whose magnitude the slot does not hold (R126 rows 5 and 6). -/
inductive Num where
  | nan
  | inf (neg : Bool)
  | fin (neg : Bool) (mag : Rat)
  | over (neg : Bool)
  deriving DecidableEq, Repr

/-- 2 to an integer power, exactly. -/
def pow2 : Int → Rat
  | .ofNat n => ((2 ^ n : Nat) : Rat)
  | .negSucc n => 1 / ((2 ^ (n + 1) : Nat) : Rat)

/-- The integer `k` with 2^k ≤ q < 2^(k+1), for q > 0. -/
def floorLog2 (q : Rat) : Int :=
  let k : Int := (Nat.log2 q.num.toNat : Int) - (Nat.log2 q.den : Int)
  if pow2 k ≤ q then k else k - 1

/-- The number `neg ? -mag : mag` as an exact rational. -/
def signed (neg : Bool) (mag : Rat) : Rat := if neg then -mag else mag

/-- An exact rational as a value; zero takes the sign given for it. -/
def Num.ofRat (zeroNeg : Bool) (q : Rat) : Num :=
  if q = 0 then .fin zeroNeg 0 else if q < 0 then .fin true (-q) else .fin false q

/-- A floating format (R60, R62, R64, R65): widths of exponent and fraction, bias, largest finite encoding, canonical
NaN (none where the format has none), and whether it has infinities and a negative zero. -/
structure FloatFmt where
  width : Nat
  ew : Nat
  fw : Nat
  bias : Nat
  maxEnc : Nat
  nan : Option Nat
  hasInf : Bool
  negZero : Bool
  deriving DecidableEq, Repr

def fp32 : FloatFmt := ⟨32, 8, 23, 127, 0x7F7FFFFF, some 0x7FC00000, true, true⟩
def bf16 : FloatFmt := ⟨16, 8, 7, 127, 0x7F7F, some 0x7FC0, true, true⟩
def fp16 : FloatFmt := ⟨16, 5, 10, 15, 0x7BFF, some 0x7E00, true, true⟩
def e4m3 : FloatFmt := ⟨8, 4, 3, 7, 0x7E, some 0x7F, false, true⟩
def e5m2 : FloatFmt := ⟨8, 5, 2, 15, 0x7B, some 0x7E, true, true⟩
def e3m2 : FloatFmt := ⟨6, 3, 2, 3, 0x1F, some 0x20, false, false⟩
def e2m3 : FloatFmt := ⟨6, 2, 3, 1, 0x1F, some 0x20, false, false⟩
def e2m1 : FloatFmt := ⟨4, 2, 1, 1, 0x7, some 0x8, false, false⟩
/-- The element formats of MXFP6 and MXFP4: negative zero, no NaN (R68, R72). -/
def mxE3m2 : FloatFmt := ⟨6, 3, 2, 3, 0x1F, none, false, true⟩
def mxE2m1 : FloatFmt := ⟨4, 2, 1, 1, 0x7, none, false, true⟩

/-- What a format code names (R60). -/
inductive Fmt where
  | flt (f : FloatFmt)
  | mx (elem : FloatFmt)
  | int (width : Nat) (signed : Bool)
  | reserved
  deriving DecidableEq, Repr

/-- The format of a 4-bit code (R60). -/
def fmtOf : Nat → Fmt
  | 0x0 => .flt fp32
  | 0x1 => .flt bf16
  | 0x2 => .flt fp16
  | 0x3 => .flt e4m3
  | 0x4 => .flt e5m2
  | 0x5 => .flt e3m2
  | 0x6 => .flt e2m3
  | 0x7 => .flt e2m1
  | 0x8 => .mx e4m3
  | 0x9 => .mx mxE3m2
  | 0xA => .mx mxE2m1
  | 0xB => .int 8 true
  | 0xC => .int 16 true
  | 0xD => .int 32 true
  | 0xE => .int 8 false
  | _ => .reserved

/-- E_MAX of a format code (R64). -/
def eMax : Nat → Int
  | 0x0 => 127
  | 0x1 => 127
  | 0x2 => 15
  | 0x3 => 8
  | 0x4 => 15
  | 0x5 => 4
  | 0x6 => 2
  | 0x7 => 2
  | 0x8 => 8
  | 0x9 => 4
  | 0xA => 2
  | 0xB => 6
  | 0xC => 14
  | 0xD => 30
  | 0xE => 7
  | _ => 0

/-- The value that a finite floating encoding stands for (R62), its sign bit aside. -/
def finiteMag (f : FloatFmt) (code : Nat) : Rat :=
  let e := nbits code f.fw f.ew
  let m : Rat := (nbits code 0 f.fw : Nat)
  if e = 0 then m * pow2 (1 - (f.bias : Int) - f.fw)
  else (((2 ^ f.fw : Nat) : Rat) + m) * pow2 ((e : Int) - f.bias - f.fw)

/-- Whether an encoding is a NaN of the format (R65, R66, R68). -/
def isNanCode (f : FloatFmt) (code : Nat) : Bool :=
  let c := code % 2 ^ f.width
  if f.hasInf then nbits c f.fw f.ew == 2 ^ f.ew - 1 && nbits c 0 f.fw != 0
  else match f.nan with
    | none => false
    | some n => if f.negZero then c % 2 ^ (f.width - 1) == n else c == n

/-- The value of a floating encoding (R62, R65). -/
def decodeFloat (f : FloatFmt) (code : Nat) : Num :=
  let c := code % 2 ^ f.width
  let neg := c / 2 ^ (f.width - 1) == 1
  if isNanCode f c then .nan
  else if f.hasInf && nbits c f.fw f.ew == 2 ^ f.ew - 1 then .inf neg
  else .fin neg (finiteMag f c)

/-- The largest finite magnitude of a floating format (R64). -/
def maxMag (f : FloatFmt) : Rat := finiteMag f f.maxEnc

/-- The distance between grid magnitudes of the format just above `q`, the exponent unbounded above (R81, R82). -/
def ulpAt (f : FloatFmt) (q : Rat) : Rat :=
  let emin : Int := 1 - (f.bias : Int)
  pow2 ((if q = 0 then emin else max (floorLog2 q) emin) - f.fw)

/-- A magnitude in units of the grid step, rounded to an integer by a mode of R78: 0 to nearest with ties to even,
1 toward zero, 2 by the draw `d` of R99. -/
def roundUnits (mode d : Nat) (u : Rat) : Nat :=
  let n := u.floor.toNat
  let r := u - (n : Rat)
  let up : Bool := match mode with
    | 0 => decide (r > 1 / 2) || (decide (r = 1 / 2) && n % 2 == 1)
    | 2 => decide ((r * 16777216).floor.toNat + d ≥ 16777216)
    | _ => false
  if up then n + 1 else n

/-- A magnitude rounded once onto a floating grid whose exponent is unbounded above (R79, R80, R82). -/
def roundMag (f : FloatFmt) (mode d : Nat) (q : Rat) : Rat :=
  let s := ulpAt f q
  (roundUnits mode d (q / s) : Rat) * s

/-- Nearest integer to a rational, ties to even (R121, R145). -/
def roundHalfEven (q : Rat) : Int :=
  if q < 0 then -(roundUnits 0 0 (-q) : Int) else (roundUnits 0 0 q : Int)

/-- The encoding of a magnitude that lies on the format's grid and within its range. -/
def encodeMag (f : FloatFmt) (neg : Bool) (q : Rat) : Nat :=
  let emin : Int := 1 - (f.bias : Int)
  let s := if neg then 2 ^ (f.width - 1) else 0
  if q < pow2 emin then s + (q / pow2 (emin - f.fw)).floor.toNat
  else
    let e := floorLog2 q
    s + (e + f.bias).toNat * 2 ^ f.fw + ((q / pow2 (e - f.fw)).floor.toNat - 2 ^ f.fw)

/-- The four counters of R87, for one element or summed. -/
structure Cnt where
  ovr : Nat := 0
  nan : Nat := 0
  inf : Nat := 0
  mx : Nat := 0
  deriving DecidableEq, Repr

def Cnt.add (a b : Cnt) : Cnt := ⟨a.ovr + b.ovr, a.nan + b.nan, a.inf + b.inf, a.mx + b.mx⟩

/-- The encoding of infinity, of a format that has it. -/
def infCode (f : FloatFmt) (neg : Bool) : Nat :=
  (if neg then 2 ^ (f.width - 1) else 0) + (2 ^ f.ew - 1) * 2 ^ f.fw

/-- The largest finite encoding of a sign. -/
def maxCode (f : FloatFmt) (neg : Bool) : Nat := f.maxEnc + (if neg then 2 ^ (f.width - 1) else 0)

/-- Canonical NaN of a format (R67); formats without one are met only inside MX blocks. -/
def nanCode (f : FloatFmt) : Nat := f.nan.getD 0

/-- An over-range value of a sign in a floating format under SAT (R83), with its events. -/
def overFloat (f : FloatFmt) (sat neg : Bool) : Nat × Cnt :=
  if sat then (maxCode f neg, { ovr := 1 })
  else if f.hasInf then (infCode f neg, { ovr := 1, inf := 1 })
  else (nanCode f, { ovr := 1, nan := 1 })

/-- A value encoded in a floating format by mode, SAT bit and draw (R79 to R84, R87). -/
def encodeFloat (f : FloatFmt) (mode : Nat) (sat : Bool) (d : Nat) : Num → Nat × Cnt
  | .nan => (nanCode f, { nan := 1 })
  | .inf neg =>
    if f.hasInf then (infCode f neg, { inf := 1 }) else overFloat f sat neg
  | .over neg => overFloat f sat neg
  | .fin neg q =>
    let r := roundMag f mode d q
    if r > maxMag f then overFloat f sat neg
    else if r = 0 then (if neg && f.negZero then 2 ^ (f.width - 1) else 0, {})
    else (encodeMag f neg r, {})

/-- The least integer of an integer format (R69). -/
def intLo (w : Nat) (s : Bool) : Int := if s then -(2 ^ (w - 1) : Int) else 0
/-- The greatest integer of an integer format (R69). -/
def intHi (w : Nat) (s : Bool) : Int := if s then (2 ^ (w - 1) : Int) - 1 else (2 ^ w : Int) - 1

/-- A value encoded in an integer format: SAT is ignored, NaN gives 0 (R83, R91). -/
def encodeInt (w : Nat) (s : Bool) (mode d : Nat) : Num → Nat × Cnt
  | .nan => (0, { nan := 1 })
  | .inf neg | .over neg => (toTwos w (if neg then intLo w s else intHi w s), { ovr := 1 })
  | .fin neg q =>
    let m : Int := roundUnits mode d q
    let v := if neg then -m else m
    if v < intLo w s then (toTwos w (intLo w s), { ovr := 1 })
    else if v > intHi w s then (toTwos w (intHi w s), { ovr := 1 })
    else (toTwos w v, {})

/-- A value encoded in a scalar format code (R91). -/
def encodeNum (fmt mode : Nat) (sat : Bool) (d : Nat) (x : Num) : Nat × Cnt :=
  match fmtOf fmt with
  | .flt f => encodeFloat f mode sat d x
  | .int w s => encodeInt w s mode d x
  | .mx e => encodeFloat e mode sat d x
  | .reserved => (0, {})

/-- The value of a scalar encoding (R62, R69). -/
def decodeNum (fmt code : Nat) : Num :=
  match fmtOf fmt with
  | .flt f => decodeFloat f code
  | .mx f => decodeFloat f code
  | .int w s =>
    let v : Int := if s then ofTwos w code else (code % 2 ^ w : Nat)
    Num.ofRat false (v : Rat)
  | .reserved => .nan

/-- A value multiplied by a power of two (R75, R92). -/
def Num.scale (t : Int) : Num → Num
  | .fin neg q => .fin neg (q * pow2 t)
  | x => x

/-- The bits of an element of a scalar format, or of an element inside an MX block (R60). -/
def elemBits (fmt : Nat) : Nat :=
  match fmtOf fmt with
  | .flt f => f.width
  | .mx f => f.width
  | .int w _ => w
  | .reserved => 0

/-- Whether a code names an MX format. -/
def isMx (fmt : Nat) : Bool := match fmtOf fmt with
  | .mx _ => true
  | _ => false

/-- Whether a code names an integer format. -/
def isInt (fmt : Nat) : Bool := match fmtOf fmt with
  | .int _ _ => true
  | _ => false

/-- Elements of one packing unit and its bytes (R70, R74, R507). -/
def unitOf (fmt : Nat) : Nat × Nat :=
  match fmt with
  | 0x5 | 0x6 => (4, 3)
  | 0x7 => (2, 1)
  | 0x8 => (32, 33)
  | 0x9 => (32, 25)
  | 0xA => (32, 17)
  | _ => (1, elemBits fmt / 8)

/-- The bytes that `n` elements of a format take (R71, R73). -/
def bytesFor (fmt n : Nat) : Nat := ceilDiv n (unitOf fmt).1 * (unitOf fmt).2

/-- The encodings packed least significant first, element by element (R70). -/
def packBits (w : Nat) : List Nat → Nat
  | [] => 0
  | c :: r => c % 2 ^ w + 2 ^ w * packBits w r

/-- Scalar encodings packed into bytes, padding 0 (R70, R71). -/
def packScalar (fmt : Nat) (cs : List Nat) : Bytes :=
  leBytes (bytesFor fmt cs.length) (packBits (elemBits fmt) cs)

/-- Encoding `i` of packed scalar elements: padding is ignored (R70, R71). -/
def codeAt (fmt : Nat) (b : Bytes) (i : Nat) : Nat :=
  let (ue, ub) := unitOf fmt
  nbits (numAt b (i / ue * ub) ub) (elemBits fmt * (i % ue)) (elemBits fmt)

/-- Element `i` of an MX array: the block's scale byte, then its elements (R74, R75). -/
def mxAt (fmt : Nat) (b : Bytes) (i : Nat) : Num :=
  let (_, ub) := unitOf fmt
  let blk := bytesAt b (i / 32 * ub) ub
  let s := numAt blk 0 1
  if s = 0xFF then .nan
  else
    let w := elemBits fmt
    let c := nbits (ofLe (blk.drop 1)) (w * (i % 32)) w
    Num.scale ((s : Int) - 127) (decodeNum fmt c)

/-- The exact value of element `i` of packed bytes in a format under a tensor scale exponent (R92). -/
def elemAt (fmt : Nat) (t : Int) (b : Bytes) (i : Nat) : Num :=
  Num.scale t (if isMx fmt then mxAt fmt b i else decodeNum fmt (codeAt fmt b i))

/-- How many elements packed bytes hold (whole units). -/
def elemCount (fmt : Nat) (b : Bytes) : Nat :=
  let (ue, ub) := unitOf fmt
  if ub = 0 then 0 else b.length / ub * ue

/-- The values of `n` packed elements. -/
def decodeElems (fmt : Nat) (t : Int) (b : Bytes) (n : Nat) : List Num := (List.range n).map (elemAt fmt t b)

/-- The greatest finite magnitude among values, 0 if there is none. -/
def finiteMax (vs : List Num) : Rat :=
  vs.foldl (fun m v => match v with
    | .fin _ q => max m q
    | _ => m) 0

/-- One MX element under shared exponent `x`: code, events and whether the block turns NaN (R76, R77). -/
def mxElem (f : FloatFmt) (mode : Nat) (sat atLimit : Bool) (x : Int) (v : Num) (d : Nat) : Nat × Cnt × Bool :=
  let nanElem (c : Cnt) : Nat × Cnt × Bool := match f.nan with
    | some n => (n, { c with nan := 1 }, false)
    | none => (0, { c with nan := 1 }, true)
  match v with
  | .nan => nanElem {}
  | .inf neg | .over neg => if sat then (maxCode f neg, { ovr := 1 }, false) else nanElem { ovr := 1 }
  | .fin neg q =>
    let r := roundMag f mode d (q / pow2 x)
    if r ≤ maxMag f then
      (if r = 0 then (if neg then 2 ^ (f.width - 1) else 0) else encodeMag f neg r, {}, false)
    else if atLimit then (if sat then (maxCode f neg, { ovr := 1 }, false) else nanElem { ovr := 1 })
    else (maxCode f neg, { mx := 1 }, false)

/-- One MX block of at most 32 values with their draws: its bytes and events (R74, R76, R88). -/
def encodeBlock (fmt mode : Nat) (sat : Bool) (vs : List (Num × Nat)) : Bytes × Cnt :=
  match fmtOf fmt with
  | .mx f =>
    let amax := finiteMax (vs.map (·.1))
    let x0 : Int := if amax = 0 then -127 else floorLog2 amax - eMax fmt
    let atLimit := decide (x0 > 127)
    let x := max (-127) (min 127 x0)
    let es := vs.map (fun p => mxElem f mode sat atLimit x p.1 p.2)
    let blockNan := es.any (·.2.2)
    let cnt := es.foldl (fun c e => c.add e.2.1) ({} : Cnt)
    let n := vs.length
    let ub := (unitOf fmt).2
    if blockNan then (leBytes 1 0xFF ++ leBytes (ub - 1) 0, { cnt with nan := n })
    else (leBytes 1 (x + 127).toNat ++ leBytes (ub - 1) (packBits f.width (es.map (·.1))), cnt)
  | _ => ([], {})

/-- Values with their draws encoded into packed bytes of a format, with the events (R70 to R77, R87). MX blocks are
counted from the first value given. -/
def encodeElems (fmt mode : Nat) (sat : Bool) (vs : List (Num × Nat)) : Bytes × Cnt :=
  if isMx fmt then
    (chunksOf 32 vs.length vs).foldl (fun a blk =>
      let r := encodeBlock fmt mode sat blk
      (a.1 ++ r.1, a.2.add r.2)) ([], {})
  else
    let es := vs.map (fun p => encodeNum fmt mode sat p.2 p.1)
    (packScalar fmt (es.map (·.1)), es.foldl (fun c e => c.add e.2) {})

/-! Recorded maxima (R102, R103): EXP in bits 31 to 22, FRAC in bits 21 to 0. -/

/-- The MAXREC of no finite non-zero value. -/
def maxrecNone : Word32 := 0x80000000

/-- The signed EXP of a MAXREC. -/
def maxrecExp (m : Word32) : Int := bsgn ⟨22, 10⟩ m

/-- The MAXREC of a magnitude: rounded toward +infinity onto 22 fraction bits (R103). -/
def maxrecOf (q : Rat) : Word32 :=
  if q = 0 then maxrecNone
  else
    let e := floorLog2 q
    let u := q / pow2 (e - 22)
    let n := if (u.floor : Rat) = u then u.floor.toNat else u.floor.toNat + 1
    let (e', n') := if n = 2 ^ 23 then (e + 1, 2 ^ 22) else (e, n)
    BitVec.ofNat 32 (toTwos 10 e' * 2 ^ 22 + (n' - 2 ^ 22))

/-- The value a MAXREC is worth; 0 where nothing was seen (R102). -/
def maxrecVal (m : Word32) : Rat :=
  if maxrecExp m = -512 then 0
  else (((2 ^ 22 + bget ⟨0, 22⟩ m : Nat) : Rat)) * pow2 (maxrecExp m - 22)

/-- The larger of two MAXRECs. -/
def maxrecMax (a b : Word32) : Word32 := if maxrecVal a < maxrecVal b then b else a

/-- A MAXREC combined with a value: only finite values count (R103, R104). DEDUCED: assumption 21. -/
def maxrecAdd (m : Word32) : Num → Word32
  | .fin _ q => maxrecMax m (maxrecOf q)
  | _ => m

/-! Seedline and stochastic draws (R94 to R101). -/

/-- One round of Seedline on the four state words (R96). -/
def seedRound (s : Word32 × Word32 × Word32 × Word32) (r : Nat) : Word32 × Word32 × Word32 × Word32 :=
  let (s0, s1, s2, s3) := s
  let s0 := s0 + s1
  let s3 := (s3 ^^^ s0).rotateLeft 8
  let s2 := s2 + s3
  let s1 := (s1 ^^^ s2).rotateLeft 12
  (s0 ^^^ (0x5EED0000 + BitVec.ofNat 32 r), s1, s2, s3)

/-- The final state words of Seedline (R96, R101). -/
def seedState (key gen tensor index : Nat) : Word32 × Word32 × Word32 × Word32 :=
  let w (v lo : Nat) : Word32 := BitVec.ofNat 32 (v / 2 ^ lo)
  (List.range 6).foldl seedRound
    (w key 0 ^^^ w index 0,
     w key 32 ^^^ BitVec.ofNat 32 (tensor * 256 ||| nbits index 32 8),
     w gen 0,
     BitVec.ofNat 32 (0x5EED0000 ||| nbits gen 32 16))

/-- The 24-bit draw number `k` of an element (R96, R97). -/
def seedDraw (key gen tensor index k : Nat) : Nat :=
  let (s0, s1, s2, s3) := seedState key gen tensor index
  let s := match k with
    | 0 => s0
    | 1 => s1
    | 2 => s2
    | _ => s3
  s.toNat / 256

end Sys2Proof.Machine
end

