-- ==== Sys2Proof/Machine/Arith.lean ====
section
/-! DEFINITION. FP32 operations of the FUU and of Vyush (R174, R297), the microprogram (R172 to R177, R180), correctly
rounded square roots (R147, R188) and 64-bit integer operations (R296). -/
namespace Sys2Proof.Machine

/-- The value of an FP32 encoding. -/
def f32 (c : Nat) : Num := decodeFloat fp32 c

/-- One rounding to FP32 by mode 0; overflow gives an infinity (R174, R188). -/
def rne32 (x : Num) : Nat := (encodeFloat fp32 0 false 0 x).1

/-- An exact rational rounded once to FP32. -/
def rne32q (q : Rat) : Nat := rne32 (Num.ofRat false q)

def Num.neg : Num → Num
  | .nan => .nan
  | .inf s => .inf (!s)
  | .over s => .over (!s)
  | .fin s q => .fin (!s) q

/-- Exact sum, special values as IEEE 754 gives them; `over` stands for no operand and acts as an infinity. -/
def Num.add : Num → Num → Num
  | .nan, _ | _, .nan => .nan
  | .inf s, .inf t => if s = t then .inf s else .nan
  | .inf s, _ => .inf s
  | _, .inf t => .inf t
  | .over s, .over t => if s = t then .over s else .nan
  | .over s, _ => .over s
  | _, .over t => .over t
  | .fin s p, .fin t q => Num.ofRat (s && t) (signed s p + signed t q)

/-- Exact product; inf × 0 is NaN. -/
def Num.mul : Num → Num → Num
  | .nan, _ | _, .nan => .nan
  | .fin s p, .fin t q => .fin (s != t) (p * q)
  | .fin s p, .inf t | .fin s p, .over t => if p = 0 then .nan else .inf (s != t)
  | .inf s, .fin t q | .over s, .fin t q => if q = 0 then .nan else .inf (s != t)
  | .inf s, .inf t | .inf s, .over t | .over s, .inf t | .over s, .over t => .inf (s != t)

/-- Exact quotient; 0 ÷ 0 and inf ÷ inf are NaN, x ÷ 0 an infinity. -/
def Num.div : Num → Num → Num
  | .nan, _ | _, .nan => .nan
  | .fin s p, .fin t q =>
    if q = 0 then (if p = 0 then .nan else .inf (s != t)) else .fin (s != t) (p / q)
  | .fin s _, .inf t | .fin s _, .over t => .fin (s != t) 0
  | .inf s, .fin t _ | .over s, .fin t _ => .inf (s != t)
  | _, _ => .nan

/-- The square root of a non-negative rational, rounded once to FP32 by mode 0. -/
def sqrt32 (r : Rat) : Nat :=
  if r ≤ 0 then 0
  else
    let e := max (floorLog2 r / 2) (-126)
    let ulp := pow2 (e - 23)
    let u := r / (ulp * ulp)
    let n := isqrt u.floor.toNat
    let h : Rat := (n : Rat) + 1 / 2
    let up := decide (u > h * h) || (decide (u = h * h) && n % 2 == 1)
    rne32q (((if up then n + 1 else n : Nat) : Rat) * ulp)

/-- The order of FMAX and FMIN on values that are no NaN: −0 below +0 (R174). -/
def Num.lt : Num → Num → Bool
  | .inf true, .inf true | .over true, .inf true | .over true, .over true => false
  | .inf true, _ | .over true, _ => true
  | _, .inf true | _, .over true => false
  | .inf false, _ | .over false, _ => false
  | _, .inf false | _, .over false => true
  | .fin s p, .fin t q =>
    decide (signed s p < signed t q) || (decide (signed s p = signed t q) && s && !t)
  | .nan, _ | _, .nan => false

def Num.isNan : Num → Bool
  | .nan => true
  | _ => false

/-- The result of a floating operation code on three FP32 encodings (R174); `none` for a code not in the table. -/
def floatOp (op a b c : Nat) : Option Nat :=
  let x := f32 a
  let y := f32 b
  let z := f32 c
  match op with
  | 0x01 => some (rne32 (x.add y))
  | 0x02 => some (rne32 (x.add y.neg))
  | 0x03 => some (rne32 (x.mul y))
  | 0x04 => some (rne32 ((x.mul y).add z))
  | 0x05 => some (rne32 (z.add (x.mul y).neg))
  | 0x06 => some (rne32 (x.div y))
  | 0x07 => some (match x with
      | .fin s q => if q = 0 then rne32 x else if s then 0x7FC00000 else sqrt32 q
      | .inf false => rne32 x
      | _ => 0x7FC00000)
  | 0x08 => some (if x.isNan || y.isNan then 0x7FC00000 else rne32 (if x.lt y then y else x))
  | 0x09 => some (if x.isNan || y.isNan then 0x7FC00000 else rne32 (if x.lt y then x else y))
  | 0x0A => some (rne32 (match x with
      | .fin _ q => .fin false q
      | .inf _ => .inf false
      | v => v))
  | 0x0B => some (match x with
      | .nan => 0x7FC00000
      | .fin s q => if q = 0 then 0 else if s then 0xBF800000 else 0x3F800000
      | .inf s | .over s => if s then 0xBF800000 else 0x3F800000)
  | 0x0C => some (match z with
      | .fin s q => if q = 0 || !s then rne32 x else rne32 y
      | .inf false => rne32 x
      | _ => rne32 y)
  | 0x0D => some (rne32 x)
  | _ => none

/-- A microinstruction's fields (R173). -/
def microFields (w : Word32) : Nat × Nat × Nat × Nat × Nat :=
  (bget ⟨0, 6⟩ w, bget ⟨6, 5⟩ w, bget ⟨11, 5⟩ w, bget ⟨16, 5⟩ w, bget ⟨21, 5⟩ w)

/-- Whether a microinstruction keeps R175: OP in the table, DST at most 15, reserved bits 0. -/
def microOk (w : Word32) : Bool :=
  let (op, dst, _, _, _) := microFields w
  decide (op ≤ 0x0D) && decide (dst ≤ 15) && bget ⟨26, 6⟩ w == 0

/-- A microinstruction word of a built-in listing. -/
def micro (op dst a b c : Nat) : Word32 :=
  BitVec.ofNat 32 (op + 2 ^ 6 * dst + 2 ^ 11 * a + 2 ^ 16 * b + 2 ^ 21 * c)

/-- The operand file of the FUU: F0 to F15 at 0 to 15, K0 to K15 at 16 to 31 (R172). -/
abbrev FuuFile := Tab Nat

/-- One microinstruction on the operand file (R173, R174). -/
def microStep (f : FuuFile) (w : Word32) : FuuFile :=
  let (op, dst, a, b, c) := microFields w
  match floatOp op (tget 0 f a) (tget 0 f b) (tget 0 f c) with
  | some v => tset 0 f dst v
  | none => f

/-- A microprogram run on the operand file (R172). -/
def microRun (p : List Word32) (f : FuuFile) : FuuFile := p.foldl microStep f

/-- The listings of the built-in programs (R180). Operand 16 + k is Kk. -/
def builtin : Nat → List Word32
  | 0 => [micro 3 6 0 28 0, micro 4 6 1 21 6, micro 4 2 2 16 6, micro 5 1 2 31 1]
  | 1 => [micro 3 6 0 28 0, micro 3 7 2 16 0, micro 4 2 6 17 7, micro 3 8 6 6 0, micro 3 9 3 18 0,
          micro 4 3 8 19 9, micro 6 10 2 29 0, micro 6 11 3 30 0, micro 7 11 11 0 0, micro 1 11 11 20 0,
          micro 6 10 10 11 0, micro 4 10 1 21 10, micro 5 1 10 31 1]
  | 2 => [micro 3 6 0 28 0, micro 3 7 2 16 0, micro 4 7 6 17 7, micro 11 7 7 0 0, micro 4 7 1 21 7,
          micro 5 1 7 31 1, micro 3 8 2 18 0, micro 4 2 6 19 8]
  | 3 => [micro 3 6 0 28 0, micro 3 8 4 5 0, micro 7 8 8 0 0, micro 1 8 8 20 0, micro 6 9 6 8 0,
          micro 3 7 2 16 0, micro 4 2 9 17 7, micro 4 10 1 21 2, micro 5 1 10 31 1]
  | _ => []

/-! Integer operations of Vyush (R296). -/

/-- The 64-bit integer operations of class 0x1 that write a G register (R294, R296). -/
inductive IntOp where
  | add | sub | mul | mulh | mulhu | div | divu | rem | remu | and | or | xor | shl | shr | sar | rotl
  | min | max | minu | maxu | mov
  deriving DecidableEq, Repr

/-- The result of an integer operation: wraps modulo 2^64, and none faults (R296). -/
def intOp (op : IntOp) (a b : Word64) : Word64 :=
  let k := b.toNat % 64
  match op with
  | .add => a + b
  | .sub => a - b
  | .mul => a * b
  | .mulh => BitVec.ofInt 64 ((a.toInt * b.toInt) / (2 ^ 64 : Int))
  | .mulhu => BitVec.ofNat 64 (a.toNat * b.toNat / 2 ^ 64)
  | .div => if b = 0 then BitVec.allOnes 64 else BitVec.ofInt 64 (a.toInt.tdiv b.toInt)
  | .divu => if b = 0 then BitVec.allOnes 64 else BitVec.ofNat 64 (a.toNat / b.toNat)
  | .rem => if b = 0 then a else BitVec.ofInt 64 (a.toInt.tmod b.toInt)
  | .remu => if b = 0 then a else BitVec.ofNat 64 (a.toNat % b.toNat)
  | .and => a &&& b
  | .or => a ||| b
  | .xor => a ^^^ b
  | .shl => a <<< k
  | .shr => a >>> k
  | .sar => a.sshiftRight k
  | .rotl => a.rotateLeft k
  | .min => if a.toInt < b.toInt then a else b
  | .max => if a.toInt < b.toInt then b else a
  | .minu => if a.toNat < b.toNat then a else b
  | .maxu => if a.toNat < b.toNat then b else a
  | .mov => a

end Sys2Proof.Machine
end

