-- ==== Sys2Proof/Config.lean ====
section
/-! DEFINITION. What one implementation or one device fixes, and the values that the rules leave open: constants without a
body, so that nothing can be proved about the value of any of them. -/
namespace Sys2Proof

/-- The serial number fused into the device (R629). -/
opaque Config.serial : Word64
/-- The 57-byte Ed448 identity public key of the device (R602, R627). -/
opaque Config.identityKey : Bytes
/-- What a part in BLANK, which has no key pair yet, returns for its key (R602, R627). DESIGN CHOICE: assumption 59. -/
opaque Config.noKey : Bytes
/-- The status and the payload with which the Shed of the other package of a pair answers a request: the model's counter gives new ones each time
(R600, R602). DESIGN CHOICE: assumptions 2 and 7. -/
opaque Config.peerMail : Nat → Nat × Bytes
/-- The maker's certificate chain for the identity key (R602). PRESUMED: assumption 11. -/
opaque Config.certChain : Bytes
/-- The image header in flash when the part leaves the maker (R623). -/
opaque Config.factoryHeader : Bytes
/-- Whether a signature over a message checks under a public key: key, message, signature (R623, R628, R631, R633). PRESUMED: assumption 11. -/
opaque Config.verifies : Bytes → Bytes → Bytes → Bool
/-- The vendor key that signs images (R623), grants (R631) or lifecycle tokens (R633), by number. PRESUMED: assumption 11. -/
opaque Config.vendorKey : Nat → Bytes
/-- The signature of the device's identity key over a message (R629). PRESUMED: assumption 11. -/
opaque Config.identitySign : Bytes → Bytes
/-- A fresh random number: the model's counter gives a new one each time (R630). DESIGN CHOICE: assumption 2. -/
opaque Config.random : Nat → Nat
/-- The choice that the part makes afresh at a placement (R45). DESIGN CHOICE: assumptions 2 and 19. -/
opaque Config.rotation : Nat → Nat
/-- The place that the part chooses for an element of the store: region, job, tensor or handle, element. DESIGN CHOICE: assumption 40. -/
opaque Config.sectorPlace : Nat → Nat → Nat → Nat → Nat
/-- The sector of 64 bytes of the store that holds an element, one of the 2^29 of each of the 24 stacks (R158 to R160, R654).
Regions are 0 weights, 1 and 2 moments, 3 and 4 statistics, 5 gradient area, 6 cold frame, 7 tables. DESIGN CHOICE: assumption 40. -/
def Config.sectorOf (region job a e : Nat) : Nat := Config.sectorPlace region job a e % (24 * 2 ^ 29)
/-- The compute die at which the dealing of a shard's update blocks begins: job and tensor (R165). DESIGN CHOICE: assumption 40. -/
opaque Config.dealStart : Nat → Nat → Nat
/-- Which of the beds that take part in an operation the residue check that fails belongs to: the model's counter gives a new one each
time (R151). DESIGN CHOICE: assumptions 2 and 37. -/
opaque Config.faultBed : Nat → Nat
/-- Whether a read-out that spills a bucket fails its residue check: the model's counter gives a new answer each time (R150).
DESIGN CHOICE: assumptions 2 and 37. -/
opaque Config.spillFault : Nat → Bool
/-- Which of its edge stops and I/O dies the part takes for a packet or a buffer: the model's counter gives a new choice each time (R36,
R551). DESIGN CHOICE: assumptions 2 and 47. -/
opaque Config.bufferStop : Nat → Nat
/-- Values that the input queue of a bed holds (R51). DESIGN CHOICE: assumption 71. -/
opaque Config.bedQueue : Nat
/-- Which of the spares the part maps in for a failed bed: the model's counter gives a new choice each time (R644).
DESIGN CHOICE: assumption 2. DEDUCED: assumption 45. -/
opaque Config.pickSpare : Nat → Nat
/-- The state of a bed of the other package of a pair when the pair forms, within the active beds of its grade (R14, R408, R566).
DESIGN CHOICE: assumption 7. -/
opaque Config.peerBed : Nat → Nat
/-- What a register of the other package's copy reads as: the model's counter, and the address (R405). DESIGN CHOICE: assumptions 2 and 7. -/
opaque Config.peerRead : Nat → Nat → Nat
/-- A quarter of a number of eighths that is no whole eighth, as TIME_OFFSET, TIME_DELAY and the slew take it (R372, R373, R389).
DEDUCED: assumption 53. -/
opaque Config.roundEighth : Int → Int
/-- The root-PLL cycle within its tick at which something is stamped: the model's counter and the tick give a new one each time (R366). No row
carries it. DEDUCED: assumption 53. -/
opaque Config.eighth : Nat → Nat → Nat
/-- The fixed pattern that begins an alignment marker (R474): its bits are stated nowhere. DESIGN CHOICE: assumption 78. -/
opaque Config.amPattern : BitVec 80
/-- Olurix's PCI-SIG vendor ID (R397, R479). DESIGN CHOICE: assumption 66. -/
opaque Config.vendorId : BitVec 16
/-- The FFE coefficients that a lane's receiver asks of its far end, by the model's counter and the lane (R469, R475): no rule
gives them. DESIGN CHOICE: assumptions 2 and 50. -/
opaque Config.ffeRequest : Nat → Nat → BitVec 30
/-- The row of a pseudo-channel that a failed test names: the model's counter gives a new one each time (R646).
DESIGN CHOICE: assumption 2. DEDUCED: assumption 45. -/
opaque Config.failedRow : Nat → Nat
/-- The peer package's Taproot link is up when the pair forms (R583, R587). DESIGN CHOICE: assumptions 2 and 7. -/
opaque Config.peerCard : Nat → Bool
/-- The bytes of the fuse map: SVN floor, lifecycle state, states of the beds, rows burnt (R629). DESIGN CHOICE: assumption 66. -/
opaque Config.fuseMap : Nat → Nat → List (Nat × Nat) → List (Nat × Nat × Nat) → Bytes
/-- The bytes of a BIST record's result and repairs: the failed units, the beds and the rows repaired, and BOOT_COUNT (R638).
DESIGN CHOICE: assumption 56. -/
opaque Config.bistBytes : List Nat → List (Nat × Nat) → List (Nat × Nat × Nat) → Word32 → Bytes
/-- PRBS13Q symbol errors that a lane's checker has met since they were last counted: the model's counter gives a new number each time
(R505). DESIGN CHOICE: assumptions 2 and 79. -/
opaque Config.prbsErrors : Nat → Nat
/-- What a counter of STACK_CNT has counted in a tick: the model's counter, then five counters for each stack (R700).
DESIGN CHOICE: assumptions 2 and 79. -/
opaque Config.stackTraffic : Nat → Nat → Nat
/-- Corrected ECC errors of a bed's SRAMs in a scoring interval: the model's counter, then the bed (R615). DESIGN CHOICE: assumptions 2 and 79. -/
opaque Config.bedEcc : Nat → Nat → Nat
/-- How FAULT_ADDR names the two W registers of an ANCHOR_DIFF fault (R351). DESIGN CHOICE: assumption 37. -/
opaque Config.anchorDiffAddr : Nat → Nat → Nat

end Sys2Proof
end

