-- ==== Sys2Proof/Machine/Exact.lean ====
section
/-! DEFINITION. Slots, quantization, read-out, XP records, dot products and the norm (chapter Exact Accumulation,
R117 to R151). -/
namespace Sys2Proof.Machine

/-- A slot with its flag byte (R117, R119). -/
structure Slot where
  n : BitVec 128
  flags : BitVec 8
  deriving DecidableEq, Repr

/-- A slot as admission leaves it: 0, flag byte 0x20 (R120). -/
def Slot.empty : Slot := ⟨0, 0x20⟩

namespace Flag
def nan : Bits := ⟨0, 1⟩
def pinf : Bits := ⟨1, 1⟩
def ninf : Bits := ⟨2, 1⟩
def povf : Bits := ⟨3, 1⟩
def novf : Bits := ⟨4, 1⟩
def negz : Bits := ⟨5, 1⟩
end Flag

/-- The four input counters of R129, for one value or summed. -/
structure InCnt where
  nan : Nat := 0
  inf : Nat := 0
  aovf : Nat := 0
  gzero : Nat := 0
  deriving DecidableEq, Repr

def InCnt.add (a b : InCnt) : InCnt := ⟨a.nan + b.nan, a.inf + b.inf, a.aovf + b.aovf, a.gzero + b.gzero⟩

/-- A finite value on the grid of anchor `a`: nearest, ties to even (R121, R123). -/
def quantize (a : Int) (x : Rat) : Int := roundHalfEven (x / pow2 (a - 107))

/-- A decoded value added into a slot on anchor `a` (R121, R122); `lim` is the overflow limit in grid steps, 2^107 for
a bucket, 2^(127 − H) for an exact accumulator (R145, R299). -/
def accumulate (lim : Int) (a : Int) (s : Slot) (x : Num) : Slot × InCnt :=
  let clr := bset Flag.negz s.flags 0
  match x with
  | .nan => (⟨s.n, bset Flag.nan clr 1⟩, { nan := 1 })
  | .inf false | .over false => (⟨s.n, bset Flag.pinf clr 1⟩, { inf := 1 })
  | .inf true | .over true => (⟨s.n, bset Flag.ninf clr 1⟩, { inf := 1 })
  | .fin neg q =>
    let fl := if neg && q = 0 then s.flags else clr
    let v := quantize a (signed neg q)
    if v.natAbs ≥ lim.toNat then (⟨s.n, bset (if neg then Flag.novf else Flag.povf) fl 1⟩, { aovf := 1 })
    else (⟨BitVec.ofInt 128 (s.n.toInt + v), fl⟩, { gzero := if v = 0 ∧ q ≠ 0 then 1 else 0 })

/-- The overflow limit of a bucket's slot (R121). -/
def slotLimit : Int := 2 ^ 107

/-- The exact value a slot stands for on anchor `a` (R118). -/
def slotVal (a : Int) (n : BitVec 128) : Rat := (n.toInt : Rat) * pow2 (a - 107)

/-- The value that a slot reads out as, by the first row of R126 that applies. -/
def readSlot (a : Int) (s : Slot) : Num :=
  let f (b : Bits) := bflag b s.flags
  if f Flag.nan || (f Flag.pinf && f Flag.ninf) then .nan
  else if f Flag.pinf then .inf false
  else if f Flag.ninf then .inf true
  else if f Flag.povf && f Flag.novf then .nan
  else if f Flag.povf then .over false
  else if f Flag.novf then .over true
  else if s.n ≠ 0 then Num.ofRat false (slotVal a s.n)
  else .fin (f Flag.negz) 0

/-- Flag bytes combined: OR, and AND for NEGZ (R137, R144). -/
def flagsJoin (x y : BitVec 8) : BitVec 8 := (((x ||| y) &&& 0xDF) ||| (x &&& y &&& 0x20))

/-- Slots combined (R144). -/
def Slot.join (x y : Slot) : Slot := ⟨x.n + y.n, flagsJoin x.flags y.flags⟩

/-- The FP32 form in which NORM and the FUU take a reduced element (R54, R128). -/
def slotGrad (a : Int) (sat : Bool) (s : Slot) : Nat := (encodeFloat fp32 0 sat 0 (readSlot a s)).1

/-! XP records (R138 to R144). -/

/-- What an XP record says: header fields of R139 and the stripe's slots. -/
structure XpRec where
  stripe : Nat
  anchor : Int
  nelem : Nat
  res : Nat
  ncontrib : Nat
  firstFlag : Nat
  maxrec : Word32
  cnt : InCnt
  slots : List Slot
  deriving DecidableEq, Repr

/-- Trailing zero bits of a non-zero number, at most `fuel`. -/
def trailZeros : Nat → Nat → Nat
  | 0, _ => 0
  | k + 1, v => if v % 2 = 1 then 0 else 1 + trailZeros k (v / 2)

/-- SHIFT of a stripe (R141). -/
def xpShift (vs : List Int) : Nat :=
  let z := (vs.filter (· ≠ 0)).map (fun v => trailZeros 127 v.natAbs)
  match z with
  | [] => 0
  | t :: r => r.foldl min t

/-- The bits that `v` needs in two's complement. -/
def twosWidth (v : Int) : Nat :=
  let m := if v < 0 then (-v - 1).toNat else v.toNat
  if m = 0 then 1 else Nat.log2 m + 2

/-- One group of 16 shifted values: its bit count and its bits (R142). -/
def xpGroup (vs : List Int) : Nat × Nat :=
  let c := min ((vs.map (fun v => 128 - twosWidth v)).foldl min 127) 96
  let w := 128 - c
  (7 + 16 * w, c + 2 ^ 7 * packBits w (vs.map (toTwos w)))

/-- The groups of a stripe packed without gaps (R143). -/
def xpGroups : List (List Int) → Nat × Nat
  | [] => (0, 0)
  | g :: r =>
    let (n, b) := xpGroup g
    let (m, c) := xpGroups r
    (n + m, b + 2 ^ n * c)

/-- The residue modulo 127 of a stripe's slot values (R139, R149). -/
def residue (vs : List Int) : Nat := ((vs.foldl (· + ·) 0) % 127).toNat

/-- The bytes of an XP record (R138 to R143). -/
def xpBytes (r : XpRec) : Bytes :=
  let vs := r.slots.map (·.n.toInt)
  let sh := xpShift vs
  let values := vs.any (· ≠ 0)
  let fmap := r.slots.any (·.flags ≠ 0)
  let hdr : Nat := r.stripe + 2 ^ 24 * toTwos 10 r.anchor + 2 ^ 34 * sh + 2 ^ 41 * r.nelem
    + 2 ^ 50 * fmap.toNat + 2 ^ 51 * values.toNat + 2 ^ 52 * r.res
    + 2 ^ 64 * r.ncontrib + 2 ^ 85 * r.firstFlag + 2 ^ 128 * r.maxrec.toNat
    + 2 ^ 160 * min r.cnt.nan (2 ^ 32 - 1) + 2 ^ 192 * min r.cnt.inf (2 ^ 32 - 1)
    + 2 ^ 224 * min r.cnt.aovf (2 ^ 32 - 1) + 2 ^ 256 * min r.cnt.gzero (2 ^ 32 - 1)
  let groups := (chunksOf 16 vs.length (vs.map (fun v => v / (2 ^ sh : Int)))).map
    (fun g => g ++ List.replicate (16 - g.length) 0)
  let (n, b) := xpGroups groups
  leBytes 40 hdr
    ++ (if fmap then padTo 8 (r.slots.map (·.flags)) else [])
    ++ (if values then padTo 8 (leBytes (ceilDiv n 8) b) else [])

/-- The values of a group area: 16 fields of each group in turn (R142, R144). -/
def xpUngroup : Nat → Nat → List Int
  | 0, _ => []
  | k + 1, b =>
    let w := 128 - b % 2 ^ 7
    let fs := (List.range 16).map (fun i => ofTwos w (b / 2 ^ (7 + w * i)))
    fs ++ xpUngroup k (b / 2 ^ (7 + 16 * w))

/-- An XP record read from bytes (R139, R144): RES is the one sent; the receiver's checks compare it. -/
def xpParse (b : Bytes) : XpRec :=
  let h := numAt b 0 40
  let nelem := nbits h 41 9
  let sh := nbits h 34 7
  let fmap := nbits h 50 1 = 1
  let values := nbits h 51 1 = 1
  let fm := if fmap then bytesAt b 40 nelem else List.replicate nelem 0
  let off := 40 + (if fmap then ceilDiv nelem 8 * 8 else 0)
  let g := ceilDiv nelem 16
  let vs := if values then (xpUngroup g (ofLe (b.drop off))).take nelem else List.replicate nelem 0
  { stripe := nbits h 0 24, anchor := ofTwos 10 (nbits h 24 10), nelem := nelem, res := nbits h 52 7,
    ncontrib := nbits h 64 21, firstFlag := nbits h 85 20, maxrec := BitVec.ofNat 32 (nbits h 128 32),
    cnt := ⟨nbits h 160 32, nbits h 192 32, nbits h 224 32, nbits h 256 32⟩,
    slots := List.zipWith (fun v f => ⟨BitVec.ofInt 128 (v * (2 ^ sh : Int)), f⟩) vs fm }

/-- Whether RES agrees with the decoded stripe (R144). -/
def xpResOk (r : XpRec) : Bool := residue (r.slots.map (·.n.toInt)) == r.res

/-! The exact dot product and the norm (R145 to R148). -/

/-- H of a dot product of `n` terms (R145). -/
def headroom (n : Nat) : Nat := max 20 (if n ≤ 1 then 0 else Nat.log2 (n - 1) + 1)

/-- One term of the dot product added into an accumulator (R145). -/
def dotTerm (a : Int) (h : Nat) (acc : Slot) (x y : Num) : Slot × InCnt :=
  accumulate (2 ^ (127 - h)) a acc (x.mul y)

/-- The accumulator of a dot product over pairs of values (R145). -/
def dotExact (a : Int) (h : Nat) (ps : List (Num × Num)) : Slot :=
  ps.foldl (fun acc p => (dotTerm a h acc p.1 p.2).1) Slot.empty

/-- The anchor of NORM's second pass from E_g and H (R146). -/
def normAnchor (e : Int) (h : Nat) : Int := if e = -512 then 0 else 2 * e + h - 17

/-- The exact sum that a NORM result holds (R147). -/
def normSumVal (a : Int) (acc : Slot) : Rat := slotVal a acc.n

/-- SUMSQ (R147): S rounded once to FP32. -/
def sumsq32 (s : Rat) : Nat := rne32q s

/-- NORM_VALUE (R147): the square root of S, correctly rounded. -/
def norm32 (s : Rat) : Nat := sqrt32 s

/-- The step scale s and the clip of a STEP (R188): GRAD_MULT and MAX_NORM are FP32 encodings, `lsExp` the exponent in
force, `sum` the exact sum of squares. The true norm is compared and divided through its square. -/
def stepScale (gradMult maxNorm : Nat) (lsExp : Int) (sum : Rat) : Nat × Nat :=
  let base := rne32 (Num.scale (-lsExp) (f32 gradMult))
  let clip := match f32 maxNorm, f32 base with
    | .fin false m, .fin _ b =>
      let t := sum * b * b
      if 0 < m && t > m * m then sqrt32 (m * m / t) else 0x3F800000
    | .fin false m, .inf _ =>
      -- an infinite base exceeds every threshold: the quotient is 0, or no norm is true when S is 0
      if 0 < m && sum > 0 then 0 else 0x3F800000
    | _, _ => 0x3F800000
  (rne32 ((f32 base).mul (f32 clip)), clip)

end Sys2Proof.Machine
end

