-- ==== Sys2Proof/Machine/RegMap.lean ====
section
/-! DEFINITION. The register maps: every register of the chapters' maps with its address, owner and fields. -/
namespace Sys2Proof.Machine

/-- The access code of a field (R27); `act` marks a field whose write has a row of its own. -/
inductive Acc where
  | ro | rw | wo | w1c | rc | act
  deriving DecidableEq, Repr

/-- Which resource of R580 a register belongs to; `none` where it is no resource. -/
inductive Own where
  | none | jobRing | layout | fabric | ports | time | graft
  deriving DecidableEq, Repr

/-- A field of a register: its place, its access code and its reset value. -/
structure RegField where
  bits : Bits
  acc : Acc
  reset : Nat
  deriving DecidableEq, Repr

/-- A register of a map: `count` copies every `stride` bytes, and that whole run `outer` times every `step` bytes. -/
structure RegRow where
  name : String
  base : Nat
  stride : Nat
  count : Nat
  outer : Nat
  step : Nat
  width : Nat
  own : Own
  expert : Bool
  card : Bool
  fields : List RegField
  deriving DecidableEq, Repr

/-- The MSI-X table of a card: vector v has its message address, its message data and its mask bit (R398). BAR2 follows BAR0 in the
model's numbering of addresses. PRESUMED: assumption 69. -/
abbrev Reg.msixAddr (v : Nat) : Nat := 0x4000000 + 16 * v
abbrev F.msixAddr_addr : Bits := ⟨0, 64⟩
abbrev Reg.msixData (v : Nat) : Nat := 0x4000008 + 16 * v
abbrev F.msixData_data : Bits := ⟨0, 32⟩
abbrev Reg.msixCtrl (v : Nat) : Nat := 0x400000c + 16 * v
abbrev F.msixCtrl_mask : Bits := ⟨0, 1⟩
/-- The pending-bit array of a card, 64 vectors a word (R398). PRESUMED: assumption 69. -/
abbrev Reg.msixPba (n : Nat) : Nat := 0x4008000 + 8 * n
abbrev F.msixPba_pending : Bits := ⟨0, 64⟩
/-- PART_ID (R407). -/
abbrev Reg.partId : Nat := 0x0
abbrev F.partId_device : Bits := ⟨0, 16⟩
abbrev F.partId_grade : Bits := ⟨16, 2⟩
abbrev F.partId_grafted : Bits := ⟨18, 1⟩
abbrev F.partId_package : Bits := ⟨19, 1⟩
/-- STEPPING (R407). -/
abbrev Reg.stepping : Nat := 0x4
abbrev F.stepping_first : Bits := ⟨0, 8⟩
abbrev F.stepping_second : Bits := ⟨8, 8⟩
/-- BED_COUNT (R407). -/
abbrev Reg.bedCount : Nat := 0x8
abbrev F.bedCount_active : Bits := ⟨0, 10⟩
abbrev F.bedCount_spare : Bits := ⟨16, 10⟩
abbrev F.bedCount_fused : Bits := ⟨32, 10⟩
abbrev F.bedCount_retired : Bits := ⟨48, 10⟩
/-- LIFECYCLE (R409). -/
abbrev Reg.lifecycleReg : Nat := 0x10
abbrev F.lifecycleReg_state : Bits := ⟨0, 3⟩
/-- SERVICE (R409). -/
abbrev Reg.service : Nat := 0x14
abbrev F.service_seedling : Bits := ⟨0, 1⟩
abbrev F.service_storeReady : Bits := ⟨1, 1⟩
abbrev F.service_initDone : Bits := ⟨2, 1⟩
/-- EXPERT_GATE (R409). -/
abbrev Reg.expertGate : Nat := 0x18
abbrev F.expertGate_open : Bits := ⟨0, 1⟩
abbrev F.expertGate_cause : Bits := ⟨1, 1⟩
abbrev F.expertGate_close : Bits := ⟨2, 1⟩
abbrev F.expertGate_denied : Bits := ⟨16, 16⟩
/-- HEARTBEAT (R409). -/
abbrev Reg.heartbeat : Nat := 0x20
abbrev F.heartbeat_count : Bits := ⟨0, 32⟩
/-- TROUBLE_HWM (R409). -/
abbrev Reg.troubleHwm : Nat := 0x24
abbrev F.troubleHwm_hwm : Bits := ⟨0, 13⟩
/-- SURVEY_ADDR (R406). -/
abbrev Reg.surveyAddr : Nat := 0x30
abbrev F.surveyAddr_addr : Bits := ⟨0, 64⟩
/-- SURVEY_LEN (R406). -/
abbrev Reg.surveyLen : Nat := 0x38
abbrev F.surveyLen_len : Bits := ⟨0, 32⟩
/-- SURVEY_GO (R455). -/
abbrev Reg.surveyGo : Nat := 0x3c
abbrev F.surveyGo_go : Bits := ⟨0, 1⟩
/-- SURVEY_STATUS (R455). -/
abbrev Reg.surveyStatus : Nat := 0x40
abbrev F.surveyStatus_busy : Bits := ⟨0, 1⟩
abbrev F.surveyStatus_done : Bits := ⟨1, 1⟩
abbrev F.surveyStatus_short : Bits := ⟨2, 1⟩
abbrev F.surveyStatus_lost : Bits := ⟨3, 1⟩
abbrev F.surveyStatus_hostFault : Bits := ⟨4, 1⟩
/-- BED_MAP[0..15] (R408). -/
abbrev Reg.bedMapLo (n : Nat) : Nat := 0x100 + 4 * n
abbrev F.bedMapLo_states : Bits := ⟨0, 32⟩
/-- BED_MAP[16] (R408). -/
abbrev Reg.bedMapSpare : Nat := 0x140
abbrev F.bedMapSpare_states : Bits := ⟨0, 32⟩
/-- BED_MAP[17..33] (R408). -/
abbrev Reg.bedMapPeer (n : Nat) : Nat := 0x180 + 4 * n
abbrev F.bedMapPeer_states : Bits := ⟨0, 32⟩
/-- GRAFT_CTRL (R587). -/
abbrev Reg.graftCtrl : Nat := 0x200
abbrev F.graftCtrl_enable : Bits := ⟨0, 1⟩
/-- GRAFT_STATUS (R587). -/
abbrev Reg.graftStatus : Nat := 0x204
abbrev F.graftStatus_state : Bits := ⟨0, 4⟩
abbrev F.graftStatus_cause : Bits := ⟨4, 4⟩
abbrev F.graftStatus_trunksUp : Bits := ⟨8, 4⟩
abbrev F.graftStatus_endB : Bits := ⟨12, 1⟩
abbrev F.graftStatus_peerCard : Bits := ⟨13, 1⟩
/-- GRAFT_EVENTS (R587). -/
abbrev Reg.graftEvents : Nat := 0x208
abbrev F.graftEvents_split : Bits := ⟨0, 1⟩
abbrev F.graftEvents_trunkDown : Bits := ⟨1, 1⟩
abbrev F.graftEvents_refused : Bits := ⟨2, 1⟩
abbrev F.graftEvents_senseFault : Bits := ⟨3, 1⟩
/-- SELF_COORD (R587). -/
abbrev Reg.selfCoord : Nat := 0x20c
abbrev F.selfCoord_coord : Bits := ⟨0, 16⟩
/-- GRAFT_PEER (R587). -/
abbrev Reg.graftPeer : Nat := 0x210
abbrev F.graftPeer_coord : Bits := ⟨0, 16⟩
abbrev F.graftPeer_grade : Bits := ⟨16, 2⟩
abbrev F.graftPeer_stepping : Bits := ⟨18, 16⟩
abbrev F.graftPeer_lifecycle : Bits := ⟨34, 3⟩
/-- OWN_CLAIM (R586). -/
abbrev Reg.ownClaim : Nat := 0x300
abbrev F.ownClaim_resource : Bits := ⟨0, 13⟩
abbrev F.ownClaim_action : Bits := ⟨13, 1⟩
/-- OWN_RESULT (R586). -/
abbrev Reg.ownResult : Nat := 0x304
abbrev F.ownResult_resource : Bits := ⟨0, 13⟩
abbrev F.ownResult_action : Bits := ⟨13, 1⟩
abbrev F.ownResult_done : Bits := ⟨14, 1⟩
abbrev F.ownResult_status : Bits := ⟨16, 16⟩
/-- LIVE_MAP (R670). -/
abbrev Reg.liveMap (n : Nat) : Nat := 0x400 + 4 * n
abbrev F.liveMap_live : Bits := ⟨0, 32⟩
/-- LIVE_CHANGED (R670). -/
abbrev Reg.liveChanged (n : Nat) : Nat := 0x420 + 4 * n
abbrev F.liveChanged_changed : Bits := ⟨0, 32⟩
/-- LIVE_IRQ (R670). -/
abbrev Reg.liveIrq : Nat := 0x440
abbrev F.liveIrq_vector : Bits := ⟨0, 11⟩
abbrev F.liveIrq_irqEn : Bits := ⟨11, 1⟩
/-- OWNER_MAP (R586). -/
abbrev Reg.ownerMap (n : Nat) : Nat := 0x1000 + 4 * n
abbrev F.ownerMap_owners : Bits := ⟨0, 32⟩
/-- CLK_STATUS (R391). -/
abbrev Reg.clkStatus : Nat := 0x10000
abbrev F.clkStatus_refOk : Bits := ⟨0, 1⟩
abbrev F.clkStatus_rootLock : Bits := ⟨1, 1⟩
abbrev F.clkStatus_clocksRun : Bits := ⟨2, 1⟩
abbrev F.clkStatus_clockFail : Bits := ⟨3, 1⟩
/-- CLK_THROTTLE (R392). -/
abbrev Reg.clkThrottle : Nat := 0x10004
abbrev F.clkThrottle_arithCut : Bits := ⟨0, 4⟩
abbrev F.clkThrottle_threadCut : Bits := ⟨4, 4⟩
/-- GC_VALUE (R389). -/
abbrev Reg.gcValue : Nat := 0x10010
abbrev F.gcValue_value : Bits := ⟨0, 64⟩
/-- GC_LOAD (R390). -/
abbrev Reg.gcLoad : Nat := 0x10018
abbrev F.gcLoad_value : Bits := ⟨0, 64⟩
/-- TIME_CTRL (R393). -/
abbrev Reg.timeCtrl : Nat := 0x10020
abbrev F.timeCtrl_role : Bits := ⟨0, 2⟩
abbrev F.timeCtrl_upport : Bits := ⟨2, 7⟩
abbrev F.timeCtrl_upGraft : Bits := ⟨9, 1⟩
abbrev F.timeCtrl_holdStep : Bits := ⟨10, 1⟩
/-- TIME_STATUS (R394). -/
abbrev Reg.timeStatus : Nat := 0x10024
abbrev F.timeStatus_state : Bits := ⟨0, 2⟩
abbrev F.timeStatus_stepWait : Bits := ⟨2, 1⟩
abbrev F.timeStatus_hops : Bits := ⟨3, 5⟩
abbrev F.timeStatus_pending : Bits := ⟨8, 10⟩
/-- TIME_OFFSET (R389). -/
abbrev Reg.timeOffset : Nat := 0x10028
abbrev F.timeOffset_value : Bits := ⟨0, 32⟩
/-- TIME_DELAY (R389). -/
abbrev Reg.timeDelay : Nat := 0x1002c
abbrev F.timeDelay_value : Bits := ⟨0, 32⟩
/-- TIME_BOUND (R389). -/
abbrev Reg.timeBound : Nat := 0x10030
abbrev F.timeBound_value : Bits := ⟨0, 32⟩
/-- TIME_EVENTS (R395). -/
abbrev Reg.timeEvents : Nat := 0x10034
abbrev F.timeEvents_lockLost : Bits := ⟨0, 1⟩
abbrev F.timeEvents_stepped : Bits := ⟨1, 1⟩
abbrev F.timeEvents_refMismatch : Bits := ⟨2, 1⟩
abbrev F.timeEvents_loadRefused : Bits := ⟨3, 1⟩
abbrev F.timeEvents_upNotReady : Bits := ⟨4, 1⟩
/-- TICK_OUT_CTRL (R396). -/
abbrev Reg.tickOutCtrl : Nat := 0x10040
abbrev F.tickOutCtrl_period : Bits := ⟨0, 5⟩
abbrev F.tickOutCtrl_enable : Bits := ⟨5, 1⟩
abbrev F.tickOutCtrl_held : Bits := ⟨6, 1⟩
/-- PART_RESET (R410). -/
abbrev Reg.partReset : Nat := 0x10100
abbrev F.partReset_value : Bits := ⟨0, 16⟩
/-- TIME_ASYM (R389). -/
abbrev Reg.timeAsym (n : Nat) : Nat := 0x10200 + 4 * n
abbrev F.timeAsym_value : Bits := ⟨0, 32⟩
/-- TAP_STATUS (R411). -/
abbrev Reg.tapStatus : Nat := 0x20000
abbrev F.tapStatus_linkUp : Bits := ⟨0, 1⟩
abbrev F.tapStatus_pcieGen : Bits := ⟨1, 3⟩
abbrev F.tapStatus_pcieWidth : Bits := ⟨4, 5⟩
abbrev F.tapStatus_flit : Bits := ⟨9, 1⟩
abbrev F.tapStatus_d3hot : Bits := ⟨10, 1⟩
/-- TAP_EVENTS (R411). -/
abbrev Reg.tapEvents : Nat := 0x20004
abbrev F.tapEvents_linkDown : Bits := ⟨0, 1⟩
abbrev F.tapEvents_hostReadErr : Bits := ⟨1, 1⟩
abbrev F.tapEvents_badAccess : Bits := ⟨2, 1⟩
abbrev F.tapEvents_notOwnerWrite : Bits := ⟨3, 1⟩
/-- TAP_RETRY (R411). -/
abbrev Reg.tapRetry : Nat := 0x20008
abbrev F.tapRetry_count : Bits := ⟨0, 32⟩
/-- TAP_FEC_CORR (R411). -/
abbrev Reg.tapFecCorr : Nat := 0x2000c
abbrev F.tapFecCorr_count : Bits := ⟨0, 32⟩
/-- TAP_FEC_UNCORR (R411). -/
abbrev Reg.tapFecUncorr : Nat := 0x20010
abbrev F.tapFecUncorr_count : Bits := ⟨0, 32⟩
/-- CMD_BASE (R413). -/
abbrev Reg.cmdBase (n : Nat) : Nat := 0x100000 + 64 * n
abbrev F.cmdBase_addr : Bits := ⟨0, 64⟩
/-- CPL_BASE (R413). -/
abbrev Reg.cplBase (n : Nat) : Nat := 0x100008 + 64 * n
abbrev F.cplBase_addr : Bits := ⟨0, 64⟩
/-- RING_CTRL (R414). -/
abbrev Reg.ringCtrl (n : Nat) : Nat := 0x100010 + 64 * n
abbrev F.ringCtrl_enable : Bits := ⟨0, 1⟩
abbrev F.ringCtrl_log2Size : Bits := ⟨1, 4⟩
abbrev F.ringCtrl_jobId : Bits := ⟨5, 12⟩
abbrev F.ringCtrl_fabric : Bits := ⟨17, 1⟩
abbrev F.ringCtrl_window : Bits := ⟨18, 8⟩
/-- RING_STATUS (R414). -/
abbrev Reg.ringStatus (n : Nat) : Nat := 0x100014 + 64 * n
abbrev F.ringStatus_state : Bits := ⟨0, 2⟩
abbrev F.ringStatus_cause : Bits := ⟨2, 4⟩
abbrev F.ringStatus_cfgIgnored : Bits := ⟨6, 1⟩
/-- CMD_HEAD (R414). -/
abbrev Reg.cmdHead (n : Nat) : Nat := 0x100018 + 64 * n
abbrev F.cmdHead_value : Bits := ⟨0, 32⟩
/-- CPL_TAIL (R414). -/
abbrev Reg.cplTail (n : Nat) : Nat := 0x10001c + 64 * n
abbrev F.cplTail_value : Bits := ⟨0, 32⟩
/-- RING_IRQ (R414). -/
abbrev Reg.ringIrq (n : Nat) : Nat := 0x100020 + 64 * n
abbrev F.ringIrq_vector : Bits := ⟨0, 11⟩
abbrev F.ringIrq_irqEn : Bits := ⟨11, 1⟩
abbrev F.ringIrq_count : Bits := ⟨12, 8⟩
abbrev F.ringIrq_delay : Bits := ⟨20, 12⟩
/-- ACCEPTED (R414). -/
abbrev Reg.accepted (n : Nat) : Nat := 0x100024 + 64 * n
abbrev F.accepted_count : Bits := ⟨0, 32⟩
/-- DOORBELL (R419). -/
abbrev Reg.doorbell (n : Nat) : Nat := 0x200000 + 8 * n
abbrev F.doorbell_cmdTail : Bits := ⟨0, 32⟩
abbrev F.doorbell_cplHead : Bits := ⟨32, 32⟩
/-- LAYOUT_SEL (R451). -/
abbrev Reg.layoutSel : Nat := 0x380000
abbrev F.layoutSel_jobId : Bits := ⟨0, 12⟩
abbrev F.layoutSel_layout : Bits := ⟨12, 3⟩
/-- LAYOUT_COMMIT (R451). -/
abbrev Reg.layoutCommit : Nat := 0x380004
abbrev F.layoutCommit_runs : Bits := ⟨0, 10⟩
/-- LAYOUT_STATUS (R451). -/
abbrev Reg.layoutStatus : Nat := 0x380008
abbrev F.layoutStatus_valid : Bits := ⟨0, 1⟩
abbrev F.layoutStatus_refused : Bits := ⟨1, 1⟩
abbrev F.layoutStatus_cause : Bits := ⟨2, 3⟩
abbrev F.layoutStatus_members : Bits := ⟨5, 21⟩
/-- LAYOUT_RUN (R452). -/
abbrev Reg.layoutRun (n : Nat) : Nat := 0x381000 + 8 * n
abbrev F.layoutRun_memberBase : Bits := ⟨0, 20⟩
abbrev F.layoutRun_count : Bits := ⟨20, 8⟩
abbrev F.layoutRun_package : Bits := ⟨28, 16⟩
abbrev F.layoutRun_firstPort : Bits := ⟨44, 7⟩
/-- ROUTE_STATUS (R564). -/
abbrev Reg.routeStatus : Nat := 0x400000
abbrev F.routeStatus_active : Bits := ⟨0, 1⟩
abbrev F.routeStatus_staged : Bits := ⟨1, 1⟩
abbrev F.routeStatus_writing : Bits := ⟨2, 1⟩
/-- HASH_SEED (R564). -/
abbrev Reg.hashSeed : Nat := 0x400008
abbrev F.hashSeed_seed : Bits := ⟨0, 64⟩
/-- SCHED_STATUS (R564). -/
abbrev Reg.schedStatus : Nat := 0x400010
abbrev F.schedStatus_bank : Bits := ⟨0, 1⟩
abbrev F.schedStatus_inForce : Bits := ⟨1, 1⟩
abbrev F.schedStatus_pending : Bits := ⟨2, 1⟩
abbrev F.schedStatus_slot : Bits := ⟨3, 12⟩
/-- SCHED_START (R563). -/
abbrev Reg.schedStart : Nat := 0x400018
abbrev F.schedStart_value : Bits := ⟨0, 64⟩
/-- TELEM_CTRL (R564). -/
abbrev Reg.telemCtrl : Nat := 0x400020
abbrev F.telemCtrl_enable : Bits := ⟨0, 1⟩
abbrev F.telemCtrl_host : Bits := ⟨1, 1⟩
abbrev F.telemCtrl_held : Bits := ⟨2, 1⟩
abbrev F.telemCtrl_tlog2 : Bits := ⟨3, 4⟩
/-- TELEM_SEQ (R563). -/
abbrev Reg.telemSeq : Nat := 0x400024
abbrev F.telemSeq_value : Bits := ⟨0, 32⟩
/-- TELEM_BASE (R563). -/
abbrev Reg.telemBase : Nat := 0x400028
abbrev F.telemBase_addr : Bits := ⟨0, 64⟩
/-- TELEM_DEST (R563). -/
abbrev Reg.telemDest : Nat := 0x400030
abbrev F.telemDest_coord : Bits := ⟨0, 23⟩
abbrev F.telemDest_en : Bits := ⟨23, 1⟩
/-- POOL_STATUS[d][0] (R564). -/
abbrev Reg.poolStatus0 (n : Nat) : Nat := 0x400100 + 32 * n
abbrev F.poolStatus0_free : Bits := ⟨0, 18⟩
abbrev F.poolStatus0_oldest : Bits := ⟨18, 14⟩
/-- POOL_STATUS[d][1] (R564). -/
abbrev Reg.poolStatus1 (n : Nat) : Nat := 0x400104 + 32 * n
abbrev F.poolStatus1_free : Bits := ⟨0, 18⟩
abbrev F.poolStatus1_oldest : Bits := ⟨18, 14⟩
/-- POOL_STATUS[d][2] (R564). -/
abbrev Reg.poolStatus2 (n : Nat) : Nat := 0x400108 + 32 * n
abbrev F.poolStatus2_free : Bits := ⟨0, 18⟩
abbrev F.poolStatus2_oldest : Bits := ⟨18, 14⟩
/-- POOL_STATUS[d][3] (R564). -/
abbrev Reg.poolStatus3 (n : Nat) : Nat := 0x40010c + 32 * n
abbrev F.poolStatus3_free : Bits := ⟨0, 18⟩
abbrev F.poolStatus3_oldest : Bits := ⟨18, 14⟩
/-- POOL_STATUS[d][4] (R564). -/
abbrev Reg.poolStatus4 (n : Nat) : Nat := 0x400110 + 32 * n
abbrev F.poolStatus4_free : Bits := ⟨0, 18⟩
abbrev F.poolStatus4_oldest : Bits := ⟨18, 14⟩
/-- POOL_STATUS[d][5] (R564). -/
abbrev Reg.poolStatus5 (n : Nat) : Nat := 0x400114 + 32 * n
abbrev F.poolStatus5_free : Bits := ⟨0, 18⟩
abbrev F.poolStatus5_oldest : Bits := ⟨18, 14⟩
/-- POOL_ERRORS[d] (R563). -/
abbrev Reg.poolErrors (n : Nat) : Nat := 0x400180 + 4 * n
abbrev F.poolErrors_count : Bits := ⟨0, 32⟩
/-- POOL_WAITS[d] (R563). -/
abbrev Reg.poolWaits (n : Nat) : Nat := 0x400190 + 4 * n
abbrev F.poolWaits_count : Bits := ⟨0, 32⟩
/-- MIR_BASE (R563). -/
abbrev Reg.mirBase (n : Nat) : Nat := 0x400400 + 64 * n
abbrev F.mirBase_addr : Bits := ⟨0, 64⟩
/-- MIR_FILTER (R564). -/
abbrev Reg.mirFilter (n : Nat) : Nat := 0x400408 + 64 * n
abbrev F.mirFilter_inPort : Bits := ⟨0, 9⟩
abbrev F.mirFilter_outPort : Bits := ⟨9, 9⟩
abbrev F.mirFilter_classes : Bits := ⟨18, 4⟩
abbrev F.mirFilter_events : Bits := ⟨22, 3⟩
abbrev F.mirFilter_job : Bits := ⟨25, 12⟩
abbrev F.mirFilter_jobEn : Bits := ⟨37, 1⟩
abbrev F.mirFilter_types : Bits := ⟨38, 16⟩
abbrev F.mirFilter_sampleLog2 : Bits := ⟨54, 4⟩
/-- MIR_CTRL (R564). -/
abbrev Reg.mirCtrl (n : Nat) : Nat := 0x400410 + 64 * n
abbrev F.mirCtrl_enable : Bits := ⟨0, 1⟩
abbrev F.mirCtrl_bank : Bits := ⟨1, 2⟩
abbrev F.mirCtrl_held : Bits := ⟨3, 1⟩
abbrev F.mirCtrl_log2Size : Bits := ⟨4, 5⟩
abbrev F.mirCtrl_vector : Bits := ⟨9, 11⟩
abbrev F.mirCtrl_irqEn : Bits := ⟨20, 1⟩
/-- MIR_TAIL (R563). -/
abbrev Reg.mirTail (n : Nat) : Nat := 0x400414 + 64 * n
abbrev F.mirTail_value : Bits := ⟨0, 32⟩
/-- MIR_HEAD (R563). -/
abbrev Reg.mirHead (n : Nat) : Nat := 0x400418 + 64 * n
abbrev F.mirHead_value : Bits := ⟨0, 32⟩
/-- MIR_LOST (R563). -/
abbrev Reg.mirLost (n : Nat) : Nat := 0x40041c + 64 * n
abbrev F.mirLost_count : Bits := ⟨0, 32⟩
/-- SHAPE[1] (R564). -/
abbrev Reg.shape1 (n : Nat) : Nat := 0x401000 + 64 * n
abbrev F.shape1_rate : Bits := ⟨0, 16⟩
abbrev F.shape1_burst : Bits := ⟨16, 16⟩
/-- SHAPE[2] (R564). -/
abbrev Reg.shape2 (n : Nat) : Nat := 0x401004 + 64 * n
abbrev F.shape2_rate : Bits := ⟨0, 16⟩
abbrev F.shape2_burst : Bits := ⟨16, 16⟩
/-- SHAPE[3] (R564). -/
abbrev Reg.shape3 (n : Nat) : Nat := 0x401008 + 64 * n
abbrev F.shape3_rate : Bits := ⟨0, 16⟩
abbrev F.shape3_burst : Bits := ⟨16, 16⟩
/-- POLICE[1] (R564). -/
abbrev Reg.police1 (n : Nat) : Nat := 0x40100c + 64 * n
abbrev F.police1_rate : Bits := ⟨0, 16⟩
abbrev F.police1_burst : Bits := ⟨16, 16⟩
/-- POLICE[2] (R564). -/
abbrev Reg.police2 (n : Nat) : Nat := 0x401010 + 64 * n
abbrev F.police2_rate : Bits := ⟨0, 16⟩
abbrev F.police2_burst : Bits := ⟨16, 16⟩
/-- POLICE[3] (R564). -/
abbrev Reg.police3 (n : Nat) : Nat := 0x401014 + 64 * n
abbrev F.police3_rate : Bits := ⟨0, 16⟩
abbrev F.police3_burst : Bits := ⟨16, 16⟩
/-- MARK_DEPTH (R564). -/
abbrev Reg.markDepth (n : Nat) : Nat := 0x401018 + 64 * n
abbrev F.markDepth_depth1 : Bits := ⟨0, 10⟩
abbrev F.markDepth_depth2 : Bits := ⟨10, 10⟩
abbrev F.markDepth_depth3 : Bits := ⟨20, 10⟩
/-- WEIGHTS (R564). -/
abbrev Reg.weights (n : Nat) : Nat := 0x40101c + 64 * n
abbrev F.weights_normal : Bits := ⟨0, 8⟩
abbrev F.weights_deferred : Bits := ⟨8, 8⟩
/-- CELLS_IN (R563). -/
abbrev Reg.cellsIn (n : Nat) : Nat := 0x404000 + 64 * n
abbrev F.cellsIn_count : Bits := ⟨0, 32⟩
/-- CELLS_OUT (R563). -/
abbrev Reg.cellsOut (n : Nat) : Nat := 0x404004 + 64 * n
abbrev F.cellsOut_count : Bits := ⟨0, 32⟩
/-- POLICED (R563). -/
abbrev Reg.policed (n : Nat) : Nat := 0x404008 + 64 * n
abbrev F.policed_count : Bits := ⟨0, 32⟩
/-- MARKED (R563). -/
abbrev Reg.marked (n : Nat) : Nat := 0x40400c + 64 * n
abbrev F.marked_count : Bits := ⟨0, 32⟩
/-- NO_ROUTE (R563). -/
abbrev Reg.noRoute (n : Nat) : Nat := 0x404010 + 64 * n
abbrev F.noRoute_count : Bits := ⟨0, 32⟩
/-- FENCE_IN (R563). -/
abbrev Reg.fenceIn (n : Nat) : Nat := 0x404014 + 64 * n
abbrev F.fenceIn_count : Bits := ⟨0, 32⟩
/-- FENCE_DROP (R563). -/
abbrev Reg.fenceDrop (n : Nat) : Nat := 0x404018 + 64 * n
abbrev F.fenceDrop_count : Bits := ⟨0, 32⟩
/-- DOWN_DROP (R563). -/
abbrev Reg.downDrop (n : Nat) : Nat := 0x40401c + 64 * n
abbrev F.downDrop_count : Bits := ⟨0, 32⟩
/-- SCHED_ORPHAN (R563). -/
abbrev Reg.schedOrphan (n : Nat) : Nat := 0x404020 + 64 * n
abbrev F.schedOrphan_count : Bits := ⟨0, 32⟩
/-- BAD_TYPE (R563). -/
abbrev Reg.badType (n : Nat) : Nat := 0x404024 + 64 * n
abbrev F.badType_count : Bits := ⟨0, 32⟩
/-- BAD_CELL (R563). -/
abbrev Reg.badCell (n : Nat) : Nat := 0x404028 + 64 * n
abbrev F.badCell_count : Bits := ⟨0, 32⟩
/-- EPOCH_DROP (R563). -/
abbrev Reg.epochDrop (n : Nat) : Nat := 0x40402c + 64 * n
abbrev F.epochDrop_count : Bits := ⟨0, 32⟩
/-- BAD_JOB (R563). -/
abbrev Reg.badJob (n : Nat) : Nat := 0x404030 + 64 * n
abbrev F.badJob_count : Bits := ⟨0, 32⟩
/-- SCHED_NONE (R563). -/
abbrev Reg.schedNone (n : Nat) : Nat := 0x404034 + 64 * n
abbrev F.schedNone_count : Bits := ⟨0, 32⟩
/-- PORT_GROUP (R503). -/
abbrev Reg.portGroup (n : Nat) : Nat := 0x500000 + 64 * n
abbrev F.portGroup_firstLane : Bits := ⟨0, 9⟩
abbrev F.portGroup_width : Bits := ⟨9, 2⟩
abbrev F.portGroup_allowNarrow : Bits := ⟨11, 1⟩
/-- PORT_CTRL (R503). -/
abbrev Reg.portCtrl (n : Nat) : Nat := 0x500004 + 64 * n
abbrev F.portCtrl_enable : Bits := ⟨0, 1⟩
abbrev F.portCtrl_retrain : Bits := ⟨1, 1⟩
/-- PORT_STATUS (R503). -/
abbrev Reg.portStatus (n : Nat) : Nat := 0x500008 + 64 * n
abbrev F.portStatus_state : Bits := ⟨0, 3⟩
abbrev F.portStatus_cause : Bits := ⟨3, 4⟩
abbrev F.portStatus_activeWidth : Bits := ⟨7, 2⟩
abbrev F.portStatus_rate : Bits := ⟨9, 2⟩
abbrev F.portStatus_fullRateWait : Bits := ⟨11, 1⟩
abbrev F.portStatus_tries : Bits := ⟨12, 4⟩
/-- PORT_EVENTS (R503). -/
abbrev Reg.portEvents (n : Nat) : Nat := 0x50000c + 64 * n
abbrev F.portEvents_linkDown : Bits := ⟨0, 1⟩
abbrev F.portEvents_retrained : Bits := ⟨1, 1⟩
abbrev F.portEvents_polarityFixed : Bits := ⟨2, 1⟩
abbrev F.portEvents_orderFixed : Bits := ⟨3, 1⟩
abbrev F.portEvents_narrowed : Bits := ⟨4, 1⟩
abbrev F.portEvents_creditOverrun : Bits := ⟨5, 1⟩
/-- PORT_CREDIT (R502). -/
abbrev Reg.portCredit (n : Nat) : Nat := 0x500010 + 64 * n
abbrev F.portCredit_credit : Bits := ⟨0, 64⟩
/-- PORT_FAR (R502). -/
abbrev Reg.portFar (n : Nat) : Nat := 0x500018 + 64 * n
abbrev F.portFar_deviceKind : Bits := ⟨0, 2⟩
abbrev F.portFar_vendor : Bits := ⟨2, 16⟩
abbrev F.portFar_coord : Bits := ⟨18, 16⟩
abbrev F.portFar_port : Bits := ⟨34, 7⟩
/-- PORT_RETRY (R502). -/
abbrev Reg.portRetry (n : Nat) : Nat := 0x500020 + 64 * n
abbrev F.portRetry_count : Bits := ⟨0, 32⟩
/-- PORT_CRC_ERR (R502). -/
abbrev Reg.portCrcErr (n : Nat) : Nat := 0x500024 + 64 * n
abbrev F.portCrcErr_count : Bits := ⟨0, 32⟩
/-- PORT_DROPPED (R502). -/
abbrev Reg.portDropped (n : Nat) : Nat := 0x500028 + 64 * n
abbrev F.portDropped_count : Bits := ⟨0, 32⟩
/-- PORT_DOWNS (R502). -/
abbrev Reg.portDowns (n : Nat) : Nat := 0x50002c + 64 * n
abbrev F.portDowns_count : Bits := ⟨0, 32⟩
/-- PORT_RETRAINS (R502). -/
abbrev Reg.portRetrains (n : Nat) : Nat := 0x500030 + 64 * n
abbrev F.portRetrains_count : Bits := ⟨0, 32⟩
/-- LANE_STATUS (R503). -/
abbrev Reg.laneStatus (n : Nat) : Nat := 0x510000 + 64 * n
abbrev F.laneStatus_stage : Bits := ⟨0, 3⟩
abbrev F.laneStatus_fault : Bits := ⟨3, 3⟩
abbrev F.laneStatus_polInv : Bits := ⟨6, 1⟩
abbrev F.laneStatus_logical : Bits := ⟨7, 3⟩
abbrev F.laneStatus_inUse : Bits := ⟨10, 1⟩
abbrev F.laneStatus_dfeSat : Bits := ⟨11, 1⟩
/-- LANE_EVENTS (R503). -/
abbrev Reg.laneEvents (n : Nat) : Nat := 0x510004 + 64 * n
abbrev F.laneEvents_faultSeen : Bits := ⟨0, 1⟩
abbrev F.laneEvents_lockLost : Bits := ⟨1, 1⟩
/-- LANE_FEC_SYM (R502). -/
abbrev Reg.laneFecSym (n : Nat) : Nat := 0x510008 + 64 * n
abbrev F.laneFecSym_count : Bits := ⟨0, 32⟩
/-- LANE_FEC_CW (R502). -/
abbrev Reg.laneFecCw (n : Nat) : Nat := 0x51000c + 64 * n
abbrev F.laneFecCw_count : Bits := ⟨0, 32⟩
/-- LANE_FEC_UNC (R502). -/
abbrev Reg.laneFecUnc (n : Nat) : Nat := 0x510010 + 64 * n
abbrev F.laneFecUnc_count : Bits := ⟨0, 32⟩
/-- LANE_EYE (R502). -/
abbrev Reg.laneEye (n : Nat) : Nat := 0x510014 + 64 * n
abbrev F.laneEye_height : Bits := ⟨0, 10⟩
abbrev F.laneEye_width : Bits := ⟨16, 10⟩
/-- STORE_STATUS (R700). -/
abbrev Reg.storeStatus : Nat := 0x600000
abbrev F.storeStatus_wipeDone : Bits := ⟨0, 1⟩
abbrev F.storeStatus_storeDies : Bits := ⟨1, 8⟩
abbrev F.storeStatus_lostLines : Bits := ⟨9, 13⟩
/-- SCRUB_PASSES (R700). -/
abbrev Reg.scrubPasses : Nat := 0x600004
abbrev F.scrubPasses_passes : Bits := ⟨0, 32⟩
/-- STACK_STATUS (R700). -/
abbrev Reg.stackStatus (n : Nat) : Nat := 0x600100 + 4 * n
abbrev F.stackStatus_state : Bits := ⟨0, 2⟩
abbrev F.stackStatus_refresh2x : Bits := ⟨2, 1⟩
abbrev F.stackStatus_trainRetries : Bits := ⟨3, 8⟩
/-- STACK_CNT.RD_LINES (R700). -/
abbrev Reg.stackRdLines (n : Nat) : Nat := 0x600200 + 32 * n
abbrev F.stackRdLines_count : Bits := ⟨0, 64⟩
/-- STACK_CNT.WR_LINES (R700). -/
abbrev Reg.stackWrLines (n : Nat) : Nat := 0x600208 + 32 * n
abbrev F.stackWrLines_count : Bits := ⟨0, 64⟩
/-- STACK_CNT.TURN_CYC (R700). -/
abbrev Reg.stackTurnCyc (n : Nat) : Nat := 0x600210 + 32 * n
abbrev F.stackTurnCyc_count : Bits := ⟨0, 32⟩
/-- STACK_CNT.BANK_CYC (R700). -/
abbrev Reg.stackBankCyc (n : Nat) : Nat := 0x600214 + 32 * n
abbrev F.stackBankCyc_count : Bits := ⟨0, 32⟩
/-- STACK_CNT.REFRESH_CYC (R700). -/
abbrev Reg.stackRefreshCyc (n : Nat) : Nat := 0x600218 + 32 * n
abbrev F.stackRefreshCyc_count : Bits := ⟨0, 32⟩
/-- SHED_STATUS (R598). -/
abbrev Reg.shedStatus : Nat := 0x700000
abbrev F.shedStatus_bootState : Bits := ⟨0, 2⟩
abbrev F.shedStatus_recordUsed : Bits := ⟨2, 1⟩
abbrev F.shedStatus_bootBist : Bits := ⟨3, 1⟩
abbrev F.shedStatus_throttleCause : Bits := ⟨4, 4⟩
abbrev F.shedStatus_quiesced : Bits := ⟨8, 1⟩
/-- SHED_EVENTS (R598). -/
abbrev Reg.shedEvents : Nat := 0x700004
abbrev F.shedEvents_restarted : Bits := ⟨0, 1⟩
abbrev F.shedEvents_inletHigh : Bits := ⟨1, 1⟩
abbrev F.shedEvents_throttled : Bits := ⟨2, 1⟩
abbrev F.shedEvents_logLost : Bits := ⟨3, 1⟩
abbrev F.shedEvents_healthAlert : Bits := ⟨4, 1⟩
abbrev F.shedEvents_sliceFail : Bits := ⟨5, 1⟩
abbrev F.shedEvents_repaired : Bits := ⟨6, 1⟩
abbrev F.shedEvents_railFault : Bits := ⟨7, 1⟩
/-- MBX_REQ_ADDR (R597). -/
abbrev Reg.mbxReqAddr : Nat := 0x700010
abbrev F.mbxReqAddr_addr : Bits := ⟨0, 64⟩
/-- MBX_RESP_ADDR (R597). -/
abbrev Reg.mbxRespAddr : Nat := 0x700018
abbrev F.mbxRespAddr_addr : Bits := ⟨0, 64⟩
/-- MBX_RESP_LEN (R597). -/
abbrev Reg.mbxRespLen : Nat := 0x700020
abbrev F.mbxRespLen_len : Bits := ⟨0, 32⟩
/-- MBX_GO (R597). -/
abbrev Reg.mbxGo : Nat := 0x700024
abbrev F.mbxGo_go : Bits := ⟨0, 1⟩
/-- MBX_STATUS (R598). -/
abbrev Reg.mbxStatus : Nat := 0x700028
abbrev F.mbxStatus_busy : Bits := ⟨0, 1⟩
abbrev F.mbxStatus_done : Bits := ⟨1, 1⟩
abbrev F.mbxStatus_lost : Bits := ⟨2, 1⟩
abbrev F.mbxStatus_hostFault : Bits := ⟨3, 1⟩
/-- POWER_NOW (R597). -/
abbrev Reg.powerNow : Nat := 0x700030
abbrev F.powerNow_watts : Bits := ⟨0, 12⟩
/-- COOLANT_IN (R598). -/
abbrev Reg.coolantIn : Nat := 0x700034
abbrev F.coolantIn_value : Bits := ⟨0, 12⟩
abbrev F.coolantIn_valid : Bits := ⟨12, 1⟩
/-- POWER_CAP (R597). -/
abbrev Reg.powerCap : Nat := 0x700038
abbrev F.powerCap_watts : Bits := ⟨0, 12⟩
/-- TEMP (R598). -/
abbrev Reg.temp (n : Nat) : Nat := 0x700100 + 4 * n
abbrev F.temp_value : Bits := ⟨0, 12⟩
abbrev F.temp_valid : Bits := ⟨12, 1⟩
/-- HBM_TEMP (R598). -/
abbrev Reg.hbmTemp (n : Nat) : Nat := 0x700220 + 4 * n
abbrev F.hbmTemp_value : Bits := ⟨0, 12⟩
abbrev F.hbmTemp_valid : Bits := ⟨12, 1⟩
/-- SLICE_CTRL (R598). -/
abbrev Reg.sliceCtrl : Nat := 0x700400
abbrev F.sliceCtrl_periodic : Bits := ⟨0, 1⟩
abbrev F.sliceCtrl_intervalLog2 : Bits := ⟨1, 5⟩
abbrev F.sliceCtrl_beds : Bits := ⟨6, 1⟩
abbrev F.sliceCtrl_pcs : Bits := ⟨7, 1⟩
/-- SLICE_STATUS (R598). -/
abbrev Reg.sliceStatus : Nat := 0x700404
abbrev F.sliceStatus_doneCount : Bits := ⟨0, 16⟩
abbrev F.sliceStatus_failCount : Bits := ⟨16, 16⟩
/-- DBG_CLK_CTRL (R598). -/
abbrev Reg.dbgClkCtrl : Nat := 0x700410
abbrev F.dbgClkCtrl_sel : Bits := ⟨0, 3⟩
abbrev F.dbgClkCtrl_enable : Bits := ⟨3, 1⟩
abbrev F.dbgClkCtrl_held : Bits := ⟨4, 1⟩
/-- RES_OWNER (R598). -/
abbrev Reg.resOwner (n : Nat) : Nat := 0x700800 + 4 * n
abbrev F.resOwner_user : Bits := ⟨0, 5⟩
/-- PPR_CTRL (R648). -/
abbrev Reg.pprCtrl (n : Nat) : Nat := 0x1900000 + 262144 * n
abbrev F.pprCtrl_pc : Bits := ⟨0, 5⟩
abbrev F.pprCtrl_hard : Bits := ⟨5, 1⟩
abbrev F.pprCtrl_go : Bits := ⟨6, 1⟩
/-- PPR_ADDR (R648). -/
abbrev Reg.pprAddr (n : Nat) : Nat := 0x1900004 + 262144 * n
abbrev F.pprAddr_bank : Bits := ⟨0, 4⟩
abbrev F.pprAddr_bankGroup : Bits := ⟨4, 2⟩
abbrev F.pprAddr_row : Bits := ⟨6, 16⟩
/-- PPR_STATUS (R648). -/
abbrev Reg.pprStatus (n : Nat) : Nat := 0x1900008 + 262144 * n
abbrev F.pprStatus_busy : Bits := ⟨0, 1⟩
abbrev F.pprStatus_done : Bits := ⟨1, 1⟩
abbrev F.pprStatus_fail : Bits := ⟨2, 1⟩
abbrev F.pprStatus_refused : Bits := ⟨3, 1⟩
abbrev F.pprStatus_left : Bits := ⟨4, 8⟩
/-- MR_SEL (R701). -/
abbrev Reg.mrSel (n : Nat) : Nat := 0x1900100 + 262144 * n
abbrev F.mrSel_channel : Bits := ⟨0, 4⟩
abbrev F.mrSel_mr : Bits := ⟨4, 4⟩
/-- MR_DATA (R701). -/
abbrev Reg.mrData (n : Nat) : Nat := 0x1900104 + 262144 * n
abbrev F.mrData_value : Bits := ⟨0, 8⟩
abbrev F.mrData_valid : Bits := ⟨8, 1⟩
/-- LX_CTRL (R505). -/
abbrev Reg.lxCtrl (n : Nat) : Nat := 0x1f00080 + 4096 * n
abbrev F.lxCtrl_freeze : Bits := ⟨0, 1⟩
abbrev F.lxCtrl_loopback : Bits := ⟨1, 1⟩
abbrev F.lxCtrl_prbsGen : Bits := ⟨2, 1⟩
abbrev F.lxCtrl_prbsChk : Bits := ⟨3, 1⟩
/-- LX_PRBS_ERR (R505). -/
abbrev Reg.lxPrbsErr (n : Nat) : Nat := 0x1f00084 + 4096 * n
abbrev F.lxPrbsErr_count : Bits := ⟨0, 32⟩
/-- LX_TXEQ (R505). -/
abbrev Reg.lxTxeq (n : Nat) : Nat := 0x1f00088 + 4096 * n
abbrev F.lxTxeq_coef : Bits := ⟨0, 30⟩
/-- LX_DFE (R505). -/
abbrev Reg.lxDfe (n : Nat) (k : Nat) : Nat := 0x1f00000 + 4 * n + 4096 * k
abbrev F.lxDfe_tap : Bits := ⟨0, 32⟩
/-- REMAP (R648). -/
abbrev Reg.remap (n : Nat) (k : Nat) : Nat := 0x1910000 + 4 * n + 262144 * k
abbrev F.remap_rowAddr : Bits := ⟨0, 22⟩
abbrev F.remap_valid : Bits := ⟨31, 1⟩

/-- Rows of the register maps, part 0. -/
def regRows0 : List RegRow :=
  [
    ⟨"PART_ID", 0x0, 0, 1, 1, 0, 32, .none, false, false, [⟨⟨0, 16⟩, .ro, 38436⟩, ⟨⟨16, 2⟩, .ro, 0⟩, ⟨⟨18, 1⟩, .ro, 0⟩, ⟨⟨19, 1⟩, .ro, 0⟩]⟩,
    ⟨"STEPPING", 0x4, 0, 1, 1, 0, 32, .none, false, false, [⟨⟨0, 8⟩, .ro, 65⟩, ⟨⟨8, 8⟩, .ro, 66⟩]⟩,
    ⟨"BED_COUNT", 0x8, 0, 1, 1, 0, 64, .none, false, false, [⟨⟨0, 10⟩, .ro, 256⟩, ⟨⟨16, 10⟩, .ro, 16⟩, ⟨⟨32, 10⟩, .ro, 0⟩, ⟨⟨48, 10⟩, .ro, 0⟩]⟩,
    ⟨"LIFECYCLE", 0x10, 0, 1, 1, 0, 32, .none, false, false, [⟨⟨0, 3⟩, .ro, 2⟩]⟩,
    ⟨"SERVICE", 0x14, 0, 1, 1, 0, 32, .none, false, false, [⟨⟨0, 1⟩, .ro, 1⟩, ⟨⟨1, 1⟩, .ro, 0⟩, ⟨⟨2, 1⟩, .act, 0⟩]⟩,
    ⟨"EXPERT_GATE", 0x18, 0, 1, 1, 0, 32, .none, false, false, [⟨⟨0, 1⟩, .ro, 1⟩, ⟨⟨1, 1⟩, .ro, 0⟩, ⟨⟨2, 1⟩, .act, 0⟩, ⟨⟨16, 16⟩, .ro, 0⟩]⟩,
    ⟨"HEARTBEAT", 0x20, 0, 1, 1, 0, 32, .none, false, false, [⟨⟨0, 32⟩, .ro, 0⟩]⟩,
    ⟨"TROUBLE_HWM", 0x24, 0, 1, 1, 0, 32, .none, false, false, [⟨⟨0, 13⟩, .ro, 0⟩]⟩,
    ⟨"SURVEY_ADDR", 0x30, 0, 1, 1, 0, 64, .none, false, false, [⟨⟨0, 64⟩, .rw, 0⟩]⟩,
    ⟨"SURVEY_LEN", 0x38, 0, 1, 1, 0, 32, .none, false, false, [⟨⟨0, 32⟩, .rw, 0⟩]⟩,
    ⟨"SURVEY_GO", 0x3c, 0, 1, 1, 0, 32, .none, false, false, [⟨⟨0, 1⟩, .act, 0⟩]⟩,
    ⟨"SURVEY_STATUS", 0x40, 0, 1, 1, 0, 32, .none, false, false, [⟨⟨0, 1⟩, .ro, 0⟩, ⟨⟨1, 1⟩, .w1c, 0⟩, ⟨⟨2, 1⟩, .w1c, 0⟩, ⟨⟨3, 1⟩, .w1c, 0⟩, ⟨⟨4, 1⟩, .w1c, 0⟩]⟩]

/-- Rows of the register maps, part 1. -/
def regRows1 : List RegRow :=
  [
    ⟨"BED_MAP[0..15]", 0x100, 4, 16, 1, 0, 32, .none, false, false, [⟨⟨0, 32⟩, .ro, 0⟩]⟩,
    ⟨"BED_MAP[16]", 0x140, 4, 1, 1, 0, 32, .none, false, false, [⟨⟨0, 32⟩, .ro, 1431655765⟩]⟩,
    ⟨"BED_MAP[17..33]", 0x180, 4, 17, 1, 0, 32, .none, false, false, [⟨⟨0, 32⟩, .ro, 0⟩]⟩,
    ⟨"GRAFT_CTRL", 0x200, 0, 1, 1, 0, 32, .graft, false, false, [⟨⟨0, 1⟩, .rw, 1⟩]⟩,
    ⟨"GRAFT_STATUS", 0x204, 0, 1, 1, 0, 32, .none, false, false, [⟨⟨0, 4⟩, .ro, 1⟩, ⟨⟨4, 4⟩, .ro, 0⟩, ⟨⟨8, 4⟩, .ro, 0⟩, ⟨⟨12, 1⟩, .ro, 0⟩, ⟨⟨13, 1⟩, .ro, 0⟩]⟩,
    ⟨"GRAFT_EVENTS", 0x208, 0, 1, 1, 0, 32, .none, false, false, [⟨⟨0, 1⟩, .w1c, 0⟩, ⟨⟨1, 1⟩, .w1c, 0⟩, ⟨⟨2, 1⟩, .w1c, 0⟩, ⟨⟨3, 1⟩, .w1c, 0⟩]⟩,
    ⟨"SELF_COORD", 0x20c, 0, 1, 1, 0, 32, .graft, false, false, [⟨⟨0, 16⟩, .rw, 0⟩]⟩,
    ⟨"GRAFT_PEER", 0x210, 0, 1, 1, 0, 64, .none, false, false, [⟨⟨0, 16⟩, .ro, 0⟩, ⟨⟨16, 2⟩, .ro, 0⟩, ⟨⟨18, 16⟩, .ro, 0⟩, ⟨⟨34, 3⟩, .ro, 0⟩]⟩,
    ⟨"OWN_CLAIM", 0x300, 0, 1, 1, 0, 32, .none, false, true, [⟨⟨0, 13⟩, .act, 0⟩, ⟨⟨13, 1⟩, .act, 0⟩]⟩,
    ⟨"OWN_RESULT", 0x304, 0, 1, 1, 0, 32, .none, false, true, [⟨⟨0, 13⟩, .ro, 0⟩, ⟨⟨13, 1⟩, .ro, 0⟩, ⟨⟨14, 1⟩, .w1c, 0⟩, ⟨⟨16, 16⟩, .ro, 0⟩]⟩,
    ⟨"LIVE_MAP", 0x400, 4, 8, 1, 0, 32, .none, false, false, [⟨⟨0, 32⟩, .ro, 0⟩]⟩,
    ⟨"LIVE_CHANGED", 0x420, 4, 8, 1, 0, 32, .none, false, false, [⟨⟨0, 32⟩, .w1c, 0⟩]⟩]

/-- Rows of the register maps, part 2. -/
def regRows2 : List RegRow :=
  [
    ⟨"LIVE_IRQ", 0x440, 0, 1, 1, 0, 32, .fabric, false, false, [⟨⟨0, 11⟩, .rw, 0⟩, ⟨⟨11, 1⟩, .rw, 0⟩]⟩,
    ⟨"OWNER_MAP", 0x1000, 4, 257, 1, 0, 32, .none, false, false, [⟨⟨0, 32⟩, .ro, 0⟩]⟩,
    ⟨"CLK_STATUS", 0x10000, 0, 1, 1, 0, 32, .none, false, false, [⟨⟨0, 1⟩, .ro, 0⟩, ⟨⟨1, 1⟩, .ro, 0⟩, ⟨⟨2, 1⟩, .ro, 0⟩, ⟨⟨3, 1⟩, .ro, 0⟩]⟩,
    ⟨"CLK_THROTTLE", 0x10004, 0, 1, 1, 0, 32, .none, false, false, [⟨⟨0, 4⟩, .ro, 0⟩, ⟨⟨4, 4⟩, .ro, 0⟩]⟩,
    ⟨"GC_VALUE", 0x10010, 0, 1, 1, 0, 64, .none, false, false, [⟨⟨0, 64⟩, .ro, 0⟩]⟩,
    ⟨"GC_LOAD", 0x10018, 0, 1, 1, 0, 64, .time, false, false, [⟨⟨0, 64⟩, .act, 0⟩]⟩,
    ⟨"TIME_CTRL", 0x10020, 0, 1, 1, 0, 32, .time, false, false, [⟨⟨0, 2⟩, .act, 0⟩, ⟨⟨2, 7⟩, .act, 0⟩, ⟨⟨9, 1⟩, .act, 0⟩, ⟨⟨10, 1⟩, .act, 0⟩]⟩,
    ⟨"TIME_STATUS", 0x10024, 0, 1, 1, 0, 32, .none, false, false, [⟨⟨0, 2⟩, .ro, 0⟩, ⟨⟨2, 1⟩, .ro, 0⟩, ⟨⟨3, 5⟩, .ro, 0⟩, ⟨⟨8, 10⟩, .ro, 0⟩]⟩,
    ⟨"TIME_OFFSET", 0x10028, 0, 1, 1, 0, 32, .none, false, false, [⟨⟨0, 32⟩, .ro, 0⟩]⟩,
    ⟨"TIME_DELAY", 0x1002c, 0, 1, 1, 0, 32, .none, false, false, [⟨⟨0, 32⟩, .ro, 0⟩]⟩,
    ⟨"TIME_BOUND", 0x10030, 0, 1, 1, 0, 32, .none, false, false, [⟨⟨0, 32⟩, .ro, 0⟩]⟩,
    ⟨"TIME_EVENTS", 0x10034, 0, 1, 1, 0, 32, .none, false, false, [⟨⟨0, 1⟩, .w1c, 0⟩, ⟨⟨1, 1⟩, .w1c, 0⟩, ⟨⟨2, 1⟩, .w1c, 0⟩, ⟨⟨3, 1⟩, .w1c, 0⟩, ⟨⟨4, 1⟩, .w1c, 0⟩]⟩]

/-- Rows of the register maps, part 3. -/
def regRows3 : List RegRow :=
  [
    ⟨"TICK_OUT_CTRL", 0x10040, 0, 1, 1, 0, 32, .time, false, false, [⟨⟨0, 5⟩, .rw, 20⟩, ⟨⟨5, 1⟩, .act, 0⟩, ⟨⟨6, 1⟩, .ro, 0⟩]⟩,
    ⟨"PART_RESET", 0x10100, 0, 1, 1, 0, 32, .none, false, false, [⟨⟨0, 16⟩, .act, 0⟩]⟩,
    ⟨"TIME_ASYM", 0x10200, 4, 128, 1, 0, 32, .time, false, false, [⟨⟨0, 32⟩, .rw, 0⟩]⟩,
    ⟨"TAP_STATUS", 0x20000, 0, 1, 1, 0, 32, .none, false, true, [⟨⟨0, 1⟩, .ro, 0⟩, ⟨⟨1, 3⟩, .ro, 0⟩, ⟨⟨4, 5⟩, .ro, 0⟩, ⟨⟨9, 1⟩, .ro, 0⟩, ⟨⟨10, 1⟩, .ro, 0⟩]⟩,
    ⟨"TAP_EVENTS", 0x20004, 0, 1, 1, 0, 32, .none, false, true, [⟨⟨0, 1⟩, .w1c, 0⟩, ⟨⟨1, 1⟩, .w1c, 0⟩, ⟨⟨2, 1⟩, .w1c, 0⟩, ⟨⟨3, 1⟩, .w1c, 0⟩]⟩,
    ⟨"TAP_RETRY", 0x20008, 0, 1, 1, 0, 32, .none, false, true, [⟨⟨0, 32⟩, .ro, 0⟩]⟩,
    ⟨"TAP_FEC_CORR", 0x2000c, 0, 1, 1, 0, 32, .none, false, true, [⟨⟨0, 32⟩, .ro, 0⟩]⟩,
    ⟨"TAP_FEC_UNCORR", 0x20010, 0, 1, 1, 0, 32, .none, false, true, [⟨⟨0, 32⟩, .ro, 0⟩]⟩,
    ⟨"CMD_BASE", 0x100000, 64, 16384, 1, 0, 64, .jobRing, false, false, [⟨⟨0, 64⟩, .rw, 0⟩]⟩,
    ⟨"CPL_BASE", 0x100008, 64, 16384, 1, 0, 64, .jobRing, false, false, [⟨⟨0, 64⟩, .rw, 0⟩]⟩,
    ⟨"RING_CTRL", 0x100010, 64, 16384, 1, 0, 32, .jobRing, false, false, [⟨⟨0, 1⟩, .act, 0⟩, ⟨⟨1, 4⟩, .rw, 4⟩, ⟨⟨5, 12⟩, .rw, 0⟩, ⟨⟨17, 1⟩, .rw, 0⟩, ⟨⟨18, 8⟩, .rw, 0⟩]⟩,
    ⟨"RING_STATUS", 0x100014, 64, 16384, 1, 0, 32, .jobRing, false, false, [⟨⟨0, 2⟩, .ro, 0⟩, ⟨⟨2, 4⟩, .ro, 0⟩, ⟨⟨6, 1⟩, .w1c, 0⟩]⟩]

/-- Rows of the register maps, part 4. -/
def regRows4 : List RegRow :=
  [
    ⟨"CMD_HEAD", 0x100018, 64, 16384, 1, 0, 32, .jobRing, false, false, [⟨⟨0, 32⟩, .ro, 0⟩]⟩,
    ⟨"CPL_TAIL", 0x10001c, 64, 16384, 1, 0, 32, .jobRing, false, false, [⟨⟨0, 32⟩, .ro, 0⟩]⟩,
    ⟨"RING_IRQ", 0x100020, 64, 16384, 1, 0, 32, .jobRing, false, false, [⟨⟨0, 11⟩, .rw, 0⟩, ⟨⟨11, 1⟩, .rw, 0⟩, ⟨⟨12, 8⟩, .rw, 0⟩, ⟨⟨20, 12⟩, .rw, 0⟩]⟩,
    ⟨"ACCEPTED", 0x100024, 64, 16384, 1, 0, 32, .jobRing, false, false, [⟨⟨0, 32⟩, .ro, 0⟩]⟩,
    ⟨"DOORBELL", 0x200000, 8, 16384, 1, 0, 64, .jobRing, false, false, [⟨⟨0, 32⟩, .act, 0⟩, ⟨⟨32, 32⟩, .act, 0⟩]⟩,
    ⟨"LAYOUT_SEL", 0x380000, 0, 1, 1, 0, 32, .none, false, false, [⟨⟨0, 12⟩, .rw, 0⟩, ⟨⟨12, 3⟩, .rw, 0⟩]⟩,
    ⟨"LAYOUT_COMMIT", 0x380004, 0, 1, 1, 0, 32, .none, false, false, [⟨⟨0, 10⟩, .act, 0⟩]⟩,
    ⟨"LAYOUT_STATUS", 0x380008, 0, 1, 1, 0, 32, .none, false, false, [⟨⟨0, 1⟩, .ro, 0⟩, ⟨⟨1, 1⟩, .w1c, 0⟩, ⟨⟨2, 3⟩, .ro, 0⟩, ⟨⟨5, 21⟩, .ro, 0⟩]⟩,
    ⟨"LAYOUT_RUN", 0x381000, 8, 512, 1, 0, 64, .layout, false, false, [⟨⟨0, 20⟩, .rw, 0⟩, ⟨⟨20, 8⟩, .rw, 0⟩, ⟨⟨28, 16⟩, .rw, 0⟩, ⟨⟨44, 7⟩, .rw, 0⟩]⟩,
    ⟨"ROUTE_STATUS", 0x400000, 0, 1, 1, 0, 32, .fabric, false, false, [⟨⟨0, 1⟩, .ro, 0⟩, ⟨⟨1, 1⟩, .ro, 0⟩, ⟨⟨2, 1⟩, .ro, 0⟩]⟩,
    ⟨"HASH_SEED", 0x400008, 0, 1, 1, 0, 64, .fabric, true, false, [⟨⟨0, 64⟩, .rw, 0⟩]⟩,
    ⟨"SCHED_STATUS", 0x400010, 0, 1, 1, 0, 32, .fabric, false, false, [⟨⟨0, 1⟩, .ro, 0⟩, ⟨⟨1, 1⟩, .ro, 0⟩, ⟨⟨2, 1⟩, .ro, 0⟩, ⟨⟨3, 12⟩, .ro, 0⟩]⟩]

/-- Rows of the register maps, part 5. -/
def regRows5 : List RegRow :=
  [
    ⟨"SCHED_START", 0x400018, 0, 1, 1, 0, 64, .fabric, false, false, [⟨⟨0, 64⟩, .ro, 0⟩]⟩,
    ⟨"TELEM_CTRL", 0x400020, 0, 1, 1, 0, 32, .fabric, false, false, [⟨⟨0, 1⟩, .act, 0⟩, ⟨⟨1, 1⟩, .rw, 0⟩, ⟨⟨2, 1⟩, .ro, 0⟩, ⟨⟨3, 4⟩, .rw, 0⟩]⟩,
    ⟨"TELEM_SEQ", 0x400024, 0, 1, 1, 0, 32, .fabric, false, false, [⟨⟨0, 32⟩, .ro, 0⟩]⟩,
    ⟨"TELEM_BASE", 0x400028, 0, 1, 1, 0, 64, .fabric, false, false, [⟨⟨0, 64⟩, .rw, 0⟩]⟩,
    ⟨"TELEM_DEST", 0x400030, 0, 1, 1, 0, 32, .fabric, false, false, [⟨⟨0, 23⟩, .rw, 0⟩, ⟨⟨23, 1⟩, .rw, 0⟩]⟩,
    ⟨"POOL_STATUS[d][0]", 0x400100, 32, 4, 1, 0, 32, .fabric, false, false, [⟨⟨0, 18⟩, .ro, 147456⟩, ⟨⟨18, 14⟩, .ro, 0⟩]⟩,
    ⟨"POOL_STATUS[d][1]", 0x400104, 32, 4, 1, 0, 32, .fabric, false, false, [⟨⟨0, 18⟩, .ro, 4096⟩, ⟨⟨18, 14⟩, .ro, 0⟩]⟩,
    ⟨"POOL_STATUS[d][2]", 0x400108, 32, 4, 1, 0, 32, .fabric, false, false, [⟨⟨0, 18⟩, .ro, 512⟩, ⟨⟨18, 14⟩, .ro, 0⟩]⟩,
    ⟨"POOL_STATUS[d][3]", 0x40010c, 32, 4, 1, 0, 32, .fabric, false, false, [⟨⟨0, 18⟩, .ro, 128⟩, ⟨⟨18, 14⟩, .ro, 0⟩]⟩,
    ⟨"POOL_STATUS[d][4]", 0x400110, 32, 4, 1, 0, 32, .fabric, false, false, [⟨⟨0, 18⟩, .ro, 32⟩, ⟨⟨18, 14⟩, .ro, 0⟩]⟩,
    ⟨"POOL_STATUS[d][5]", 0x400114, 32, 4, 1, 0, 32, .fabric, false, false, [⟨⟨0, 18⟩, .ro, 8⟩, ⟨⟨18, 14⟩, .ro, 0⟩]⟩,
    ⟨"POOL_ERRORS[d]", 0x400180, 4, 4, 1, 0, 32, .fabric, false, false, [⟨⟨0, 32⟩, .ro, 0⟩]⟩]

/-- Rows of the register maps, part 6. -/
def regRows6 : List RegRow :=
  [
    ⟨"POOL_WAITS[d]", 0x400190, 4, 4, 1, 0, 32, .fabric, false, false, [⟨⟨0, 32⟩, .ro, 0⟩]⟩,
    ⟨"MIR_BASE", 0x400400, 64, 8, 1, 0, 64, .fabric, false, false, [⟨⟨0, 64⟩, .rw, 0⟩]⟩,
    ⟨"MIR_FILTER", 0x400408, 64, 8, 1, 0, 64, .fabric, false, false, [⟨⟨0, 9⟩, .rw, 511⟩, ⟨⟨9, 9⟩, .rw, 511⟩, ⟨⟨18, 4⟩, .rw, 15⟩, ⟨⟨22, 3⟩, .rw, 7⟩, ⟨⟨25, 12⟩, .rw, 0⟩, ⟨⟨37, 1⟩, .rw, 0⟩, ⟨⟨38, 16⟩, .rw, 63⟩, ⟨⟨54, 4⟩, .rw, 0⟩]⟩,
    ⟨"MIR_CTRL", 0x400410, 64, 8, 1, 0, 32, .fabric, false, false, [⟨⟨0, 1⟩, .act, 0⟩, ⟨⟨1, 2⟩, .rw, 2⟩, ⟨⟨3, 1⟩, .ro, 0⟩, ⟨⟨4, 5⟩, .rw, 10⟩, ⟨⟨9, 11⟩, .rw, 0⟩, ⟨⟨20, 1⟩, .rw, 0⟩]⟩,
    ⟨"MIR_TAIL", 0x400414, 64, 8, 1, 0, 32, .fabric, false, false, [⟨⟨0, 32⟩, .ro, 0⟩]⟩,
    ⟨"MIR_HEAD", 0x400418, 64, 8, 1, 0, 32, .fabric, false, false, [⟨⟨0, 32⟩, .act, 0⟩]⟩,
    ⟨"MIR_LOST", 0x40041c, 64, 8, 1, 0, 32, .fabric, false, false, [⟨⟨0, 32⟩, .ro, 0⟩]⟩,
    ⟨"SHAPE[1]", 0x401000, 64, 128, 1, 0, 32, .fabric, false, false, [⟨⟨0, 16⟩, .rw, 0⟩, ⟨⟨16, 16⟩, .rw, 0⟩]⟩,
    ⟨"SHAPE[2]", 0x401004, 64, 128, 1, 0, 32, .fabric, false, false, [⟨⟨0, 16⟩, .rw, 0⟩, ⟨⟨16, 16⟩, .rw, 0⟩]⟩,
    ⟨"SHAPE[3]", 0x401008, 64, 128, 1, 0, 32, .fabric, false, false, [⟨⟨0, 16⟩, .rw, 0⟩, ⟨⟨16, 16⟩, .rw, 0⟩]⟩,
    ⟨"POLICE[1]", 0x40100c, 64, 128, 1, 0, 32, .fabric, false, false, [⟨⟨0, 16⟩, .rw, 0⟩, ⟨⟨16, 16⟩, .rw, 0⟩]⟩,
    ⟨"POLICE[2]", 0x401010, 64, 128, 1, 0, 32, .fabric, false, false, [⟨⟨0, 16⟩, .rw, 0⟩, ⟨⟨16, 16⟩, .rw, 0⟩]⟩]

/-- Rows of the register maps, part 7. -/
def regRows7 : List RegRow :=
  [
    ⟨"POLICE[3]", 0x401014, 64, 128, 1, 0, 32, .fabric, false, false, [⟨⟨0, 16⟩, .rw, 0⟩, ⟨⟨16, 16⟩, .rw, 0⟩]⟩,
    ⟨"MARK_DEPTH", 0x401018, 64, 128, 1, 0, 32, .fabric, false, false, [⟨⟨0, 10⟩, .rw, 0⟩, ⟨⟨10, 10⟩, .rw, 0⟩, ⟨⟨20, 10⟩, .rw, 0⟩]⟩,
    ⟨"WEIGHTS", 0x40101c, 64, 128, 1, 0, 32, .fabric, false, false, [⟨⟨0, 8⟩, .rw, 3⟩, ⟨⟨8, 8⟩, .rw, 1⟩]⟩,
    ⟨"CELLS_IN", 0x404000, 64, 128, 1, 0, 32, .fabric, false, false, [⟨⟨0, 32⟩, .ro, 0⟩]⟩,
    ⟨"CELLS_OUT", 0x404004, 64, 128, 1, 0, 32, .fabric, false, false, [⟨⟨0, 32⟩, .ro, 0⟩]⟩,
    ⟨"POLICED", 0x404008, 64, 128, 1, 0, 32, .fabric, false, false, [⟨⟨0, 32⟩, .ro, 0⟩]⟩,
    ⟨"MARKED", 0x40400c, 64, 128, 1, 0, 32, .fabric, false, false, [⟨⟨0, 32⟩, .ro, 0⟩]⟩,
    ⟨"NO_ROUTE", 0x404010, 64, 128, 1, 0, 32, .fabric, false, false, [⟨⟨0, 32⟩, .ro, 0⟩]⟩,
    ⟨"FENCE_IN", 0x404014, 64, 128, 1, 0, 32, .fabric, false, false, [⟨⟨0, 32⟩, .ro, 0⟩]⟩,
    ⟨"FENCE_DROP", 0x404018, 64, 128, 1, 0, 32, .fabric, false, false, [⟨⟨0, 32⟩, .ro, 0⟩]⟩,
    ⟨"DOWN_DROP", 0x40401c, 64, 128, 1, 0, 32, .fabric, false, false, [⟨⟨0, 32⟩, .ro, 0⟩]⟩,
    ⟨"SCHED_ORPHAN", 0x404020, 64, 128, 1, 0, 32, .fabric, false, false, [⟨⟨0, 32⟩, .ro, 0⟩]⟩]

/-- Rows of the register maps, part 8. -/
def regRows8 : List RegRow :=
  [
    ⟨"BAD_TYPE", 0x404024, 64, 128, 1, 0, 32, .fabric, false, false, [⟨⟨0, 32⟩, .ro, 0⟩]⟩,
    ⟨"BAD_CELL", 0x404028, 64, 128, 1, 0, 32, .fabric, false, false, [⟨⟨0, 32⟩, .ro, 0⟩]⟩,
    ⟨"EPOCH_DROP", 0x40402c, 64, 128, 1, 0, 32, .fabric, false, false, [⟨⟨0, 32⟩, .ro, 0⟩]⟩,
    ⟨"BAD_JOB", 0x404030, 64, 128, 1, 0, 32, .fabric, false, false, [⟨⟨0, 32⟩, .ro, 0⟩]⟩,
    ⟨"SCHED_NONE", 0x404034, 64, 128, 1, 0, 32, .fabric, false, false, [⟨⟨0, 32⟩, .ro, 0⟩]⟩,
    ⟨"PORT_GROUP", 0x500000, 64, 128, 1, 0, 32, .ports, true, false, [⟨⟨0, 9⟩, .rw, 0⟩, ⟨⟨9, 2⟩, .rw, 0⟩, ⟨⟨11, 1⟩, .rw, 0⟩]⟩,
    ⟨"PORT_CTRL", 0x500004, 64, 128, 1, 0, 32, .ports, false, false, [⟨⟨0, 1⟩, .act, 0⟩, ⟨⟨1, 1⟩, .act, 0⟩]⟩,
    ⟨"PORT_STATUS", 0x500008, 64, 128, 1, 0, 32, .ports, false, false, [⟨⟨0, 3⟩, .ro, 0⟩, ⟨⟨3, 4⟩, .ro, 0⟩, ⟨⟨7, 2⟩, .ro, 0⟩, ⟨⟨9, 2⟩, .ro, 0⟩, ⟨⟨11, 1⟩, .ro, 0⟩, ⟨⟨12, 4⟩, .ro, 0⟩]⟩,
    ⟨"PORT_EVENTS", 0x50000c, 64, 128, 1, 0, 32, .ports, false, false, [⟨⟨0, 1⟩, .w1c, 0⟩, ⟨⟨1, 1⟩, .w1c, 0⟩, ⟨⟨2, 1⟩, .w1c, 0⟩, ⟨⟨3, 1⟩, .w1c, 0⟩, ⟨⟨4, 1⟩, .w1c, 0⟩, ⟨⟨5, 1⟩, .w1c, 0⟩]⟩,
    ⟨"PORT_CREDIT", 0x500010, 64, 128, 1, 0, 64, .ports, false, false, [⟨⟨0, 64⟩, .rw, 0⟩]⟩,
    ⟨"PORT_FAR", 0x500018, 64, 128, 1, 0, 64, .ports, false, false, [⟨⟨0, 2⟩, .ro, 0⟩, ⟨⟨2, 16⟩, .ro, 0⟩, ⟨⟨18, 16⟩, .ro, 0⟩, ⟨⟨34, 7⟩, .ro, 0⟩]⟩,
    ⟨"PORT_RETRY", 0x500020, 64, 128, 1, 0, 32, .ports, false, false, [⟨⟨0, 32⟩, .ro, 0⟩]⟩]

/-- Rows of the register maps, part 9. -/
def regRows9 : List RegRow :=
  [
    ⟨"PORT_CRC_ERR", 0x500024, 64, 128, 1, 0, 32, .ports, false, false, [⟨⟨0, 32⟩, .ro, 0⟩]⟩,
    ⟨"PORT_DROPPED", 0x500028, 64, 128, 1, 0, 32, .ports, false, false, [⟨⟨0, 32⟩, .ro, 0⟩]⟩,
    ⟨"PORT_DOWNS", 0x50002c, 64, 128, 1, 0, 32, .ports, false, false, [⟨⟨0, 32⟩, .ro, 0⟩]⟩,
    ⟨"PORT_RETRAINS", 0x500030, 64, 128, 1, 0, 32, .ports, false, false, [⟨⟨0, 32⟩, .ro, 0⟩]⟩,
    ⟨"LANE_STATUS", 0x510000, 64, 512, 1, 0, 32, .ports, false, false, [⟨⟨0, 3⟩, .ro, 0⟩, ⟨⟨3, 3⟩, .ro, 0⟩, ⟨⟨6, 1⟩, .ro, 0⟩, ⟨⟨7, 3⟩, .ro, 0⟩, ⟨⟨10, 1⟩, .ro, 0⟩, ⟨⟨11, 1⟩, .ro, 0⟩]⟩,
    ⟨"LANE_EVENTS", 0x510004, 64, 512, 1, 0, 32, .ports, false, false, [⟨⟨0, 1⟩, .w1c, 0⟩, ⟨⟨1, 1⟩, .w1c, 0⟩]⟩,
    ⟨"LANE_FEC_SYM", 0x510008, 64, 512, 1, 0, 32, .ports, false, false, [⟨⟨0, 32⟩, .ro, 0⟩]⟩,
    ⟨"LANE_FEC_CW", 0x51000c, 64, 512, 1, 0, 32, .ports, false, false, [⟨⟨0, 32⟩, .ro, 0⟩]⟩,
    ⟨"LANE_FEC_UNC", 0x510010, 64, 512, 1, 0, 32, .ports, false, false, [⟨⟨0, 32⟩, .ro, 0⟩]⟩,
    ⟨"LANE_EYE", 0x510014, 64, 512, 1, 0, 32, .ports, false, false, [⟨⟨0, 10⟩, .ro, 0⟩, ⟨⟨16, 10⟩, .ro, 0⟩]⟩,
    ⟨"STORE_STATUS", 0x600000, 0, 1, 1, 0, 32, .none, false, false, [⟨⟨0, 1⟩, .ro, 0⟩, ⟨⟨1, 8⟩, .ro, 0⟩, ⟨⟨9, 13⟩, .ro, 0⟩]⟩,
    ⟨"SCRUB_PASSES", 0x600004, 0, 1, 1, 0, 32, .none, false, false, [⟨⟨0, 32⟩, .ro, 0⟩]⟩]

/-- Rows of the register maps, part 10. -/
def regRows10 : List RegRow :=
  [
    ⟨"STACK_STATUS", 0x600100, 4, 24, 1, 0, 32, .none, false, false, [⟨⟨0, 2⟩, .ro, 0⟩, ⟨⟨2, 1⟩, .ro, 0⟩, ⟨⟨3, 8⟩, .ro, 0⟩]⟩,
    ⟨"STACK_CNT.RD_LINES", 0x600200, 32, 24, 1, 0, 64, .none, false, false, [⟨⟨0, 64⟩, .ro, 0⟩]⟩,
    ⟨"STACK_CNT.WR_LINES", 0x600208, 32, 24, 1, 0, 64, .none, false, false, [⟨⟨0, 64⟩, .ro, 0⟩]⟩,
    ⟨"STACK_CNT.TURN_CYC", 0x600210, 32, 24, 1, 0, 32, .none, false, false, [⟨⟨0, 32⟩, .ro, 0⟩]⟩,
    ⟨"STACK_CNT.BANK_CYC", 0x600214, 32, 24, 1, 0, 32, .none, false, false, [⟨⟨0, 32⟩, .ro, 0⟩]⟩,
    ⟨"STACK_CNT.REFRESH_CYC", 0x600218, 32, 24, 1, 0, 32, .none, false, false, [⟨⟨0, 32⟩, .ro, 0⟩]⟩,
    ⟨"SHED_STATUS", 0x700000, 0, 1, 1, 0, 32, .none, false, false, [⟨⟨0, 2⟩, .ro, 0⟩, ⟨⟨2, 1⟩, .ro, 0⟩, ⟨⟨3, 1⟩, .ro, 0⟩, ⟨⟨4, 4⟩, .ro, 0⟩, ⟨⟨8, 1⟩, .ro, 0⟩]⟩,
    ⟨"SHED_EVENTS", 0x700004, 0, 1, 1, 0, 32, .none, false, false, [⟨⟨0, 1⟩, .w1c, 0⟩, ⟨⟨1, 1⟩, .w1c, 0⟩, ⟨⟨2, 1⟩, .w1c, 0⟩, ⟨⟨3, 1⟩, .w1c, 0⟩, ⟨⟨4, 1⟩, .w1c, 0⟩, ⟨⟨5, 1⟩, .w1c, 0⟩, ⟨⟨6, 1⟩, .w1c, 0⟩, ⟨⟨7, 1⟩, .w1c, 0⟩]⟩,
    ⟨"MBX_REQ_ADDR", 0x700010, 0, 1, 1, 0, 64, .none, false, true, [⟨⟨0, 64⟩, .rw, 0⟩]⟩,
    ⟨"MBX_RESP_ADDR", 0x700018, 0, 1, 1, 0, 64, .none, false, true, [⟨⟨0, 64⟩, .rw, 0⟩]⟩,
    ⟨"MBX_RESP_LEN", 0x700020, 0, 1, 1, 0, 32, .none, false, true, [⟨⟨0, 32⟩, .rw, 0⟩]⟩,
    ⟨"MBX_GO", 0x700024, 0, 1, 1, 0, 32, .none, false, true, [⟨⟨0, 1⟩, .act, 0⟩]⟩]

/-- Rows of the register maps, part 11. -/
def regRows11 : List RegRow :=
  [
    ⟨"MBX_STATUS", 0x700028, 0, 1, 1, 0, 32, .none, false, true, [⟨⟨0, 1⟩, .ro, 0⟩, ⟨⟨1, 1⟩, .w1c, 0⟩, ⟨⟨2, 1⟩, .w1c, 0⟩, ⟨⟨3, 1⟩, .w1c, 0⟩]⟩,
    ⟨"POWER_NOW", 0x700030, 0, 1, 1, 0, 32, .none, false, false, [⟨⟨0, 12⟩, .ro, 0⟩]⟩,
    ⟨"COOLANT_IN", 0x700034, 0, 1, 1, 0, 32, .none, false, false, [⟨⟨0, 12⟩, .ro, 0⟩, ⟨⟨12, 1⟩, .ro, 0⟩]⟩,
    ⟨"POWER_CAP", 0x700038, 0, 1, 1, 0, 32, .none, false, false, [⟨⟨0, 12⟩, .ro, 2600⟩]⟩,
    ⟨"TEMP", 0x700100, 4, 72, 1, 0, 32, .none, false, false, [⟨⟨0, 12⟩, .ro, 0⟩, ⟨⟨12, 1⟩, .ro, 0⟩]⟩,
    ⟨"HBM_TEMP", 0x700220, 4, 24, 1, 0, 32, .none, false, false, [⟨⟨0, 12⟩, .ro, 0⟩, ⟨⟨12, 1⟩, .ro, 0⟩]⟩,
    ⟨"SLICE_CTRL", 0x700400, 0, 1, 1, 0, 32, .none, true, false, [⟨⟨0, 1⟩, .rw, 1⟩, ⟨⟨1, 5⟩, .rw, 27⟩, ⟨⟨6, 1⟩, .rw, 1⟩, ⟨⟨7, 1⟩, .rw, 1⟩]⟩,
    ⟨"SLICE_STATUS", 0x700404, 0, 1, 1, 0, 32, .none, false, false, [⟨⟨0, 16⟩, .ro, 0⟩, ⟨⟨16, 16⟩, .ro, 0⟩]⟩,
    ⟨"DBG_CLK_CTRL", 0x700410, 0, 1, 1, 0, 32, .none, true, false, [⟨⟨0, 3⟩, .rw, 0⟩, ⟨⟨3, 1⟩, .act, 0⟩, ⟨⟨4, 1⟩, .ro, 0⟩]⟩,
    ⟨"RES_OWNER", 0x700800, 4, 37, 1, 0, 32, .none, false, false, [⟨⟨0, 5⟩, .ro, 0⟩]⟩,
    ⟨"PPR_CTRL", 0x1900000, 262144, 24, 1, 0, 32, .none, true, false, [⟨⟨0, 5⟩, .rw, 0⟩, ⟨⟨5, 1⟩, .rw, 0⟩, ⟨⟨6, 1⟩, .act, 0⟩]⟩,
    ⟨"PPR_ADDR", 0x1900004, 262144, 24, 1, 0, 32, .none, true, false, [⟨⟨0, 4⟩, .rw, 0⟩, ⟨⟨4, 2⟩, .rw, 0⟩, ⟨⟨6, 16⟩, .rw, 0⟩]⟩]

/-- Rows of the register maps, part 12. -/
def regRows12 : List RegRow :=
  [
    ⟨"PPR_STATUS", 0x1900008, 262144, 24, 1, 0, 32, .none, true, false, [⟨⟨0, 1⟩, .ro, 0⟩, ⟨⟨1, 1⟩, .w1c, 0⟩, ⟨⟨2, 1⟩, .w1c, 0⟩, ⟨⟨3, 1⟩, .w1c, 0⟩, ⟨⟨4, 8⟩, .ro, 0⟩]⟩,
    ⟨"MR_SEL", 0x1900100, 262144, 24, 1, 0, 32, .none, true, false, [⟨⟨0, 4⟩, .act, 0⟩, ⟨⟨4, 4⟩, .act, 0⟩]⟩,
    ⟨"MR_DATA", 0x1900104, 262144, 24, 1, 0, 32, .none, true, false, [⟨⟨0, 8⟩, .ro, 0⟩, ⟨⟨8, 1⟩, .ro, 0⟩]⟩,
    ⟨"LX_CTRL", 0x1f00080, 4096, 656, 1, 0, 32, .ports, true, false, [⟨⟨0, 1⟩, .act, 0⟩, ⟨⟨1, 1⟩, .act, 0⟩, ⟨⟨2, 1⟩, .act, 0⟩, ⟨⟨3, 1⟩, .act, 0⟩]⟩,
    ⟨"LX_PRBS_ERR", 0x1f00084, 4096, 656, 1, 0, 32, .ports, true, false, [⟨⟨0, 32⟩, .rc, 0⟩]⟩,
    ⟨"LX_TXEQ", 0x1f00088, 4096, 656, 1, 0, 32, .ports, true, false, [⟨⟨0, 30⟩, .ro, 0⟩]⟩,
    ⟨"LX_DFE", 0x1f00000, 4, 24, 656, 4096, 32, .ports, true, false, [⟨⟨0, 32⟩, .ro, 0⟩]⟩,
    ⟨"REMAP", 0x1910000, 4, 32768, 24, 262144, 32, .none, true, false, [⟨⟨0, 22⟩, .ro, 0⟩, ⟨⟨31, 1⟩, .ro, 0⟩]⟩]

/-- The MSI-X table and the pending-bit array of a card (R398). PRESUMED: assumption 69. -/
def regRows13 : List RegRow :=
  [
    ⟨"MSIX_ADDR[v]", 0x4000000, 16, 2048, 1, 0, 64, .none, false, true, [⟨⟨0, 64⟩, .rw, 0⟩]⟩,
    ⟨"MSIX_DATA[v]", 0x4000008, 16, 2048, 1, 0, 32, .none, false, true, [⟨⟨0, 32⟩, .rw, 0⟩]⟩,
    ⟨"MSIX_CTRL[v]", 0x400000c, 16, 2048, 1, 0, 32, .none, false, true, [⟨⟨0, 1⟩, .rw, 1⟩]⟩,
    ⟨"MSIX_PBA[n]", 0x4008000, 8, 32, 1, 0, 64, .none, false, true, [⟨⟨0, 64⟩, .ro, 0⟩]⟩]

/-- Every register of the maps but the job entries of R447. -/
def regRows : List RegRow :=
  regRows0 ++ regRows1 ++ regRows2 ++ regRows3 ++ regRows4 ++ regRows5 ++ regRows6 ++ regRows7 ++ regRows8 ++ regRows9 ++ regRows10 ++ regRows11 ++ regRows12 ++ regRows13

/-- The copy of a row that lies at an address: its number within the run and the run. -/
def RegRow.at (r : RegRow) (a : Nat) : Option (Nat × Nat) :=
  if a < r.base then .none
  else
    let d := a - r.base
    let k := if r.step = 0 then 0 else min (d / r.step) (r.outer - 1)
    let e := d - k * r.step
    if r.stride = 0 then (if e = 0 then .some (0, k) else .none)
    else if e % r.stride = 0 ∧ e / r.stride < r.count then .some (e / r.stride, k) else .none

/-- The row that has a register starting at an address. -/
def findRow (a : Nat) : Option RegRow := regRows.find? (fun r => (r.at a).isSome)

/-- The reset value of a row's registers. -/
def RegRow.resetVal (r : RegRow) : Nat := r.fields.foldl (fun v f => v + f.reset * 2 ^ f.bits.lo) 0

/-- Where the registers that exist once for each card have the second card's copy (R411, R586, R597). -/
def cardSpan : Nat := 2 ^ 28

/-- The reset value of the register at an address, 0 where the maps state none. DESIGN CHOICE: assumption 1. -/
def regReset (a : Nat) : Word64 :=
  match findRow (a % cardSpan) with
  | .some r => BitVec.ofNat 64 r.resetVal
  | .none => 0

end Sys2Proof.Machine
end

