-- ==== Sys2Proof/Machine/State.lean ====
section
/-! DEFINITION. The state of the block: every register, table, queue and run that the chapters name, and the queue
of waiting commands. -/
namespace Sys2Proof.Machine

/-- What stops the block: no rule gives a command a fault, and no meaning raises one. -/
inductive Fault where
  deriving DecidableEq, Repr

/-- Commands the model turns away by name. -/
inductive Refusal where
  /-- Raised by an arm of `exec` that has no meaning yet; safe, since the machine stops there. -/
  | notModelled (mnemonic : String)
  deriving DecidableEq, Repr

/-- What the block has sent out, in order: the model's own record of its outputs. DESIGN CHOICE: assumptions 7 and 10. -/
inductive Output where
  /-- Bytes written to host memory through the card of a package (R399). -/
  | hostWrite (addr : Nat) (data : Bytes)
  /-- A run of zero bytes written to host memory (R458, R600). -/
  | hostZero (addr : Nat) (n : Nat)
  /-- A completion entry written to a ring's completion ring (R436). -/
  | completion (ring : Nat) (addr : Nat) (entry : BitVec 256)
  /-- An MSI-X message through the card of a package: its vector, and the address and the data of its entry (R398, R426, R456, R600). -/
  | msix (card : Nat) (vector : Nat) (addr data : Nat)
  /-- A flit sent on a logical lane of a port, a Graft trunk (128 to 131) or Taproot (132) (R472). -/
  | flit (port lane : Nat) (bytes : Bytes)
  /-- A codeword sent on a logical lane of a link, its first bit on the wire lowest (R473). -/
  | codeword (port lane : Nat) (bits : BitVec 5440)
  /-- Training frames sent on a lane of a link, with the lane's logical number and the FFE coefficients that it asks for (R475). -/
  | training (port lane : Nat) (request : BitVec 30)
  /-- A register write handed to the other package of a pair (R402). -/
  | forward (addr : Nat) (value : Word64)
  /-- A DMA read of host memory through the card of a package: its bytes come as an operand of the row that asks for them (R399, R420). -/
  | hostRead (card : Nat) (addr : Nat) (n : Nat)
  /-- What a register read by a master has returned (R27, R505). -/
  | readValue (m : Master) (addr : Nat) (value : Word64)
  deriving DecidableEq, Repr

/-- Why the package is stopped (R363, R609, R686). -/
inductive Stopped where
  | no | clock | trip | rail
  deriving DecidableEq, Repr

/-- Pins, clocks and the state of the reset sequence. -/
structure Pwr where
  porLow : Bool
  stopped : Stopped
  thermtrip : Bool
  osc : Bool
  tickOut : Bool
  recovery : Bool
  /-- The root PLL has locked since reset (R362). -/
  locked : Bool
  /-- The wipe of the stacks has ended (R635). -/
  wiped : Bool
  /-- The standby rail is up (R611). -/
  standby : Bool
  /-- Rails, other than VSB, that have been seen without voltage (R609). -/
  dead : List Nat
  deriving DecidableEq, Repr

/-- Fuses and flash: what a reset keeps. -/
structure Nv where
  grade : Nat
  stepping : Nat
  serial : Word64
  /-- State of each bed as fused: 0 ACTIVE, 1 SPARE, 2 FUSED, 3 RETIRED; unlisted beds are ACTIVE (R408). -/
  bedFuse : Tab Nat
  lifecycle : Nat
  svnFloor : Nat
  identity : Bool
  flashMarker : Bool
  flashHeader : Bytes
  flashBody : Tab Byte
  /-- Byte ranges of the body written since FW_BEGIN (R625). -/
  flashWritten : List (Nat × Nat)
  ownerKey : Option Bytes
  softBeds : List (Nat × Nat)
  softRows : List (Nat × Nat × Nat)
  fusedRows : List (Nat × Nat × Nat)
  deriving DecidableEq, Repr

/-- A BIST record (R638). -/
structure BistRecord where
  failed : List Nat
  /-- The beds, and the rows, that the BIST repaired, as the soft-repair list holds them. -/
  beds : List (Nat × Nat)
  rows : List (Nat × Nat × Nat)
  digest : Nat
  bootCount : Word32
  deriving DecidableEq, Repr

/-- The always-on region (R611, R638). -/
structure Aon where
  log : List (BitVec 256)
  nextSeq : Word32
  lost : Word32
  bootCount : Word32
  record : Option BistRecord
  deriving DecidableEq, Repr

/-- A ring's state beside its registers: the descriptor read once and held (R423), and its coalescing (R426). -/
structure RingX where
  heldDesc : Option (BitVec 512)
  since : Nat
  firstTick : Option Nat
  deriving DecidableEq, Repr

def RingX.none : RingX := ⟨.none, 0, .none⟩

/-- Where an accepted command stands (R458): awaiting events, free of its waits, awaiting resources, running, or its work has ended. -/
inductive Phase where
  | waits | free | queued | run | ended
  deriving DecidableEq, Repr

/-- A command context (R423). -/
structure Ctx where
  ring : Nat
  idx : Nat
  desc : BitVec 512
  phase : Phase
  /-- Rejected by its checks: no report, and no signal but under SIGNAL_ANY (R428). -/
  rejected : Bool
  accTick : Nat
  freeTick : Nat
  /-- First tick at which the command was found eligible (R236). -/
  eligTick : Option Nat
  startTick : Nat
  /-- The command has begun the work that it does in several rows (R208). -/
  begun : Bool
  /-- The tick in which a LAUNCH_AT signalled its event (R388, R432). -/
  sigTick : Option Nat
  /-- The part offered only Seedling service when it read the descriptor (R233). -/
  seed : Bool
  /-- The handle that a FETCH reads (R213). -/
  park : Option Nat
  /-- Members that the mask of a PUBLISH lost to fences (R208). -/
  fenced : List Nat
  status : Nat
  result : BitVec 96
  report : BitVec 2048
  deriving DecidableEq, Repr

/-- An event (R430). -/
structure Event where
  count : Word32
  target : Word32
  deriving DecidableEq, Repr

def Event.zero : Event := ⟨0, 0⟩

/-- A completion held while Taproot is down: its ring, its entry but for PHASE, and its report (R401). -/
structure HeldCpl where
  ring : Nat
  entry : BitVec 256
  report : Option (Nat × Bytes)
  deriving DecidableEq, Repr

/-- A SURVEY in progress: the command of a ring, or the register SURVEY through a card; its buffer, and its snapshot once SNAP_TICK
has ended (R456, R457). -/
structure SurveyRun where
  cmd : Option Ref
  card : Nat
  addr : Nat
  snapTick : Nat
  snap : Option (List (Nat × Bytes))
  deriving DecidableEq, Repr

/-- An ownership request of the tick in progress (R582). -/
structure ClaimReq where
  m : Master
  resource : Nat
  release : Bool
  deriving DecidableEq, Repr

/-- An event setting of a NOP that has completed in the tick in progress, with the NOP's place in the order of R197 (R434). -/
structure EvSet where
  free : Nat
  ring : Nat
  idx : Nat
  first : Nat
  n : Nat
  deriving DecidableEq, Repr

/-- The host side: rings, contexts, events, completions. -/
structure HostSt where
  rings : Tab RingX
  rr : Nat
  ctxs : List Ctx
  events : Tab Event
  tickSignals : List Nat
  tickSets : List EvSet
  /-- A waiting command has become free in the tick in progress (R374). -/
  relNow : Bool
  outHeld : List HeldCpl
  survey : Option SurveyRun
  claims : List ClaimReq
  /-- Stage of the package's own Taproot link, as PORT_STATUS.STATE codes it (R400, R475). -/
  tapStage : Nat
  deriving DecidableEq, Repr

/-- A run of a staged layout (R452). -/
structure LayoutRun where
  base : Nat
  count : Nat
  package : Nat
  firstPort : Nat
  deriving DecidableEq, Repr

/-- An early ready notice (R237). DEDUCED: assumption 13. -/
structure Early where
  tag : Nat
  second : Bool
  epoch : Nat
  gen : Nat
  tensor : Nat
  tseq : Nat
  src : Nat
  deriving DecidableEq, Repr

/-- The running maximum of a tensor and generation (R251). -/
structure RunMax where
  tensor : Nat
  gen : Nat
  maxrec : Word32
  seen : List Nat
  last : Option Nat
  /-- A bucket of the generation has been admitted on the part (R133). -/
  admitted : Bool
  /-- The bucket marked LAST_OF_GEN was reduced for the store (R107). -/
  bound : Bool
  deriving DecidableEq, Repr

/-- A NORM result held by a job (R275, R276). -/
structure NormRes where
  first : Nat
  count : Nat
  gen : Nat
  /-- The exact sum S: `acc` grid steps of the anchor. -/
  anchor : Int
  acc : BitVec 128
  flags : BitVec 8
  n : Nat
  maxrec : Word32
  /-- The gradients that it covers, where no other part takes part (R146, R182). -/
  own : Option (List Nat)
  deriving DecidableEq, Repr

/-- The elements of one tensor that the part holds (R160, R166, R182). Keys count within the shard. -/
structure Shard where
  weights : Tab Nat
  m1 : Tab Nat
  m2 : Tab Nat
  rows : Tab Nat
  cols : Tab Nat
  /-- Element ranges loaded since the tensor's section was declared (R222). -/
  loaded : List (Nat × Nat)
  /-- Elements that a RESTORE has put back and the STEP in progress is to write again, ascending, below the first that it has not written
  (R662). -/
  redo : List Nat
  /-- Generation after the one for which each row and each column statistic was last updated (R182). -/
  rowGen : Tab Nat
  colGen : Tab Nat
  /-- Generation after the one for which partial sums, and row statistics, were last sent (R182). -/
  statSent : Nat
  rowsSent : Nat
  /-- The compute dies over which the shard's update blocks were dealt (R165, R676). -/
  dies : List Nat
  deriving DecidableEq, Repr

def Shard.empty : Shard := ⟨[], [], [], [], [], [], [], [], [], 0, 0, []⟩

/-- A parked buffer (R209). -/
structure Handle where
  handle : Nat
  ring : Nat
  idx : Nat
  source : Nat
  fmt : Nat
  elems : Nat
  bytes : Nat
  /-- Pages charged, and those of them taken from the usable store. -/
  pages : Nat
  storePages : Nat
  data : Tab Byte
  got : Nat
  done : Bool
  /-- Its PARK has completed: the handle exists (R213). -/
  live : Bool
  deriving DecidableEq, Repr

/-- Partial sums of factored statistics received from other owners (R182). -/
structure StatsRec where
  src : Nat
  tensor : Nat
  gen : Nat
  cols : Bool
  stripe : Nat
  slots : List Slot
  deriving DecidableEq, Repr

/-- Values received from another owner: the master weights of a straddling block (R206), or row statistics (R182). -/
structure BlockRec where
  src : Nat
  tensor : Nat
  gen : Nat
  first : Nat
  data : Bytes
  deriving DecidableEq, Repr

/-- A WMAX received from another owner (R114). -/
structure PubMaxRec where
  src : Nat
  tensor : Nat
  gen : Nat
  maxrec : Word32
  deriving DecidableEq, Repr

/-- A NORM message of a peer, kept until its generation closes or a NORM of its range ends (R275). DEDUCED: assumption 30. -/
structure NormMsg where
  src : Nat
  tensor : Nat
  gen : Nat
  second : Bool
  maxrec : Word32
  n : Nat
  /-- Anchor of a record of the second pass (R134). -/
  anchor : Int
  slot : Slot
  deriving DecidableEq, Repr

/-- What a RESULT packet names its operation by (R535). -/
structure OpName where
  tag : Nat
  gen : Nat
  tensor : Nat
  tseq : Nat
  deriving DecidableEq, Repr

/-- A job: its entry and what the part holds for it. -/
structure Job where
  entry : BitVec 1024
  stray : BitVec 1024
  layouts : Tab (List LayoutRun)
  groups : Tab (BitVec 1024)
  /-- Generation after the one for which a group's powers were last advanced (R189). -/
  groupGen : Tab Nat
  progs : Tab (BitVec 2048)
  records : Tab (BitVec 2048)
  shards : Tab Shard
  norms : List NormRes
  normMsgs : List NormMsg
  ownerPath : Option Nat
  early : List Early
  maxima : List RunMax
  handles : List Handle
  gradElems : Nat
  /-- CHECKPOINTs of the job that run (R217, R234). -/
  checkpoint : Nat
  /-- Row counts of a PERMUTE that came from another part before the operation was admitted here (R270). DEDUCED: assumption 18. -/
  earlyCounts : List Packet
  pubMax : List PubMaxRec
  blocks : List BlockRec
  stats : List StatsRec
  /-- Row statistics that other owners have sent (R182). DESIGN CHOICE: assumption 73. -/
  rowRecs : List BlockRec
  /-- Operations that have aborted here and have not been admitted again: results of theirs go to no member (R259). -/
  aborted : List OpName
  deriving DecidableEq, Repr

/-- The state of an operation in flight (R459). -/
inductive Stage where
  | accepting | sending | delivering | aborting
  deriving DecidableEq, Repr

/-- A stripe of an operation: its slots, and what has been added into them (R40, R117, R129). -/
structure Stripe where
  slots : Tab Slot
  added : Nat
  records : Nat
  ncontrib : Nat
  cnt : InCnt
  maxrec : Word32
  firstFlag : Nat
  deriving DecidableEq, Repr

/-- A bucket summary (R250). -/
structure Summary where
  ncontrib : Nat
  firstFlag : Nat
  maxrec : Word32
  cnt : InCnt
  flags : BitVec 8
  deriving DecidableEq, Repr

/-- An operation in flight (R225, R459). -/
structure Op where
  ring : Nat
  idx : Nat
  opcode : Nat
  job : Nat
  tag : Nat
  epoch : Nat
  par : BitVec 320
  admTick : Nat
  deadline : Option Nat
  anchor : Int
  tIn : Int
  /-- Member count of the operation's layout (R229), and the member on each local port that owes. -/
  members : Nat
  src : List Nat
  dst : List Nat
  parts : List Nat
  stage : Stage
  /-- The operation still works: it has neither aborted nor finished. -/
  live : Bool
  unopened : Bool
  place : List Nat
  stripes : Tab Stripe
  accepted : Tab Nat
  valuesIn : Nat
  stale : Nat
  foreign : Nat
  parentReady : Bool
  finalChunks : List Nat
  sentChunks : List Nat
  /-- Packets of results still owed to the local members, or bytes of a data operation delivered so far. -/
  delivered : Nat
  /-- Packets with LAST set that have been sent or delivered. -/
  lasts : Nat
  out : Cnt
  maxrec : Word32
  summary : Option Summary
  fenced : List Nat
  missing : Nat
  portsShort : Nat
  childrenShort : Nat
  fencedOwing : Nat
  originStatus : Nat
  originCoord : Nat
  /-- ALLGATHER: decoded elements that wait for the rest of their blocks, by their place in the range (R73), and elements of results that
  Trellis has routed (R247). -/
  gather : Tab Num
  gone : Nat
  /-- PERMUTE: the bytes of each sender's row counts, and how many of them have come (R270). -/
  counts : Tab Bytes
  countGot : Tab Nat
  /-- Whether the second ready notices went out. -/
  ready2 : Bool
  ready2From : List Nat
  dropped : Nat
  deriving DecidableEq, Repr

/-- A reduced bucket held at the root (R55): its slots, or its FP32 values once spilled. -/
structure Held where
  job : Nat
  tensor : Nat
  base : Nat
  nelem : Nat
  gen : Nat
  tseq : Nat
  sat : Bool
  anchor : Int
  place : List Nat
  slots : Tab Slot
  spill : Option (Tab Nat)
  /-- Overflow flags of the elements, kept by a spill (R128). -/
  overs : BitVec 8
  lost : Bool
  deriving DecidableEq, Repr

/-- A NORM that is running (R275). -/
structure NormRun where
  ring : Nat
  idx : Nat
  job : Nat
  first : Nat
  count : Nat
  gen : Nat
  peers : List Nat
  owners : Nat
  start : Nat
  deadline : Option Nat
  n : Nat
  maxrec : Word32
  second : Bool
  anchor : Int
  acc : Slot
  jobN : Nat
  jobMax : Word32
  deriving DecidableEq, Repr

/-- A RESTORE that takes its image from a Runner endpoint (R215). -/
structure RestoreRun where
  ring : Nat
  idx : Nat
  job : Nat
  coord : Nat
  base : Nat
  len : Nat
  data : Tab Byte
  got : Nat
  deriving DecidableEq, Repr

/-- A value that waits at a bed (R50). -/
structure BedVal where
  bed : Nat
  job : Nat
  tag : Nat
  elem : Nat
  member : Nat
  value : Num
  deriving DecidableEq, Repr

/-- An exact accumulator of a thread (R290, R299). -/
structure WAcc where
  slot : Slot
  anchor : Int
  head : Nat
  count : Nat
  deriving DecidableEq, Repr

def WAcc.zero : WAcc := ⟨⟨0, 0⟩, 0, 0, 0⟩

/-- Where a thread stands: it runs, waits at a barrier, has halted or has faulted. -/
inductive TStat where
  | run | barT | barG | halt | fault
  deriving DecidableEq, Repr

/-- A thread of a program (R290): its registers, and how many items it has asked for (R321). -/
structure VyThread where
  g : Tab Word64
  w : Tab WAcc
  q : BitVec 8
  pc : Nat
  stack : List Nat
  stat : TStat
  wq : Nat
  deriving DecidableEq, Repr

/-- The operations of the atomic class, and a plain store (R294). -/
inductive VyStore where
  | store | add | min | max | minu | maxu | and | or | swap | cas
  deriving DecidableEq, Repr

/-- An entry of the write log (R306): its writer, its place, its operation, and the register that an atomic writes (R308). -/
structure VyWrite where
  tile : Nat
  tid : Nat
  target : Nat
  off : Nat
  size : Nat
  op : VyStore
  value : Word64
  other : Word64
  dest : Nat
  deriving DecidableEq, Repr

/-- A buffer transfer (R318). -/
structure VyXfer where
  tile : Nat
  tid : Nat
  out : Bool
  buf : Nat
  boff : Nat
  woff : Nat
  len : Nat
  data : Bytes
  done : Bool
  deriving DecidableEq, Repr

/-- A buffer entry of a parameter block (R324). -/
structure VyBuf where
  kind : Nat
  writable : Bool
  fmt : Nat
  addr : Nat
  length : Nat
  offset : Nat
  t : Int
  tensor : Nat
  deriving DecidableEq, Repr

/-- A program fault (R351, R352). -/
structure VyFault where
  step : Nat
  tile : Nat
  tid : Option Nat
  kind : Nat
  pc : Nat
  addr : Nat
  deriving DecidableEq, Repr

/-- A SACC request that no SLD sees yet (R316). -/
structure VyAdd where
  tile : Nat
  tid : Nat
  slot : Nat
  value : Num
  deriving DecidableEq, Repr

/-- A program that runs (R283 to R330). Windows hold byte `off` of tile `t` at key 2^21 × t + off. DESIGN CHOICE: assumption 64. -/
structure VyProg where
  ring : Nat
  idx : Nat
  job : Nat
  lib : Nat
  /-- A library program: the bytes of its HOST buffers, read at its start (R325). -/
  host : List Bytes
  balanced : Bool
  gen : Nat
  stripes : Nat
  anchor : Int
  place : List Nat
  /-- The bed on which each tile is placed (R285). -/
  beds : List Nat
  start : Nat
  deadline : Option Nat
  /-- The tick of the last HALT (R330). -/
  halted : Nat
  ntiles : Nat
  threads : Nat
  entry : Nat
  text : List Word32
  args : List Word32
  bufs : List VyBuf
  ts : Tab VyThread
  win : Tab Byte
  /-- The windows at the start of the superstep (R320). -/
  snap : Tab Byte
  log : List VyWrite
  logCount : Tab Nat
  xfers : List VyXfer
  step : Nat
  faults : List VyFault
  slots : Tab Slot
  adds : List VyAdd
  /-- SACC requests per stripe, in all and visible (R315, R317). -/
  reqs : Tab Nat
  seen : Tab Nat
  nextItem : Nat
  cnt : Cnt
  aovf : Nat
  gzero : Nat
  deriving DecidableEq, Repr

/-- A SIEVE_RUN that has passed its checks and has not started: its parameter block, the tick at which it became eligible, and the
scratch stripes placed at its admission (R323, R327). -/
structure SieveReq where
  ring : Nat
  idx : Nat
  block : Bytes
  elig : Option Nat
  place : List Nat
  deriving DecidableEq, Repr

/-- A member under a fence (R445). -/
structure Fence where
  member : Nat
  job : Nat
  deriving DecidableEq, Repr

/-- One route version (R527): its routing table, port groups and mask table. -/
structure RouteVer where
  table : Tab Nat
  groups : Tab (BitVec 256)
  masks : Tab (BitVec 1024)
  deriving DecidableEq, Repr

/-- Routing tables after the wipe: no route, and every group and mask 0 (R521). -/
def RouteVer.empty : RouteVer := ⟨[], [], []⟩

/-- A packet in the packet buffer (R506, R552): the payload bytes of each of its cells, whether its last cell is there,
and the numbers under which its cells entered their queues (R517). `marks` are the cells that came in marked (R542) and `hdr0`
is the header of its first cell. `engines`: the part's own engines take it (R519). `refs` counts the holders of the buffer of each cell,
the input itself until the packet is routed (R552), and `freed` of the buffers have been returned (R486); `own` cells at its end the part
made itself to close it (R509). `drop` is the counter of a packet that was dropped whole (R541), `gone` are the outputs at which a copy was
removed, with their counters (R524, R536), and `seen` and `kept` are the mirror sessions whose filter it has passed and that keep it
(R555). `vals` are accepted values that wait for room at their beds (R51, R241). -/
structure Pk where
  pid : Nat
  inp : Nat
  pkt : Packet
  lens : List Nat
  ents : List Nat
  marks : List Nat
  hdr0 : Nat
  closed : Bool
  routed : Bool
  engines : Bool
  freed : Nat
  refs : List Nat
  own : Nat
  drop : Option Nat
  gone : List (Nat × Nat)
  seen : List Nat
  kept : List Nat
  vals : List BedVal
  /-- Tick of its first cell (R564). -/
  since : Nat
  deriving DecidableEq, Repr

/-- A copy of a packet for one output (R517, R535), for `ports` of the logical switch: `next` of its cells have been matched and `left` of them have left,
under context `ctx` of the link (R508); `marks` are the cells that took a congestion mark here (R542). DEDUCED: assumption 48. -/
structure Copy where
  id : Nat
  pid : Nat
  out : Nat
  ports : List Nat
  next : Nat
  left : Nat
  ctx : Option Nat
  marks : List Nat
  deriving DecidableEq, Repr

/-- A schedule bank (R543 to R545), with the first tick of its force. Owner of output e in slot s at key 256s + e, 0xFFFF where unlisted. -/
structure SchedBank where
  start : Nat
  force : Nat
  slotLog2 : Nat
  nslots : Nat
  clear : Bool
  owners : Tab Nat
  deriving DecidableEq, Repr

/-- A section of a route image (R529). -/
structure RouteSection where
  kind : Nat
  first : Nat
  entries : List Nat
  deriving DecidableEq, Repr

/-- A ROUTE_STAGE whose image has passed its checks (R530). -/
structure RouteStage where
  ring : Nat
  idx : Nat
  copyActive : Bool
  sections : List RouteSection
  since : Nat
  deriving DecidableEq, Repr

/-- What an engine wants a buffer for (R551): a congestion map with its SEQ, a mirror record and its address, or a packet of its own
with the bytes of one unit. -/
inductive PoolUse where
  | map (seq : Nat) (map : Bytes)
  | record (addr : Nat) (b : Bytes)
  | packet (p : Packet) (unit : Nat)
  deriving DecidableEq, Repr

/-- A request that waits for a buffer of an empty pool (R551). -/
structure PoolWait where
  die : Nat
  pool : Nat
  use : PoolUse
  deriving DecidableEq, Repr

/-- A buffer of pools 1 to 5 that an engine holds (R551, R552): its number in the pool, its count, the tick at which it was taken, and the
packet whose payload it holds. -/
structure EngBuf where
  die : Nat
  pool : Nat
  no : Nat
  refs : Nat
  since : Nat
  pkt : Packet
  deriving DecidableEq, Repr

/-- The telemetry interval in progress (R559, R560). Port p and class c at key 4p + c; bin b of them at 8(4p + c) + b. -/
structure Telem where
  start : Nat
  seq : Nat
  hist : Tab Nat
  cellsOut : Tab Nat
  marked : Tab Nat
  policed : Tab Nat
  maxDepth : Tab Nat
  drops : Tab Nat
  deriving DecidableEq, Repr

def Telem.zero : Telem := ⟨0, 0, [], [], [], [], [], []⟩

/-- The crossbar and the part's engines at it. Outputs 0 to 127 are the package's ports, 0x200 + d is trunk d, 0x300 + e is edge stop e.
Packets of the part's engines carry the bytes of one unit of their payload (R507). DESIGN CHOICE: assumption 47. -/
structure Trellis where
  route0 : RouteVer
  route1 : RouteVer
  /-- Packets whose cells have all crossed to an edge stop, until an engine takes them. -/
  toEngines : List Pk
  fromEngines : List (Packet × Nat)
  pkts : List Pk
  copies : List Copy
  nextId : Nat
  staged : Option RouteStage
  bank0 : Option SchedBank
  bank1 : Option SchedBank
  /-- Tokens of shapers and policers, in 1/1,024 of a cell, of port p and class c at key 4p + c (R540, R541). -/
  shape : Tab Int
  police : Tab Int
  /-- Deficits of class c of output e at key 4e + c (R539). -/
  deficit : Tab Nat
  /-- Round-robin pointers of outputs and of inputs (R518). -/
  grantPtr : Tab Nat
  acceptPtr : Tab Nat
  poolWait : List PoolWait
  /-- Buffers of pools 1 to 5 in use (R551). -/
  bufs : List EngBuf
  /-- Registers of R565 that have been written in this tick, with the values that are still in force. -/
  qos : Tab Word64
  /-- Tick in which the latest route command completed while another was pending (R531). -/
  routeTick : Option Nat
  /-- Packets that have passed the filter of a mirror session since it was enabled (R555). -/
  mirrors : Tab Nat
  telem : Telem
  /-- Intervals of telemetry that have ended and whose maps are not written yet (R559). -/
  telemDone : List Telem
  /-- The packet that the engines have taken last (R554). The model's own. -/
  taken : Option Pk
  deriving DecidableEq, Repr

/-- DESIGN CHOICE: assumption 1. -/
def Trellis.empty : Trellis where
  route0 := RouteVer.empty
  route1 := RouteVer.empty
  toEngines := []
  fromEngines := []
  pkts := []
  copies := []
  nextId := 0
  staged := none
  bank0 := none
  bank1 := none
  shape := []
  police := []
  deficit := []
  grantPtr := []
  acceptPtr := []
  poolWait := []
  bufs := []
  qos := []
  routeTick := none
  mirrors := []
  telem := Telem.zero
  telemDone := []
  taken := none

/-- A time ordered set that waits for a flit slot (R371, R498): a request, or a reply with NOT_READY, HOPS, BOUND, T1 and T2.
The stamp of its leaving is taken in its slot (R372). -/
inductive TimeOut where
  | request
  | reply (notReady : Bool) (hops bound t1 t2 : Nat)
  deriving DecidableEq, Repr

/-- The encoder of a lane (R473, R474): the index of its codeword since the lane began to send, and the message bits that the codeword
holds so far, the first of them lowest. -/
structure LaneEnc where
  cw : Nat
  fill : Nat
  bits : Nat
  deriving DecidableEq, Repr

/-- A link: ports 0 to 127, the Graft trunks as 128 to 131, and the package's Taproot link as 132. -/
structure Link where
  /-- Successive stage-1 tests of a lane without a far termination while another lane of the port saw one (R481). -/
  tests : Tab Nat
  /-- The physical lanes that the port drives (R483), in logical order once known (R478). -/
  lanes : List Nat
  /-- Logical lanes received locked (R479). -/
  rx : List Nat
  /-- A full-rate retrain has failed, and the second of R501 has not passed. -/
  holdFull : Bool
  /-- A retrain leads the port through stages 2 to 4 (R494). -/
  retrain : Bool
  squelch : Bool
  /-- Payload of the peer's latest CAP flit (R479). -/
  cap : Option Bytes
  /-- CAP and TIME flits that wait for a flit slot (R475, R498). -/
  capOut : Bool
  timeOut : List TimeOut
  txSeq : Nat
  /-- The replay store (R488): sequence number and cell, oldest first. -/
  replay : List (Nat × Bytes)
  /-- Cells of the replay store that have been sent, or sent again, since the latest NAK (R491). -/
  sent : Nat
  credit : Tab Nat
  /-- Contexts of the packets open towards the far end, with their copies (R508). -/
  txCtx : Tab Nat
  nakSeq : Option Nat
  nakRun : Nat
  rxNext : Nat
  rxAny : Bool
  /-- The receiver discards cells until the expected one arrives, and the tick of its latest NAK (R490). -/
  nakTick : Option Nat
  nakDue : Bool
  ackDue : Bool
  sinceAck : Nat
  ackTick : Nat
  /-- Cells of each class whose credit the far end does not hold, and credits due to it (R486). -/
  held : Tab Nat
  owed : Tab Nat
  /-- Packets open from the far end, by context (R508). -/
  rxCtx : Tab Nat
  /-- Slots dealt, and slots taken, since the rotation over the logical lanes began (R472). -/
  txSlot : Nat
  rxSlot : Nat
  /-- Flits whose slot has not come: logical lane, an uncorrectable codeword under it, and the flit, in the order of their arrival. -/
  rxWait : List (Nat × Bool × Bytes)
  /-- Encoders of the logical lanes that have sent (R473). -/
  enc : Tab LaneEnc
  deriving DecidableEq, Repr

def Link.down : Link :=
  ⟨[], [], [], false, false, false, none, false, [], 0, [], 0, [], [], none, 0, 0, false, none, false, false, 0, 0, [], [], [],
    0, 0, [], []⟩

/-- A Graft trunk while a pair forms (R575, R577, R683, R684): its stage, what its sense contacts show
(0 no cable, 1 end A, 2 end B, 3 reversed, 4 outside every code), and the peer's latest PAIR payload. -/
structure TrunkSt where
  stage : Nat
  sense : Nat
  pair : Option Bytes
  /-- The part has sent a PAIR flit with PAIR_SEEN 1 on it since stage 4 began (R577). -/
  told : Bool
  deriving DecidableEq, Repr

def TrunkSt.fresh : TrunkSt := ⟨1, 0, none, false⟩

/-- The forming of a pair: its trunks and its successive timeouts (R575). -/
structure GraftSt where
  trunks : Tab TrunkSt
  tries : Nat
  /-- SELF_COORD before the merge, which an undone merge restores (R573, R575). -/
  coord : Nat
  deriving DecidableEq, Repr

def GraftSt.zero : GraftSt := ⟨[], 0, 0⟩

/-- The follower's synchronisation state (R368 to R378). Offset and delay samples are in sixteenths of a tick, so that the
halves of R372 are exact; everything else is in eighths where not said otherwise. DEDUCED: assumption 53. -/
structure TimeSt where
  /-- Eighths by which the counter's ticks lie behind whole stamps, from steps by parts of a tick (R366). -/
  sub : Nat
  /-- Eighths by which the part has corrected its counter in all (R378). -/
  applied : Int
  /-- Ticks until the phase may be corrected again (R368), and until the next exchange (R370). -/
  slewWait : Nat
  exchWait : Nat
  /-- The counter has been stepped in the tick in progress (R374). -/
  stepNow : Bool
  slewLeft : Int
  samples : List Int
  delays : List Int
  good : Nat
  missed : Nat
  /-- Exchange intervals since the last valid sample (R378). -/
  gap : Nat
  /-- T1 of the exchange in progress, once its request has left (R372). -/
  exchange : Option Nat
  /-- No exchange waits for its reply. -/
  answered : Bool
  /-- The sample, in sixteenths, by which the part waits to step (R374). -/
  stepWant : Option Int
  driftUp : Bool
  driftRun : Nat
  lastNet : Option Int
  /-- A GC_LOAD that waits for the next tick (R374). -/
  load : Option Word64
  deriving DecidableEq, Repr

def TimeSt.zero : TimeSt := ⟨0, 0, 0, 0, false, 0, [], [], 0, 0, 0, none, true, none, false, 0, none, none⟩

/-- Where a slice stands (R640, R641). -/
inductive SliceStage where
  | waiting | running
  deriving DecidableEq, Repr

/-- A slice, or a REPAIR, under way on a unit (R640 to R642, R645): periodic or requested by a mailbox request,
with its window of 8 MiB where the unit is a pseudo-channel. -/
structure SliceRun where
  unit : Nat
  window : Nat
  requested : Bool
  repair : Bool
  stage : SliceStage
  tick : Nat
  master : Master
  package : Nat
  seq : Nat
  deriving DecidableEq, Repr

/-- A mailbox request whose response comes later (R638, R641). -/
structure MbxWait where
  master : Master
  op : Nat
  package : Nat
  seq : Nat
  deriving DecidableEq, Repr

/-- A post-package repair that is running on a stack (R648). -/
structure PprRun where
  stack : Nat
  hard : Bool
  pc : Nat
  bank : Nat
  bankGroup : Nat
  row : Nat
  deriving DecidableEq, Repr

/-- What Shed keeps beside its registers. -/
structure ShedSt where
  cut : Nat
  calm : Nat
  restartFloor : Bool
  inletLog : Option Nat
  caps : List (Nat × Nat)
  scores : Tab Nat
  points : Tab Nat
  /-- Points of unit u in band b at key 8u + b (R618). -/
  bands : Tab Nat
  challenge : Option (Nat × Nat)
  grantEnd : Option Nat
  fw : Option Bytes
  runningHeader : Bytes
  runningBody : Tab Byte
  slices : List SliceRun
  rot : Tab Nat
  shutdown : Option MbxWait
  ppr : List PprRun
  /-- Lost lines and their sector masks (R654). -/
  lost : Tab Nat
  scrubPos : Nat
  resTick : Tab Nat
  bootBist : Bool
  /-- Voltage in mV and current in mA of each rail over the latest evaluation interval (R602, R604). -/
  rails : List (Nat × Nat)
  /-- By unit: corrected errors of a pseudo-channel towards its next point, and codewords that a lane has corrected in the
  scoring interval (R615). -/
  corrected : Tab Nat
  /-- Ticks of running firmware since the latest rise of HEARTBEAT (0), evaluation (1) and scoring (2), and since the latest periodic
  slice of compute die d (3 + d), and since the datapath check of a boot began (11) (R409, R604, R615, R639, R640). -/
  since : Tab Nat
  /-- The datapath check of a boot that has applied a BIST record runs (R639). -/
  checking : Bool
  deriving DecidableEq, Repr

/-- DESIGN CHOICE: assumption 1. -/
def ShedSt.zero : ShedSt :=
  ⟨0, 0, false, none, [], [], [], [], none, none, none, [], [], [], [], none, [], [], 0, [], false, [], [], [], false⟩

/-- The whole state of the block. DESIGN CHOICE: assumption 67. -/
structure State where
  /-- The commands that wait, first in, first out. -/
  pending : List Instr
  /-- The model's own counter: the index of the next free value. -/
  freeCtr : Nat
  pwr : Pwr
  nv : Nv
  aon : Aon
  /-- Registers by address; an unlisted register holds its reset value. -/
  regs : Tab Word64
  host : HostSt
  jobs : Tab Job
  ops : List Op
  held : List Held
  norms : List NormRun
  restores : List RestoreRun
  bedQ : List BedVal
  sieves : List SieveReq
  vy : Option VyProg
  /-- The model's own table of the OP codes that R294 does not state: at 64 × CLASS + OP, one more than the place of the operation in its
  class, or 0 for a reserved code. DESIGN CHOICE: assumption 32. -/
  vyOps : Tab Nat
  fences : List Fence
  xb : Trellis
  links : Tab Link
  graft : GraftSt
  time : TimeSt
  shed : ShedSt
  out : List Output
  deriving DecidableEq, Repr

/-- The entry of a job that was never enabled (R447). -/
def jobEntryReset : BitVec 1024 :=
  BitVec.ofNat 1024 (0x10 * 2 ^ 146 + 0x10 * 2 ^ 154 + 0x7D0 * 2 ^ 178 + 0x20 * 2 ^ 202 + 0x10 * 2 ^ 210
    + (List.range 17).foldl (fun v n => v + 0x10 * 2 ^ (8 * n + 218)) 0)

/-- A job as reset leaves it. -/
def Job.fresh : Job :=
  ⟨jobEntryReset, 0, [], [], [], [], [], [], [], [], none, [], [], [], 0, 0, [], [], [], [], [], []⟩

/-- The OP codes of the model at reset: every operation's place in its class, but for the floating class, whose codes R294 gives.
DESIGN CHOICE: assumption 32. -/
def vyOpsReset : Tab Nat :=
  [10, 24, 0, 2, 6, 3, 2, 9, 2, 2, 3].zipIdx.flatMap (fun c => (List.range c.1).map (fun k => (64 * c.2 + k, k + 1)))

/-- The machine right after POR_N has risen on a new S-grade part (R407, R688). DESIGN CHOICE: assumption 1. -/
def State.reset : State where
  pending := []
  freeCtr := 0
  pwr := ⟨false, .no, false, false, false, false, false, false, true, []⟩
  nv := ⟨0, 0x4241, Config.serial, (List.range 16).map (fun i => (256 + i, 1)), 2, 0, true, true, Config.factoryHeader, [],
    [], none, [], [], []⟩
  aon := ⟨[], 0, 0, 0, none⟩
  regs := []
  host := ⟨[], 0, [], [], [], [], false, [], none, [], 1⟩
  jobs := []
  ops := []
  held := []
  norms := []
  restores := []
  bedQ := []
  sieves := []
  vy := none
  vyOps := vyOpsReset
  fences := []
  xb := Trellis.empty
  links := []
  graft := GraftSt.zero
  time := TimeSt.zero
  shed := ShedSt.zero
  out := []

end Sys2Proof.Machine
end

