-- ==== Sys2Proof/Machine/Ops.lean ====
section
/-! DEFINITION. Named operations on registers, the trouble log, owners, command contexts and jobs that every family shares. -/
namespace Sys2Proof.Machine

/-- What a command answers. -/
abbrev Res := Host.Outcome State Fault Refusal

/-! ## Registers -/

/-- The value of the register at an address. -/
def State.rget (s : State) (a : Nat) : Word64 := tget (regReset a) s.regs a

/-- The register at an address set to a value. -/
def State.rset (s : State) (a : Nat) (v : Word64) : State := { s with regs := tset (regReset a) s.regs a v }

/-- A field of a register. -/
def State.fget (s : State) (a : Nat) (f : Bits) : Nat := bget f (s.rget a)

/-- A flag of a register. -/
def State.flag (s : State) (a : Nat) (f : Bits) : Bool := s.fget a f != 0

/-- A field of a register set to a value. -/
def State.fset (s : State) (a : Nat) (f : Bits) (v : Nat) : State := s.rset a (bset f (s.rget a) v)

/-- A counter field raised by `n`, saturating (R28). -/
def State.fadd (s : State) (a : Nat) (f : Bits) (n : Nat) : State := s.fset a f (satAdd f.width (s.fget a f) n)

/-- The global counter (R364). -/
def State.now (s : State) : Nat := (s.rget Reg.gcValue).toNat

/-- The package is powered and not stopped (R363, R609, R686, R689). DESIGN CHOICE: assumption 8. -/
def State.up (s : State) : Bool := !s.pwr.porLow && s.pwr.stopped == .no

/-- The clocks run (R362). DESIGN CHOICE: assumption 8. -/
def State.clocked (s : State) : Bool := s.up && s.pwr.locked

/-- The answer of a command whose trigger is `p`: its effect where the package runs and the trigger holds, else no change.
DESIGN CHOICE: assumptions 5 and 6. -/
def State.act (s : State) (p : Bool) (t : State) : Res := .next (if s.clocked && p then t else s)

/-- Shed runs: it goes on under its own oscillator after a clock failure (R363). DESIGN CHOICE: assumption 8. -/
def State.shedUp (s : State) : Bool := !s.pwr.porLow && (s.pwr.stopped == .no || s.pwr.stopped == .clock)

/-- The answer of a command of Shed's own, which a clock failure does not stop (R363). -/
def State.actShed (s : State) (p : Bool) (t : State) : Res := .next (if s.shedUp && s.pwr.locked && p then t else s)

/-- The index of the next free value. -/
def State.fresh (s : State) : Nat := s.freeCtr
/-- DESIGN CHOICE: assumption 2. -/
def State.bump (s : State) : State := { s with freeCtr := s.freeCtr + 1 }

/-- DESIGN CHOICE: assumption 10. -/
def State.emit (s : State) (o : Output) : State := { s with out := s.out ++ [o] }

/-- A function applied once for each element of a list. -/
def State.each {α : Type} (s : State) (l : List α) (f : State → α → State) : State := l.foldl f s

/-! ## Masters, cards and owners -/

/-- Number of a master (R586). -/
def masterNum : Master → Nat
  | .host0 => 0
  | .host1 => 1
  | .shed => 2

/-- The card through which a master's accesses come. -/
def masterCard : Master → Nat
  | .host0 => 0
  | .host1 => 1
  | .shed => 0

/-- The copy of a per-card register that a master sees (R411, R586, R597). -/
def cardReg (m : Master) (a : Nat) : Nat := a + cardSpan * masterCard m

def masterOf : Nat → Option Master
  | 0 => some .host0
  | 1 => some .host1
  | 2 => some .shed
  | _ => none

/-- Resource numbers of R580. -/
def resFabric : Nat := 4096
def resPorts : Nat := 4097
def resTime : Nat := 4099
def resGraft : Nat := 4101

/-- The owner of a resource as OWNER_MAP shows it: 0 to 2 a master, 3 free (R586). -/
def State.ownerOf (s : State) (res : Nat) : Nat :=
  s.fget (Reg.ownerMap (res / 16)) ⟨2 * (res % 16), 2⟩

def State.setOwner (s : State) (res o : Nat) : State :=
  s.fset (Reg.ownerMap (res / 16)) ⟨2 * (res % 16), 2⟩ o

def State.owns (s : State) (m : Master) (res : Nat) : Bool := s.ownerOf res == masterNum m

/-- Resource of an owner class of the register maps, for package 0's copies. -/
def ownRes : Own → Option Nat
  | .none => none
  | .jobRing => none
  | .layout => none
  | .fabric => some resFabric
  | .ports => some resPorts
  | .time => some resTime
  | .graft => some resGraft

/-- A write ignored because its master is not the owner (R402). -/
def State.notOwner (s : State) (m : Master) : State := s.fset (cardReg m Reg.tapEvents) F.tapEvents_notOwnerWrite 1

/-- A dropped access (R404). -/
def State.badAccess (s : State) (m : Master) : State := s.fset (cardReg m Reg.tapEvents) F.tapEvents_badAccess 1

/-- The expert gate is open (R461). -/
def State.gateOpen (s : State) : Bool := s.flag Reg.expertGate F.expertGate_open

/-- An expert access refused while the gate is closed (R461). DEDUCED: assumption 42. -/
def State.denied (s : State) : State := s.fadd Reg.expertGate F.expertGate_denied 1

/-- The package of the pair: 0 on a single package. -/
def State.pkgNo (s : State) : Nat := s.fget Reg.partId F.partId_package

/-- The package is one of a pair (R407). -/
def State.grafted (s : State) : Bool := s.flag Reg.partId F.partId_grafted

/-- A register of the package's own card (R402, R407): the card of package n of a pair is card n. -/
def State.ownTap (s : State) (a : Nat) : Nat := a + cardSpan * s.pkgNo

/-- The Taproot link of a card serves host memory: up, and not in D3hot (R401). -/
def State.linkUp (s : State) (card : Nat) : Bool :=
  s.flag (Reg.tapStatus + cardSpan * card) F.tapStatus_linkUp && !s.flag (Reg.tapStatus + cardSpan * card) F.tapStatus_d3hot

/-- A DMA read of host memory is made (R399). DESIGN CHOICE: assumption 9. -/
def State.hostRead (s : State) (card addr n : Nat) : State := s.emit (.hostRead card addr n)

/-- The card through which what belongs to FABRIC reaches host memory, and its interrupts go: that of its owner (R402, R569, R580, R671).
DEDUCED: assumption 43. -/
def State.fabricCard (s : State) : Nat :=
  match masterOf (s.ownerOf resFabric) with
  | some m => masterCard m
  | none => s.pkgNo

/-! ## Intervals of Shed -/

/-- Ticks of running firmware since an interval of Shed began. -/
def State.sinceTick (s : State) (k : Nat) : Nat := tget 0 s.shed.since k

/-- An interval of Shed begins again. -/
def State.restartTick (s : State) (k : Nat) : State := { s with shed := { s.shed with since := tset 0 s.shed.since k 0 } }

/-- A tick of running firmware in every interval. -/
def State.shedTick (s : State) : State :=
  if s.fget Reg.shedStatus F.shedStatus_bootState = 2 then
    { s with shed := { s.shed with since := (List.range 12).map (fun k => (k, s.sinceTick k + 1)) } }
  else s

/-! ## Trouble log and health -/

/-- Temperature band of a reading in units of 0.125 °C (R618). -/
def bandOf (v : Int) : Nat :=
  if v < 360 then 0 else if v < 440 then 1 else if v < 520 then 2 else if v < 600 then 3
  else if v < 680 then 4 else if v < 736 then 5 else if v < 800 then 6 else 7

/-- A sensor register read as a temperature (R598). -/
def State.tempAt (s : State) (a : Nat) : Int := bsgn F.temp_value (s.rget a)

/-- The stop of a bed of the package in the mesh: row and column (R596). -/
def bedStop (b : Nat) : Nat × Nat := (b % 17, 2 * (b / 34) + b % 34 / 17)

/-- The register of the sensor that serves a unit (R603): lanes, beds, pseudo-channels, stacks by the unit index of R602. -/
def sensorOf (unit : Nat) : Nat :=
  if unit < 512 then Reg.temp (48 + 5 * (unit / 128) + unit % 128 / 32)
  else if unit < 528 then Reg.temp 52
  else if unit < 656 then Reg.temp (52 + 5 * ((unit - 528) / 32))
  else if unit < 928 then
    let b := unit - 656
    Reg.temp (6 * ((bedStop b).2 / 2) + min ((bedStop b).1 / 3) 5)
  else if unit < 1696 then Reg.hbmTemp ((unit - 928) / 32)
  else Reg.hbmTemp (unit - 1696)

/-- The hottest die sensor (R611). -/
def State.hottestDie (s : State) : Int :=
  (List.range 68).foldl (fun m i => max m (s.tempAt (Reg.temp i))) (-2048)

/-- The band of a unit, or of the hottest die sensor where the entry names no unit of R602 (R611). -/
def State.unitBand (s : State) (unit : Option Nat) : Nat :=
  match unit with
  | some u => bandOf (s.tempAt (sensorOf u))
  | none => bandOf s.hottestDie

def unitLane (l : Nat) : Nat := l
def unitBed (b : Nat) : Nat := 656 + b
def unitPc (pc : Nat) : Nat := 928 + pc
def unitStack (k : Nat) : Nat := 1696 + k

/-- Layout of a trouble-log entry (R611). -/
def logEntry (tick seq source code band pkg osc sev unit detail : Nat) : BitVec 256 :=
  BitVec.ofNat 256 (tick % 2 ^ 64 + 2 ^ 64 * (seq % 2 ^ 32) + 2 ^ 96 * (source % 256) + 2 ^ 104 * (code % 256)
    + 2 ^ 112 * (band % 8) + 2 ^ 115 * (pkg % 2) + 2 ^ 116 * (osc % 2) + 2 ^ 117 * (sev % 4)
    + 2 ^ 128 * (unit % 2 ^ 16) + 2 ^ 144 * (detail % 2 ^ 112))

/-- An entry enters the trouble log; a full log loses its oldest held entry (R611, R613, R614). DEDUCED: assumption 61. -/
def State.logEvent (s : State) (source code sev unit detail : Nat) (banded : Option Nat) : State :=
  if s.pwr.standby then
    let e := logEntry s.now s.aon.nextSeq.toNat source code (s.unitBand banded)
      (s.fget Reg.partId F.partId_package) (if s.pwr.osc then 1 else 0) sev unit detail
    let full := decide (4096 ≤ s.aon.log.length)
    let log := (if full then s.aon.log.drop 1 else s.aon.log) ++ [e]
    let s := { s with aon := { s.aon with
      log := log
      nextSeq := s.aon.nextSeq + 1
      lost := if full then BitVec.ofNat 32 (satAdd 32 s.aon.lost.toNat 1) else s.aon.lost } }
    let s := if full then s.fset Reg.shedEvents F.shedEvents_logLost 1 else s
    if s.fget Reg.troubleHwm F.troubleHwm_hwm < log.length then s.fset Reg.troubleHwm F.troubleHwm_hwm log.length else s
  else s

/-- DETAIL of the entries of sources 0x01 and 0x03 to 0x09 (R652). -/
def logDetail (job : Option Nat) (tag : Option Nat) (gen loc : Nat) : Nat :=
  job.getD 0xFFF + 2 ^ 12 * tag.getD 0 % 2 ^ 22 + (if tag.isSome then 2 ^ 22 else 0) + 2 ^ 23 * (gen % 2 ^ 48)
    + 2 ^ 71 * (loc % 2 ^ 40)

/-- An entry about a unit of R602. -/
def State.logUnit (s : State) (source code sev unit : Nat) (detail : Nat) : State :=
  s.logEvent source code sev unit detail (some unit)

/-- Health points for a unit, in the interval and in the band of its sensor (R615, R618). -/
def State.addPoints (s : State) (unit n : Nat) : State :=
  let b := bandOf (s.tempAt (sensorOf unit))
  { s with shed := { s.shed with
    points := tset 0 s.shed.points unit (tget 0 s.shed.points unit + n)
    scores := tset 0 s.shed.scores unit (
      let v := tget 0 s.shed.scores unit
      v / 2048 * 2048 + b * 256 + v % 256)
    bands := tset 0 s.shed.bands (8 * unit + b) (satAdd 32 (tget 0 s.shed.bands (8 * unit + b)) n) } }

/-- STATE of a unit's health score (R617). -/
def State.unitState (s : State) (u : Nat) : Nat := nbits (tget 0 s.shed.scores u) 11 2

/-- The compute dies that have a store: none of their three stacks and 96 pseudo-channels has FAILED (R676). -/
def State.storeDies (s : State) : List Nat :=
  (List.range 8).filter (fun d =>
    (List.range 3).all (fun k => s.unitState (unitStack (3 * d + k)) != 3)
      && (List.range 96).all (fun k => s.unitState (unitPc (96 * d + k)) != 3))

/-- The compute dies of the logical switch that have a store, die d of package q as 8q + d (R566, R568, R676). Those of the other package of
a pair are all taken to have one. DESIGN CHOICE: assumption 7. -/
def State.shareDies (s : State) : List Nat :=
  let q := s.fget Reg.partId F.partId_package
  (List.range 16).filter (fun d =>
    if d / 8 = q then s.storeDies.contains (d % 8) else s.fget Reg.partId F.partId_grafted != 0)

/-- A bit of the pending-bit array of a card (R398). -/
def State.setPend (s : State) (card vector v : Nat) : State :=
  s.fset (Reg.msixPba (vector / 64) + cardSpan * card) ⟨vector % 64, 1⟩ v

/-- An MSI-X message through a card: a masked vector is pending until it is unmasked (R398, R456). PRESUMED: assumption 69. -/
def State.msix (s : State) (card vector : Nat) : State :=
  if s.flag (Reg.msixCtrl vector + cardSpan * card) F.msixCtrl_mask then s.setPend card vector 1
  else
    let a := cardSpan * card
    s.emit (.msix card vector (s.rget (Reg.msixAddr vector + a)).toNat (s.fget (Reg.msixData vector + a) F.msixData_data))

/-- A vector that is no longer masked sends its pending message (R398). PRESUMED: assumption 69. -/
def State.unmask (s : State) (card vector : Nat) : State :=
  if s.flag (Reg.msixPba (vector / 64) + cardSpan * card) ⟨vector % 64, 1⟩ then (s.setPend card vector 0).msix card vector else s

/-! ## Liveness (R670, R671) -/

/-- The LIVE bit of a port set or cleared; a change sets CHANGED and may interrupt the owner of FABRIC. -/
def State.setLive (s : State) (port : Nat) (v : Bool) : State :=
  let f : Bits := ⟨port % 32, 1⟩
  let a := Reg.liveMap (port / 32)
  if s.flag a f == v then s
  else
    let s := (s.fset a f (if v then 1 else 0)).fset (Reg.liveChanged (port / 32)) f 1
    if s.flag Reg.liveIrq F.liveIrq_irqEn then
      match masterOf (s.ownerOf resFabric) with
      | some m => s.msix (masterCard m) (s.fget Reg.liveIrq F.liveIrq_vector)
      | none => s
    else s

/-! ## The resource-owner table (R620 to R622) -/

def State.resUser (s : State) (e : Nat) : Nat := s.fget (Reg.resOwner e) F.resOwner_user

def State.resTake (s : State) (e user : Nat) : State :=
  let s := s.fset (Reg.resOwner e) F.resOwner_user user
  { s with shed := { s.shed with resTick := tput s.shed.resTick e s.now } }

def State.resFree (s : State) (e : Nat) : State :=
  let s := s.fset (Reg.resOwner e) F.resOwner_user 0
  { s with shed := { s.shed with resTick := tdel s.shed.resTick e } }

/-- A user may take an entry that is free, that it holds, or that a user of a higher code took in the same tick (R622). -/
def State.resCanTake (s : State) (e user : Nat) : Bool :=
  s.resUser e == 0 || s.resUser e == user
    || (decide (user < s.resUser e) && tfind s.shed.resTick e == some s.now)

/-- The lost-line list, whose length STORE_STATUS.LOST_LINES shows (R654, R700). -/
def State.setLost (s : State) (t : Tab Nat) : State :=
  let s := { s with shed := { s.shed with lost := t } }
  s.fset Reg.storeStatus F.storeStatus_lostLines t.length

/-! ## Jobs -/

/-- Fields of a job entry (R447). -/
abbrev J.enable : Bits := ⟨0, 1⟩
abbrev J.state : Bits := ⟨1, 2⟩
abbrev J.refuse : Bits := ⟨3, 4⟩
abbrev J.margin : Bits := ⟨7, 3⟩
abbrev J.anchorInit : Bits := ⟨10, 10⟩
abbrev J.epoch : Bits := ⟨20, 6⟩
abbrev J.layoutValid : Bits := ⟨26, 8⟩
abbrev J.key : Bits := ⟨34, 64⟩
abbrev J.nextGen : Bits := ⟨98, 48⟩
abbrev J.lsExp : Bits := ⟨146, 8⟩
abbrev J.lsLow : Bits := ⟨154, 8⟩
abbrev J.lsClean : Bits := ⟨162, 16⟩
abbrev J.lsInterval : Bits := ⟨178, 16⟩
abbrev J.lsMin : Bits := ⟨194, 8⟩
abbrev J.lsMax : Bits := ⟨202, 8⟩
abbrev J.lsInit : Bits := ⟨210, 8⟩
abbrev J.lsHist : Bits := ⟨218, 136⟩
abbrev J.slotBudget : Bits := ⟨354, 24⟩
abbrev J.storeBudget : Bits := ⟨378, 24⟩
abbrev J.coldBudget : Bits := ⟨402, 24⟩
abbrev J.eventBase : Bits := ⟨426, 16⟩
abbrev J.eventCount : Bits := ⟨442, 17⟩
abbrev J.ringBudget : Bits := ⟨459, 15⟩
abbrev J.stale : Bits := ⟨480, 32⟩
abbrev J.strayCells : Bits := ⟨512, 32⟩
abbrev J.late : Bits := ⟨544, 32⟩
abbrev J.slotsUsed : Bits := ⟨576, 24⟩
abbrev J.storeUsed : Bits := ⟨600, 24⟩
abbrev J.coldUsed : Bits := ⟨624, 24⟩
abbrev J.ringsUsed : Bits := ⟨648, 15⟩

/-- Values of JOB_STATE. -/
def jobFree : Nat := 0
def jobActive : Nat := 1
def jobEnding : Nat := 2
def jobRefused : Nat := 3

def State.job (s : State) (j : Nat) : Job := tget Job.fresh s.jobs j

def State.setJob (s : State) (j : Nat) (b : Job) : State := { s with jobs := tset Job.fresh s.jobs j b }

def State.modJob (s : State) (j : Nat) (f : Job → Job) : State := s.setJob j (f (s.job j))

def Job.get (b : Job) (f : Bits) : Nat := bget f b.entry
def Job.sgn (b : Job) (f : Bits) : Int := bsgn f b.entry
def Job.put (b : Job) (f : Bits) (v : Nat) : Job := { b with entry := bset f b.entry v }
def Job.cnt (b : Job) (f : Bits) (n : Nat) : Job := b.put f (satAdd f.width (b.get f) n)

/-- The job is ACTIVE. -/
def State.jobIs (s : State) (j st : Nat) : Bool := (s.job j).get J.state == st

/-! ## Descriptors and contexts -/

/-- Fields of a descriptor's header (R427). -/
abbrev D.opcode : Bits := ⟨0, 8⟩
abbrev D.waitN : Bits := ⟨8, 3⟩
abbrev D.sigEn : Bits := ⟨11, 1⟩
abbrev D.sigAny : Bits := ⟨12, 1⟩
abbrev D.repEn : Bits := ⟨13, 1⟩
abbrev D.rsv : Bits := ⟨14, 2⟩
abbrev D.sigEvent : Bits := ⟨16, 16⟩
abbrev D.wait (i : Nat) : Bits := ⟨32 + 16 * i, 16⟩
abbrev D.cookie : Bits := ⟨96, 32⟩
abbrev D.repAddr : Bits := ⟨128, 64⟩

/-- The parameter area of a descriptor (R427). -/
def descPar (d : BitVec 512) : BitVec 320 := BitVec.ofNat 320 (d.toNat / 2 ^ 192)

def Ctx.par (c : Ctx) : BitVec 320 := descPar c.desc
def Ctx.opcode (c : Ctx) : Nat := bget D.opcode c.desc
def Ctx.p (c : Ctx) (lo w : Nat) : Nat := bget ⟨lo, w⟩ c.par
def Ctx.ps (c : Ctx) (lo w : Nat) : Int := bsgn ⟨lo, w⟩ c.par
def Ctx.ref (c : Ctx) : Ref := ⟨c.ring, c.idx⟩
def Ctx.is (r : Ref) (c : Ctx) : Bool := c.ring == r.ring && c.idx == r.idx

/-- The job of a ring (R414). -/
def State.ringJob (s : State) (ring : Nat) : Nat := s.fget (Reg.ringCtrl ring) F.ringCtrl_jobId

def State.ctx (s : State) (r : Ref) : Option Ctx := s.host.ctxs.find? (Ctx.is r)

def State.modCtx (s : State) (r : Ref) (f : Ctx → Ctx) : State :=
  { s with host := { s.host with ctxs := updFirst (Ctx.is r) f s.host.ctxs } }

/-- A command's work ends with a status: it completes at its COMMAND_COMPLETE. -/
def Ctx.finish (st : Nat) (c : Ctx) : Ctx := { c with phase := .ended, status := st }

/-- Of two descriptors of a ring, by their pointer values, the first is the earlier one (R420). -/
def earlier (a b : Nat) : Bool := decide (a ≠ b ∧ (b + 2 ^ 32 - a) % 2 ^ 32 < 2 ^ 31)

/-- A command rejected without effect (R428). -/
def Ctx.reject (st : Nat) (c : Ctx) : Ctx := { c with phase := .ended, status := st, rejected := true }

/-- A command begins its work (R440 START_TICK). -/
def Ctx.start (t : Nat) (c : Ctx) : Ctx := { c with phase := .run, startTick := t }

def Ctx.setResult (f : Bits) (v : Nat) (c : Ctx) : Ctx := { c with result := bset f c.result v }
def Ctx.setReport (f : Bits) (v : Nat) (c : Ctx) : Ctx := { c with report := bset f c.report v }

def State.endCmd (s : State) (r : Ref) (st : Nat) : State := s.modCtx r (Ctx.finish st)
def State.rejectCmd (s : State) (r : Ref) (st : Nat) : State := s.modCtx r (Ctx.reject st)

/-! ## Status codes (R441, R601) -/

def stOk : Nat := 0x0000
def stOutFull : Nat := 0x0001
def stLate : Nat := 0x0002
def stRecvOverflow : Nat := 0x0003
def stBadOpcode : Nat := 0x0100
def stBadField : Nat := 0x0101
def stBadFormat : Nat := 0x0102
def stBadEvent : Nat := 0x0103
def stNotPermitted : Nat := 0x0104
def stCountLimit : Nat := 0x0105
def stStaleEpoch : Nat := 0x0106
def stBudget : Nat := 0x0107
def stShardRange : Nat := 0x0108
def stOverlap : Nat := 0x0109
def stGenMismatch : Nat := 0x010A
def stSeedling : Nat := 0x010B
def stTilesShort : Nat := 0x010C
def stNoHandle : Nat := 0x010D
def stHandleInUse : Nat := 0x010E
def stColdFull : Nat := 0x010F
def stBadRecord : Nat := 0x0110
def stBadProgram : Nat := 0x0111
def stNoNorm : Nat := 0x0112
def stMissingGradient : Nat := 0x0113
def stIncompleteRestore : Nat := 0x0114
def stNoOperation : Nat := 0x0115
def stTooLarge : Nat := 0x0116
def stFlagged : Nat := 0x0117
def stNotLocked : Nat := 0x0118
def stNotOwner : Nat := 0x0119
def stClaimLost : Nat := 0x011A
def stResourceHeld : Nat := 0x011B
def stUnopened : Nat := 0x0200
def stOvercount : Nat := 0x0201
def stCountMismatch : Nat := 0x0202
def stTimeout : Nat := 0x0203
def stPeerAbort : Nat := 0x0204
def stCancelled : Nat := 0x0205
def stFenced : Nat := 0x0206
def stAnchorMismatch : Nat := 0x0207
def stProgFault : Nat := 0x0208
def stImageDigest : Nat := 0x0209
def stXpCheck : Nat := 0x0300
def stArithFault : Nat := 0x0301
def stStoreLost : Nat := 0x0302
def stGradLost : Nat := 0x0303
def stDataLost : Nat := 0x0304
def stHostFault : Nat := 0x0305
def stUncorrectable : Nat := 0x0306
def stAuthFailed : Nat := 0x0400
def stWrongLifecycle : Nat := 0x0401
def stImageInvalid : Nat := 0x0402
def stShedBusy : Nat := 0x0403

/-- The member index that names no member (R229). -/
def noMember : Nat := 0xFFFFF

/-- The part offers only Seedling service (R409). -/
def State.seedling (s : State) : Bool := s.flag Reg.service F.service_seedling

/-- The lifecycle state permits no service (R632). -/
def State.retired (s : State) : Bool := s.fget Reg.lifecycleReg F.lifecycleReg_state == 4

/-- A SHUTDOWN has completed: no service until reset (R638). -/
def State.quiesced (s : State) : Bool := s.flag Reg.shedStatus F.shedStatus_quiesced

/-- The lifecycle state permits jobs and Runner service, and no SHUTDOWN has ended them (R632, R638). -/
def State.serves (s : State) : Bool := !s.retired && s.fget Reg.lifecycleReg F.lifecycleReg_state != 0 && !s.quiesced

/-- The beds of the package by BED_MAP state (R408). -/
def State.bedState (s : State) (b : Nat) : Nat :=
  s.fget (if b < 256 then Reg.bedMapLo (b / 16) else Reg.bedMapSpare) ⟨2 * (b % 16), 2⟩

/-- The active beds that are not out of service for a slice (R43, R641). -/
def State.bedsIn (s : State) : List Nat :=
  (List.range 272).filter (fun b => s.bedState b == 0 && !(s.shed.slices.any (fun r => r.unit == unitBed b)))

/-- The active beds of the other package of a pair, as this one numbers them (R406, R566). -/
def State.peerBedsIn (s : State) : List Nat :=
  ((List.range 272).filter (fun b => s.fget (Reg.bedMapPeer (b / 16)) ⟨2 * (b % 16), 2⟩ == 0)).map (· + 272)

/-- The active beds of the package (R407). -/
def State.bedsActive (s : State) : List Nat := (List.range 272).filter (fun b => s.bedState b == 0)

/-- The package's own coordinate (R587). -/
def State.self (s : State) : Nat := s.fget Reg.selfCoord F.selfCoord_coord

end Sys2Proof.Machine
end

