-- ==== Sys2Proof/Machine/Records.lean ====
section
/-! DEFINITION. Tensor records, histories, scales and anchors, the running maxima of a generation, its close and the loss scale. -/
namespace Sys2Proof.Machine

/-- Fields of a tensor record (R105, R166). -/
abbrev T.hist (n : Nat) : Bits := ⟨32 * n, 32⟩
abbrev T.marginWire : Bits := ⟨512, 4⟩
abbrev T.marginPub : Bits := ⟨516, 4⟩
abbrev T.wireFmt : Bits := ⟨520, 4⟩
abbrev T.pubFmt : Bits := ⟨524, 4⟩
abbrev T.fixedWire : Bits := ⟨528, 1⟩
abbrev T.fixedPub : Bits := ⟨529, 1⟩
abbrev T.tWireInit : Bits := ⟨544, 8⟩
abbrev T.tWire : Bits := ⟨552, 8⟩
abbrev T.tPubInit : Bits := ⟨560, 8⟩
abbrev T.tPub : Bits := ⟨568, 8⟩
abbrev T.head : Bits := ⟨576, 4⟩
abbrev T.count : Bits := ⟨580, 5⟩
abbrev T.genLast : Bits := ⟨592, 48⟩
abbrev T.nelem : Bits := ⟨640, 40⟩
abbrev T.id : Bits := ⟨680, 24⟩
abbrev T.job : Bits := ⟨704, 12⟩
abbrev T.group : Bits := ⟨716, 6⟩
abbrev T.frozen : Bits := ⟨722, 1⟩
abbrev T.scaleOnly : Bits := ⟨723, 1⟩
abbrev T.masterFmt : Bits := ⟨724, 4⟩
abbrev T.momentFmt : Bits := ⟨728, 4⟩
abbrev T.cols : Bits := ⟨732, 24⟩
abbrev T.owners : Bits := ⟨756, 16⟩
abbrev T.shardIndex : Bits := ⟨772, 16⟩
abbrev T.shardBase : Bits := ⟨788, 40⟩
abbrev T.shardLen : Bits := ⟨828, 40⟩
abbrev T.wmax : Bits := ⟨868, 32⟩
abbrev T.genStep : Bits := ⟨900, 48⟩
abbrev T.done : Bits := ⟨948, 40⟩
abbrev T.covered : Bits := ⟨988, 40⟩

/-- A tensor record. -/
abbrev Rec := BitVec 2048

/-- The record of a tensor that a job holds on the part. -/
def Job.record (b : Job) (t : Nat) : Option Rec := tfind b.records t

def Job.setRecord (b : Job) (t : Nat) (r : Rec) : Job := { b with records := tput b.records t r }

/-- The share rule: of `n` elements over `p` parts, share `k` has this base and this length (R163). -/
def shareOf (n p k : Nat) : Nat × Nat :=
  let q := n / p
  let r := n % p
  if k < r then (k * (q + 1), q + 1) else (r * (q + 1) + (k - r) * q, q)

/-! ## History and scales -/

/-- The valid history entries of a record, newest first (R105). -/
def validHist (r : Rec) : List Word32 :=
  (List.range (min (bget T.count r) 16)).map (fun i => BitVec.ofNat 32 (bget (T.hist ((bget T.head r + 31 - i) % 16)) r))

/-- The largest EXP among the valid entries that saw a finite non-zero value, none where there is none (R110, R131). -/
def histExp (r : Rec) : Option Int :=
  (validHist r).foldl (fun m e =>
    if maxrecExp e = -512 then m
    else match m with
      | none => some (maxrecExp e)
      | some x => some (max x (maxrecExp e))) none

/-- T_WIRE derived from the history (R110). -/
def wireScale (r : Rec) : Int :=
  match histExp r with
  | none => bsgn T.tWireInit r
  | some e =>
    if bflag T.fixedWire r then bsgn T.tWireInit r
    else max (-128) (min 127 (e - eMax (bget T.wireFmt r) + bget T.marginWire r))

/-- T_PUB for a target format and the job-wide maximum of the weights (R114, R115). -/
def pubScale (r : Rec) (fmt : Nat) (wmax : Word32) : Int :=
  if bflag T.fixedPub r ∨ maxrecExp wmax = -512 then bsgn T.tPubInit r
  else max (-128) (min 127 (maxrecExp wmax - eMax fmt + bget T.marginPub r))

/-- The history advances once with the job-wide maximum of a generation, and T_WIRE with it (R106, R111). -/
def advanceHistory (r : Rec) (gen : Nat) (m : Word32) : Rec :=
  let h := bget T.head r
  let r := bset (T.hist h) r m.toNat
  let r := bset T.head r ((h + 1) % 16)
  let r := bset T.count r (min (bget T.count r + 1) 16)
  let r := bset T.genLast r gen
  bset T.tWire r (toTwos 8 (wireScale r))

/-- The anchor derived from a record's history (R131, R132). The loss-scale exponents are those that the job table holds when the bucket
is admitted, whatever its GEN. DESIGN CHOICE: assumption 72. -/
def derivedAnchor (b : Job) (r : Rec) : Int :=
  match histExp r with
  | none => b.sgn J.anchorInit
  | some e => max (-512) (min 511 (e + max (b.get J.margin) 1 + (b.sgn J.lsExp - b.sgn J.lsLow)))

/-- The history can date its entries before a generation (R133). -/
def histDates (r : Rec) (gen : Nat) : Bool := bget T.count r == 0 || decide (bget T.genLast r < gen)

/-! ## Running maxima of a generation (R251) -/

def RunMax.is (t g : Nat) (m : RunMax) : Bool := m.tensor == t && m.gen == g

def Job.runMax (b : Job) (t g : Nat) : RunMax :=
  (b.maxima.find? (RunMax.is t g)).getD ⟨t, g, maxrecNone, [], none, false, true⟩

def Job.setRunMax (b : Job) (m : RunMax) : Job :=
  { b with maxima := m :: b.maxima.filter (fun x => !RunMax.is m.tensor m.gen x) }

def Job.dropRunMax (b : Job) (t g : Nat) : Job :=
  { b with maxima := b.maxima.filter (fun x => !RunMax.is t g x) }

/-- The set of a generation is complete: TSEQ 0 to the one marked LAST_OF_GEN. -/
def RunMax.complete (m : RunMax) : Bool :=
  match m.last with
  | none => false
  | some l => (List.range (l + 1)).all (fun i => m.seen.contains i)

/-- The history has advanced for a generation (R106). -/
def advanced (r : Rec) (g : Nat) : Bool := bget T.count r != 0 && decide (g ≤ bget T.genLast r)

/-- A record without a shard, or one whose buckets go to the members and not to the store, enters its history when the set is complete
(R107, R168); once for each generation, and the set of a replay enters nothing more (R106). DEDUCED: assumption 30. -/
def Job.settleMax (b : Job) (t g : Nat) : Job :=
  match b.record t with
  | none => b
  | some r =>
    let m := b.runMax t g
    if (bflag T.scaleOnly r || !m.bound) && m.complete then
      (if advanced r g then b else b.setRecord t (advanceHistory r g m.maxrec)).dropRunMax t g
    else b

/-- The maximum of one bucket enters the tensor's running maximum; one that comes after the tensor's STEP is discarded (R191, R251). -/
def Job.takeMax (b : Job) (t g tseq : Nat) (m : Word32) : Job :=
  match b.record t with
  | none => b
  | some r =>
    if bget T.genStep r = g ∧ !bflag T.scaleOnly r then b
    else
      let x := b.runMax t g
      (b.setRunMax { x with maxrec := maxrecMax x.maxrec m, seen := if x.seen.contains tseq then x.seen else tseq :: x.seen }).settleMax t g

/-- A bucket of a generation is admitted (R133). -/
def Job.noteAdmitted (b : Job) (t g : Nat) : Job :=
  match b.record t with
  | none => b
  | some _ => b.setRunMax { b.runMax t g with admitted := true }

/-- A generation of a tensor is in progress on the part: a bucket of it has been admitted, and the history has not advanced for it
(R133). -/
def Job.inProgress (b : Job) (t g : Nat) : Bool :=
  b.maxima.any (fun m => RunMax.is t g m && m.admitted) && !(match b.record t with
    | some r => advanced r g
    | none => false)

/-- The part learns which TSEQ is the tensor's last of a generation, and whether the job is store-bound (R107, R231, R251). -/
def Job.noteLast (b : Job) (t g tseq : Nat) (bound : Bool) : Job :=
  match b.record t with
  | none => b
  | some _ => (b.setRunMax { b.runMax t g with last := some tseq, bound := bound }).settleMax t g

/-! ## Loss scale and generations (R192, R199) -/

/-- The two last steps: LS_EXP enters LS_HIST, and LS_LOW is its least entry (R199). -/
def Job.pushLs (b : Job) (e : Int) : Job :=
  let h := (b.get J.lsHist * 256 + toTwos 8 e) % 2 ^ 136
  let low := (List.range 17).foldl (fun m n => min m (ofTwos 8 (h / 2 ^ (8 * n)))) 127
  ((b.put J.lsExp (toTwos 8 e)).put J.lsHist h).put J.lsLow (toTwos 8 low)

/-- The loss-scale state machine (R199); outcomes as in RESULT of STEP: 0 UPDATED, 1 SKIPPED, 2 UPDATED_FLAGGED. -/
def Job.lossScale (b : Job) (auto : Bool) (outcome : Nat) : Job :=
  let e := b.sgn J.lsExp
  if !auto then b.pushLs e
  else if outcome = 1 then (b.put J.lsClean 0).pushLs (max (e - 1) (b.sgn J.lsMin))
  else if outcome = 2 then (b.put J.lsClean 0).pushLs e
  else
    let c := b.get J.lsClean + 1
    if b.get J.lsInterval ≤ c then (b.put J.lsClean 0).pushLs (min (e + 1) (b.sgn J.lsMax))
    else (b.put J.lsClean c).pushLs e

/-- Every tensor record with a shard has stepped the job's generation (R168, R192). -/
def Job.allStepped (b : Job) (g : Nat) : Bool :=
  b.records.all (fun e => bflag T.scaleOnly e.2 || bget T.genStep e.2 == g)

/-- The close of a generation (R192, R275). -/
def Job.closeGen (b : Job) (auto : Bool) (outcome : Nat) : Job :=
  let g := b.get J.nextGen
  let b := (b.lossScale auto outcome).put J.nextGen (g + 1)
  { b with pubMax := b.pubMax.filter (fun x => decide (g ≤ x.gen)), blocks := b.blocks.filter (fun x => decide (g ≤ x.gen)),
           norms := b.norms.filter (fun n => n.gen != g), normMsgs := b.normMsgs.filter (fun n => n.gen != g),
           stats := b.stats.filter (fun x => x.gen != g), rowRecs := b.rowRecs.filter (fun x => x.gen != g) }

/-! ## Cold-frame handles (R209, R213) -/

def Job.handle (b : Job) (h : Nat) : Option Handle := b.handles.find? (fun x => x.handle == h)

/-- A handle leaves, and its pages are free (R213). -/
def Job.dropHandle (b : Job) (h : Nat) : Job :=
  match b.handle h with
  | none => b
  | some x =>
    let b := (b.put J.coldUsed (b.get J.coldUsed - x.pages)).put J.storeUsed (b.get J.storeUsed - x.storePages)
    { b with handles := b.handles.filter (fun y => y.handle != h) }

/-- A handle becomes `x`. -/
def Job.setHandle (b : Job) (x : Handle) : Job := { b with handles := b.handles.map (fun y => if y.handle = x.handle then x else y) }

end Sys2Proof.Machine
end

