-- ==== Sys2Proof/Machine/Rings.lean ====
section
/-! DEFINITION. Descriptor rings: reading, checking and completing commands, doorbells, interrupts, and the Taproot link. -/
namespace Sys2Proof.Machine

/-! ## Ring geometry -/

/-- Values of RING_STATUS.STATE (R414). -/
def ringIdle : Nat := 0
def ringRunning : Nat := 1
def ringDraining : Nat := 2
def ringHalted : Nat := 3

def State.ringState (s : State) (n : Nat) : Nat := s.fget (Reg.ringStatus n) F.ringStatus_state
def State.setRingState (s : State) (n st : Nat) : State := s.fset (Reg.ringStatus n) F.ringStatus_state st

/-- A ring halts with a cause (R421, R424, R450). -/
def State.haltRing (s : State) (n cause : Nat) : State :=
  (s.setRingState n ringHalted).fset (Reg.ringStatus n) F.ringStatus_cause cause

/-- Entries of a ring (R414). -/
def State.ringSize (s : State) (n : Nat) : Nat := 2 ^ s.fget (Reg.ringCtrl n) F.ringCtrl_log2Size
/-- Most commands accepted at once (R414). -/
def State.ringWindow (s : State) (n : Nat) : Nat :=
  let w := s.fget (Reg.ringCtrl n) F.ringCtrl_window
  if w = 0 then 256 else w
def State.cmdTail (s : State) (n : Nat) : Nat := s.fget (Reg.doorbell n) F.doorbell_cmdTail
def State.cplHead (s : State) (n : Nat) : Nat := s.fget (Reg.doorbell n) F.doorbell_cplHead
def State.cmdHead (s : State) (n : Nat) : Nat := s.fget (Reg.cmdHead n) F.cmdHead_value
def State.cplTail (s : State) (n : Nat) : Nat := s.fget (Reg.cplTail n) F.cplTail_value
def State.accepted (s : State) (n : Nat) : Nat := s.fget (Reg.accepted n) F.accepted_count

/-- A pointer difference (R420). -/
def ptrDiff (a b : Nat) : Nat := (a + 2 ^ 32 - b % 2 ^ 32) % 2 ^ 32

def State.ringX (s : State) (n : Nat) : RingX := tget RingX.none s.host.rings n
def State.setRingX (s : State) (n : Nat) (x : RingX) : State :=
  { s with host := { s.host with rings := tset RingX.none s.host.rings n x } }

/-- The card that serves a ring: that of the master that owns the ring's job (R569). -/
def State.ringCard (s : State) (n : Nat) : Nat :=
  match masterOf (s.ownerOf (s.ringJob n)) with
  | some m => masterCard m
  | none => 0

/-- A ring becomes IDLE: its job uses one ring less (R417, R447). -/
def State.idleRing (s : State) (n : Nat) : State :=
  (s.setRingState n ringIdle).modJob (s.ringJob n) (fun b => b.put J.ringsUsed (b.get J.ringsUsed - 1))

/-! ## Descriptor checks (R428) -/

/-- The commands that take a tag (R226). -/
def isTagged (op : Nat) : Bool := op == 0x01 || op == 0x03 || op == 0x04 || op == 0x05 || op == 0x06 || op == 0x07
/-- The reductions (R231). -/
def isReduction (op : Nat) : Bool := op == 0x01 || op == 0x03 || op == 0x04
/-- The fabric commands (R429). -/
def isFabric (op : Nat) : Bool := op == 0x13 || op == 0x14 || op == 0x15

/-- Bytes of a command's report, 0 where it has none (R429). -/
def reportBytes (op : Nat) : Nat :=
  if isReduction op then 256 else if 0x05 ≤ op ∧ op ≤ 0x07 ∨ 0x09 ≤ op ∧ op ≤ 0x0E then 64 else 0

/-- Reserved fields of each command's parameter area. -/
def parReserved : Nat → List Bits
  | 0x00 => [⟨99, 221⟩]
  | 0x01 => [⟨113, 4⟩, ⟨117, 2⟩, ⟨143, 12⟩, ⟨291, 8⟩]
  | 0x02 => [⟨99, 221⟩]
  | 0x05 => [⟨250, 70⟩]
  | 0x06 => [⟨128, 192⟩]
  | 0x07 => [⟨151, 169⟩]
  | 0x08 => [⟨145, 175⟩]
  | 0x09 => [⟨195, 125⟩]
  | 0x0A => [⟨118, 202⟩]
  | 0x0B => [⟨107, 5⟩, ⟨168, 152⟩]
  | 0x0C => [⟨144, 16⟩, ⟨216, 104⟩]
  | 0x0D => [⟨179, 141⟩]
  | 0x0E => [⟨50, 1⟩, ⟨179, 141⟩]
  | 0x0F => [⟨234, 86⟩]
  | 0x10 => [⟨23, 297⟩]
  | 0x11 => [⟨23, 297⟩]
  | 0x12 => [⟨67, 253⟩]
  | 0x13 => [⟨171, 149⟩]
  | 0x14 => [⟨89, 231⟩]
  | 0x15 => [⟨65, 255⟩]
  | 0x16 => [⟨104, 216⟩]
  | _ => []

/-- A field of the header or a reserved bit breaks R428. -/
def badField (d : BitVec 512) : Bool :=
  let op := bget D.opcode d
  let n := bget D.waitN d
  bget D.rsv d != 0 || (parReserved op).any (fun f => bget f (descPar d) != 0) || decide (4 < n)
    || (List.range 4).any (fun i => decide (n ≤ i) && bget (D.wait i) d != 0)
    || (!bflag D.repEn d && bget D.repAddr d != 0)
    || (bflag D.repEn d && bget D.repAddr d % 64 != 0)
    || (bflag D.repEn d && reportBytes op == 0)

/-- An event lies in the job's range (R428, R447). -/
def Job.hasEvent (b : Job) (e : Nat) : Bool :=
  decide (b.get J.eventBase ≤ e ∧ e < b.get J.eventBase + b.get J.eventCount)

/-- CANCEL of a LAUNCH_AT (R381). -/
def isCancel (d : BitVec 512) : Bool := bget D.opcode d == 0x12 && bflag ⟨66, 1⟩ (descPar d)

/-- A wait event or the signal event lies outside the job's range. -/
def badEvent (b : Job) (d : BitVec 512) : Bool :=
  (List.range 4).any (fun i => decide (i < bget D.waitN d) && !b.hasEvent (bget (D.wait i) d))
    || ((bflag D.sigEn d || isCancel d) && !b.hasEvent (bget D.sigEvent d))

/-- The check of a descriptor when it is read, in the order of R428's table: the status of the first failure. -/
def descCheck (s : State) (ring : Nat) (d : BitVec 512) : Option Nat :=
  let op := bget D.opcode d
  let b := s.job (s.ringJob ring)
  if s.retired || s.fget Reg.lifecycleReg F.lifecycleReg_state == 0 then some stNotPermitted
  else if 0x16 < op then some stBadOpcode
  else if badField d then some stBadField
  else if badEvent b d then some stBadEvent
  else if isFabric op && !s.flag (Reg.ringCtrl ring) F.ringCtrl_fabric then some stNotPermitted
  else if isTagged op && !bflag ⟨J.layoutValid.lo + bget ⟨16, 3⟩ (descPar d), 1⟩ b.entry then some stBadField
  else if op == 0x12 && bflag D.sigAny d then some stBadField
  else if op == 0x12 && decide (s.now + 2 ^ 40 < bget ⟨0, 64⟩ (descPar d)) then some stBadField
  else none

/-! ## DESCRIPTOR_READ -/

/-- Pending LAUNCH_ATs (R386). -/
def State.launches (s : State) : List Ctx := s.host.ctxs.filter (fun c => c.opcode == 0x12 && c.phase != .ended)

/-- TIME_STATUS.PENDING follows the pending LAUNCH_ATs (R386, R394). -/
def State.countLaunches (s : State) : State := s.fset Reg.timeStatus F.timeStatus_pending (min s.launches.length 1023)

/-- A held command waits for the LAUNCH_AT limit (R386, R423). -/
def State.holdsBack (s : State) (n : Nat) : Bool :=
  match (s.ringX n).heldDesc with
  | some d => bget D.opcode d == 0x12 && decide (1024 ≤ s.launches.length)
  | none => false

/-- The part may read the descriptor at CMD_HEAD of a ring (R401, R423). -/
def State.ringReady (s : State) (n : Nat) : Bool :=
  decide (n < 16384) && s.ringState n == ringRunning && ptrDiff (s.cmdTail n) (s.cmdHead n) != 0
    && decide (s.accepted n < s.ringWindow n)
    && decide (ptrDiff (s.cmdHead n) (s.cplHead n) < s.ringSize n)
    && decide (s.host.ctxs.length < 32768) && s.linkUp (s.ringCard n)
    && !s.flag Reg.shedStatus F.shedStatus_quiesced && !s.pwr.recovery && !s.holdsBack n

/-- The rings whose status differs from reset, in ascending order. -/
def State.ringsListed (s : State) : List Nat :=
  s.regs.filterMap (fun e =>
    if 0x100014 ≤ e.1 ∧ e.1 < 0x200000 ∧ (e.1 - 0x100014) % 64 = 0 then some ((e.1 - 0x100014) / 64) else none)

/-- The next ready ring in round-robin order of ring number (R423). DESIGN CHOICE: assumption 22. -/
def State.nextRing (s : State) : Option Nat :=
  let l := s.ringsListed.filter s.ringReady
  (l.find? (fun n => decide (s.host.rr < n))).orElse (fun _ => l.head?)

/-- Bytes of a summary (R454, R458). -/
def surveyBytes : Nat := 2768896

/-- RESULT of a command before its work has given one: TAG, with TSEQ, TENSOR_ID and ROOT of a reduction; TARGET and the
synchronisation state of a LAUNCH_AT; the bytes that a SURVEY needs (R438). -/
def firstResult (s : State) (d : BitVec 512) : BitVec 96 :=
  let op := bget D.opcode d
  let p (lo w : Nat) : Nat := bget ⟨lo, w⟩ (descPar d)
  if isReduction op then BitVec.ofNat 96 (p 0 10 + 2 ^ 10 * p 259 16 + 2 ^ 26 * p 20 24 + 2 ^ 58 * p 189 1)
  else if isTagged op then BitVec.ofNat 96 (p 0 10)
  else if op = 0x12 then
    BitVec.ofNat 96 (p 0 64 + 2 ^ 64 * s.fget Reg.timeStatus F.timeStatus_state + 2 ^ 66 * s.fget Reg.timeStatus F.timeStatus_hops
      + 2 ^ 71 * (s.fget Reg.timeBound F.timeBound_value % 2 ^ 16))
  else if op = 0x16 then BitVec.ofNat 96 (2 ^ 64 * surveyBytes)
  else 0

/-- A report before a command's work has given one: no member is named (R439, R440). -/
def firstReport (op : Nat) : BitVec 2048 :=
  if isReduction op then
    bset ⟨213, 20⟩ (bset ⟨816, 20⟩ (bset ⟨836, 20⟩ (bset ⟨904, 20⟩ 0 noMember) noMember) noMember) noMember
  else if reportBytes op = 64 then bset ⟨240, 20⟩ (bset ⟨260, 20⟩ 0 noMember) noMember
  else 0

/-- A new context for a command of a ring (R423, R433). -/
def newCtx (s : State) (ring : Nat) (d : BitVec 512) : Ctx :=
  let c : Ctx := ⟨ring, s.cmdHead ring, d, if bget D.waitN d = 0 then .free else .waits, false, s.now, s.now, none, 0, false, none,
    s.seedling, none, [], 0, firstResult s d, firstReport (bget D.opcode d)⟩
  match descCheck s ring d with
  | some st => c.reject st
  | none => c

/-- A command is accepted: CMD_HEAD advances and ACCEPTED rises (R423). -/
def State.accept (s : State) (ring : Nat) (d : BitVec 512) : State :=
  let c := newCtx s ring d
  let s := s.setRingX ring { s.ringX ring with heldDesc := none }
  let s := { s with host := { s.host with rr := ring, ctxs := s.host.ctxs ++ [c] } }
  let s := s.fset (Reg.cmdHead ring) F.cmdHead_value (s.cmdHead ring + 1)
  (s.fset (Reg.accepted ring) F.accepted_count (s.accepted ring + 1)).countLaunches

/-- A DMA read of host memory failed: the card's event and the trouble-log entry (R411, R651). -/
def State.hostReadErr (s : State) (card ring : Nat) (job : Option Nat) : State :=
  (s.fset (Reg.tapEvents + cardSpan * card) F.tapEvents_hostReadErr 1).logEvent 0x05 2 2 0 (logDetail job none 0 ring) none

/-! ## Events (R430 to R434) -/

def State.event (s : State) (e : Nat) : Event := tget Event.zero s.host.events e
def Event.isSet (e : Event) : Bool := decide (e.target.toNat ≤ e.count.toNat)
def Event.signal (e : Event) : Event := { e with count := BitVec.ofNat 32 (satAdd 32 e.count.toNat 1) }

def State.setEvent (s : State) (e : Nat) (v : Event) : State :=
  { s with host := { s.host with events := tset Event.zero s.host.events e v } }

/-- A signal of the tick in progress (R432, R434). DEDUCED: assumption 65. -/
def State.signal (s : State) (e : Nat) : State :=
  let s := s.setEvent e (s.event e).signal
  { s with host := { s.host with tickSignals := e :: s.host.tickSignals } }

/-- Every wait event of a command is set (R433). -/
def State.waitsSet (s : State) (c : Ctx) : Bool :=
  (List.range 4).all (fun i => decide (bget D.waitN c.desc ≤ i) || (s.event (bget (D.wait i) c.desc)).isSet)

/-! ## Completions (R425, R426, R436, R437) -/

/-- Descriptor p of a ring (R420). -/
def State.descAddr (s : State) (n p : Nat) : Nat := (s.rget (Reg.cmdBase n)).toNat + 64 * (p % s.ringSize n)

/-- The ring's MSI-X message is sent: it covers every entry so far (R426). -/
def State.ringMsix (s : State) (n : Nat) : State :=
  let s := s.msix (s.ringCard n) (s.fget (Reg.ringIrq n) F.ringIrq_vector)
  s.setRingX n { s.ringX n with since := 0, firstTick := none }

/-- The ring's message is due by COUNT: entries written since the last message count whatever IRQ_EN was (R426). -/
def State.ringDue (s : State) (n : Nat) : State :=
  if s.flag (Reg.ringIrq n) F.ringIrq_irqEn && decide (max (s.fget (Reg.ringIrq n) F.ringIrq_count) 1 ≤ (s.ringX n).since) then
    s.ringMsix n
  else s

/-- Coalescing after an entry has been written (R426). -/
def State.coalesce (s : State) (n : Nat) : State :=
  let x := s.ringX n
  (s.setRingX n { x with since := x.since + 1, firstTick := some (x.firstTick.getD s.now) }).ringDue n

/-- An entry of a completion ring but for its PHASE (R436). -/
def cplEntry (c : Ctx) (reported signalled : Bool) (tick : Nat) : BitVec 256 :=
  BitVec.ofNat 256 (c.status + 2 ^ 16 * c.opcode + (if reported then 2 ^ 25 else 0) + (if signalled then 2 ^ 26 else 0)
    + 2 ^ 32 * (c.idx % 2 ^ 32) + 2 ^ 64 * bget D.cookie c.desc + 2 ^ 96 * (tick % 2 ^ 64) + 2 ^ 160 * c.result.toNat)

/-- A report and then its completion entry are written, the tag is free, and the interrupt follows (R226, R425, R437). -/
def State.writeCpl (s : State) (h : HeldCpl) : State :=
  let s : State := { s with ops := s.ops.filter (fun o => !(o.ring == h.ring && o.idx == bget ⟨32, 32⟩ h.entry)) }
  let n := s.cplTail h.ring
  let s := match h.report with
    | some (a, b) => s.emit (.hostWrite a b)
    | none => s
  let phase := (n / s.ringSize h.ring + 1) % 2
  let addr := (s.rget (Reg.cplBase h.ring)).toNat + 32 * (n % s.ringSize h.ring)
  let s := s.emit (.completion h.ring addr (bset ⟨24, 1⟩ h.entry phase))
  let s := s.fset (Reg.cplTail h.ring) F.cplTail_value (n + 1)
  s.coalesce h.ring

/-- A completion is written, or held in order while Taproot is down (R401). -/
def State.deliver (s : State) (h : HeldCpl) : State :=
  let card := s.ringCard h.ring
  if s.linkUp card && !s.host.outHeld.any (fun x => s.ringCard x.ring == card) then s.writeCpl h
  else { s with host := { s.host with outHeld := s.host.outHeld ++ [h] } }

/-- A command signals when it completes (R428, R432); a LAUNCH_AT signals by its own rules. An event outside the job's range is no
event of the command (R431). -/
def Ctx.signals (c : Ctx) : Bool :=
  bflag D.sigEn c.desc && c.opcode != 0x12
    && (bflag D.sigAny c.desc || (!c.rejected && (c.status == stOk || c.status == stOutFull)))

/-- What a command writes before its entry: its report, with START_TICK in a 64-byte one (R440); the result block of a
SIEVE_RUN that its descriptor's checks did not reject (R329, R428). -/
def Ctx.reportOut (c : Ctx) : Option (Nat × Bytes) :=
  let n := reportBytes c.opcode
  if c.opcode = 0x0F then
    if c.report = 0 then none else some (c.p 64 64, leBytes 256 c.report.toNat)
  else if bflag D.repEn c.desc && !c.rejected && n != 0 then
    let r := if n = 64 then bset ⟨320, 64⟩ c.report c.startTick else c.report
    some (bget D.repAddr c.desc, leBytes n r.toNat)
  else none

/-- The close of a generation by a STEP that completes, with CLOSED and LS_EXP in its RESULT (R192, R193, R438). -/
def State.stepClose (s : State) (c : Ctx) : State × Ctx :=
  let j := s.ringJob c.ring
  let b := s.job j
  if c.opcode == 0x09 && !c.rejected && c.status == stOk && b.allStepped (b.get J.nextGen) && !b.records.isEmpty
      && c.p 48 48 == b.get J.nextGen then
    let b := b.closeGen (c.p 194 1 == 1) (bget ⟨0, 2⟩ c.result)
    (s.setJob j b, (c.setResult ⟨2, 1⟩ 1).setResult ⟨3, 8⟩ (b.get J.lsExp))
  else (s, c)

/-- A FETCH with RELEASE that completes, but for one that was refused, releases its handle (R213, R214, R651). -/
def State.fetchClose (s : State) (c : Ctx) : State :=
  match c.park with
  | some k => if c.p 143 1 = 1 then s.modJob (s.ringJob c.ring) (fun b => b.dropHandle k) else s
  | none => s

/-- A PARK that completes: its handle exists from then on (R213). -/
def State.parkClose (s : State) (c : Ctx) : State :=
  if c.opcode == 0x0B && !c.rejected && c.status == stOk then
    s.modJob (s.ringJob c.ring) (fun b => match b.handle (c.p 0 32) with
      | some h => b.setHandle { h with live := true }
      | none => b)
  else s

/-- One CHECKPOINT of a job no longer holds its tagged commands back (R217, R234). -/
def State.checkpointOff (s : State) (j : Nat) : State := s.modJob j (fun b => { b with checkpoint := b.checkpoint - 1 })

/-- A CHECKPOINT that had started completes: its job's tagged commands go on (R217). -/
def State.checkpointClose (s : State) (c : Ctx) : State :=
  if c.opcode == 0x0D && c.begun then s.checkpointOff (s.ringJob c.ring) else s

/-- Fields of TIME_STATUS that a LAUNCH_AT reports (R388, R394, R438). -/
def State.launchResult (s : State) (x : Ctx) : BitVec 96 :=
  BitVec.ofNat 96 (x.p 0 64 + 2 ^ 64 * s.fget Reg.timeStatus F.timeStatus_state + 2 ^ 66 * s.fget Reg.timeStatus F.timeStatus_hops
    + 2 ^ 71 * (s.fget Reg.timeBound F.timeBound_value % 2 ^ 16))

/-- A LAUNCH_AT that has not signalled reports the synchronisation state of the tick in which it completes (R388). -/
def State.launchClose (s : State) (c : Ctx) : Ctx :=
  if c.opcode == 0x12 && c.sigTick.isNone then { c with result := s.launchResult c } else c

/-- The settings of a NOP that come before another's in the order of R197: release tick, ring number, descriptor order. -/
def EvSet.before (a b : EvSet) : Bool :=
  decide (a.free < b.free ∨ a.free = b.free ∧ (a.ring < b.ring ∨ a.ring = b.ring ∧ earlier a.idx b.idx))

/-- The signals that an event has had in the tick in progress: they count towards a new setting (R434). -/
def State.signalsOf (s : State) (e : Nat) : Nat := s.host.tickSignals.count e

/-- The settings of a NOP come too late in this tick: a command has begun whose waits they would undo, and they wait for the next (R433,
R434). DEDUCED: assumption 65. -/
def State.setsLate (s : State) (x : Ctx) : Bool :=
  x.opcode == 0x00 && !x.rejected && x.status == stOk && x.p 0 2 == 1
    && s.host.ctxs.any (fun c => c.phase != .waits && c.phase != .free && !c.rejected && c.freeTick == s.now
      && (List.range (bget D.waitN c.desc)).any (fun i =>
        decide (x.p 2 16 ≤ bget (D.wait i) c.desc ∧ bget (D.wait i) c.desc < x.p 2 16 + x.p 18 17)))

/-- A command that became free of its waits in this tick waits again where a setting of the tick undoes what it waited for (R433, R434). -/
def State.rewait (s : State) : State :=
  { s with host := { s.host with ctxs := s.host.ctxs.map (fun c =>
    if c.phase == .free && bget D.waitN c.desc != 0 && c.freeTick == s.now && !s.waitsSet c then { c with phase := .waits } else c) } }

/-- EVENT_SET of a NOP that completes: COUNT and TARGET to a range of events, in the order of R197 among the settings of the tick, and
before every signal of the tick (R434, R435). DEDUCED: assumption 65. -/
def State.eventSet (s : State) (x : EvSet) (count target : Nat) : State :=
  let later := s.host.tickSets.filter (fun y => x.before y)
  let s := s.each ((rangeFrom x.first x.n).filter (fun e => !later.any (fun y => decide (y.first ≤ e ∧ e < y.first + y.n)))) (fun s e =>
    s.setEvent e ⟨BitVec.ofNat 32 (satAdd 32 count (s.signalsOf e)), BitVec.ofNat 32 target⟩)
  ({ s with host := { s.host with tickSets := x :: s.host.tickSets } } : State).rewait

/-- A NOP with EVENT_SET that completes makes its settings (R434, R435). -/
def State.nopClose (s : State) (c : Ctx) : State :=
  if c.opcode == 0x00 && !c.rejected && c.status == stOk && c.p 0 2 == 1 then
    s.eventSet ⟨c.freeTick, c.ring, c.idx, c.p 2 16, c.p 18 17⟩ (c.p 35 32) (c.p 67 32)
  else s

/-- ROUTE_STAGE and ROUTE_SWAP run one at a time (R530). -/
def isRouteCmd (c : Ctx) : Bool := c.opcode == 0x14 || c.opcode == 0x15

/-- A command leaves the part: its settings and its signal, its context and its entry (R417, R432, R436). Its tag stays taken until the
entry is written (R226). -/
def State.complete (s : State) (c : Ctx) : State :=
  let (s, c) := ((((s.nopClose c).fetchClose c).parkClose c).checkpointClose c).stepClose (s.launchClose c)
  let sig := c.signals && (s.job (s.ringJob c.ring)).hasEvent (bget D.sigEvent c.desc)
  let signalled := sig || c.sigTick.isSome
  let s := if sig then s.signal (bget D.sigEvent c.desc) else s
  let rep := c.reportOut
  let s := { s with host := { s.host with ctxs := s.host.ctxs.filter (fun x => !Ctx.is c.ref x) } }
  let s := (s.fset (Reg.accepted c.ring) F.accepted_count (s.accepted c.ring - 1)).countLaunches
  let s := s.deliver ⟨c.ring, cplEntry c (rep.isSome && c.opcode != 0x0F) signalled (c.sigTick.getD s.now), rep⟩
  let s := if c.opcode == 0x14 && !c.rejected && c.status == stOk then s.fset Reg.routeStatus F.routeStatus_writing 0 else s
  let s := if isRouteCmd c && s.host.ctxs.any isRouteCmd then { s with xb := { s.xb with routeTick := some s.now } } else s
  if s.ringState c.ring == ringDraining && s.accepted c.ring == 0 then s.idleRing c.ring else s

/-- IRQ_DELAY: the coalescing delay after the first entry that no message covers has passed (R426). -/
def execIrqDelay (ring : Nat) (s : State) : Res :=
  let d := s.fget (Reg.ringIrq ring) F.ringIrq_delay
  match (s.ringX ring).firstTick with
  | none => .next s
  | some t =>
    s.act (s.flag (Reg.ringIrq ring) F.ringIrq_irqEn && d != 0 && decide (t + 1024 * d ≤ s.now)) (s.ringMsix ring)

/-! ## Doorbells (R419, R421) -/

/-- A new CPL_HEAD is out of range. -/
def State.badHead (s : State) (n head : Nat) : Bool :=
  decide (s.ringSize n < ptrDiff head (s.cplHead n)) || decide (s.ringSize n < ptrDiff (s.cplTail n) head)

/-- A new CMD_TAIL is out of range against a CPL_HEAD. -/
def State.badTail (s : State) (n tail head : Nat) : Bool :=
  decide (s.ringSize n < ptrDiff tail (s.cmdTail n)) || decide (s.ringSize n < ptrDiff tail head)

/-- A doorbell write: both halves are taken, or the ring halts and neither is (R421). -/
def State.ringDoorbell (s : State) (n : Nat) (half : Half) (v : Word64) : State :=
  let tail := v.toNat % 2 ^ 32
  let head := match half with
    | .both => v.toNat / 2 ^ 32
    | _ => v.toNat % 2 ^ 32
  let bad := match half with
    | .both => s.badHead n head || s.badTail n tail head
    | .tail => s.badTail n tail (s.cplHead n)
    | .head => s.badHead n head
  if bad then (s.haltRing n 1).logEvent 0x05 3 1 0 (logDetail (some (s.ringJob n)) none 0 n) none
  else match half with
    | .both => (s.fset (Reg.doorbell n) F.doorbell_cmdTail tail).fset (Reg.doorbell n) F.doorbell_cplHead head
    | .tail => s.fset (Reg.doorbell n) F.doorbell_cmdTail tail
    | .head => s.fset (Reg.doorbell n) F.doorbell_cplHead head

/-- DOORBELL: a write of a ring's doorbell by the owner of its job; a ring that is not RUNNING ignores it (R419). -/
def execDoorbell (m : Master) (ring : Nat) (half : Half) (value : Word64) (s : State) : Res :=
  s.act (decide (ring < 16384))
    (if !s.owns m (s.ringJob ring) then s.notOwner m
     else if s.ringState ring != ringRunning then s
     else s.ringDoorbell ring half value)

/-! ## Enabling and disabling (R415 to R417) -/

/-- The configuration fields of a RING_CTRL write (R414). -/
def ringCfg (v : Word32) : Nat := v.toNat / 2 % 2 ^ 25

/-- The configuration part of a RING_CTRL write: taken while IDLE, else ignored and, if it would change a field, noted (R416). -/
def State.ringConfig (s : State) (n : Nat) (v : Word32) : State :=
  if s.ringState n == ringIdle then s.fset (Reg.ringCtrl n) ⟨1, 25⟩ (ringCfg v)
  else if s.fget (Reg.ringCtrl n) ⟨1, 25⟩ != ringCfg v then s.fset (Reg.ringStatus n) F.ringStatus_cfgIgnored 1
  else s

/-- What a ring needs to run (R415). -/
def State.ringMayRun (s : State) (m : Master) (n : Nat) : Bool :=
  let l := s.fget (Reg.ringCtrl n) F.ringCtrl_log2Size
  let b := s.job (s.ringJob n)
  decide (4 ≤ l ∧ l ≤ 16) && (s.rget (Reg.cmdBase n)).toNat % 4096 == 0 && (s.rget (Reg.cplBase n)).toNat % 4096 == 0
    && b.get J.state == jobActive && s.owns m (s.ringJob n) && decide (b.get J.ringsUsed + 1 ≤ b.get J.ringBudget)

/-- A ring starts: IDLE to RUNNING with every pointer at 0 (R415). -/
def State.startRing (s : State) (n : Nat) : State :=
  let s := (s.setRingState n ringRunning).fset (Reg.ringStatus n) F.ringStatus_cause 0
  let s := ((s.fset (Reg.cmdHead n) F.cmdHead_value 0).fset (Reg.cplTail n) F.cplTail_value 0).rset (Reg.doorbell n) 0
  let s := s.setRingX n RingX.none
  s.modJob (s.ringJob n) (fun b => b.put J.ringsUsed (b.get J.ringsUsed + 1))

/-- RING_ENABLE: a RING_CTRL write with ENABLE at 1 (R415, R416). -/
def execRingEnable (m : Master) (ring : Nat) (ctrl : Word32) (s : State) : Res :=
  s.act (decide (ring < 16384))
    (if !s.owns m (s.ringJob ring) then s.notOwner m
     else
      let t := (s.ringConfig ring ctrl).fset (Reg.ringCtrl ring) F.ringCtrl_enable 1
      if s.ringState ring != ringIdle then t
      else if t.ringMayRun m ring then t.startRing ring
      else t.fset (Reg.ringStatus ring) F.ringStatus_cause 3)

/-- RING_DISABLE: a RING_CTRL write with ENABLE at 0 (R417). -/
def execRingDisable (m : Master) (ring : Nat) (ctrl : Word32) (s : State) : Res :=
  s.act (decide (ring < 16384))
    (if !s.owns m (s.ringJob ring) then s.notOwner m
     else
      let t := (s.ringConfig ring ctrl).fset (Reg.ringCtrl ring) F.ringCtrl_enable 0
      if s.ringState ring == ringRunning || s.ringState ring == ringHalted then
        if s.accepted ring == 0 then t.idleRing ring else t.setRingState ring ringDraining
      else t)

/-! ## The Taproot link (R401, R411) -/

/-- A card of the logical switch: that of the package itself, and the other package's in a pair (R402). -/
def State.hasCard (s : State) (card : Nat) : Bool := card == s.pkgNo || (s.grafted && decide (card < 2))

/-- The held completions that a card now takes, in completion order (R401). -/
def State.flushHeld (s : State) : State :=
  let (go, keep) := s.host.outHeld.partition (fun h => s.linkUp (s.ringCard h.ring))
  { s with host := { s.host with outHeld := keep } }.each go State.writeCpl

end Sys2Proof.Machine
end

