-- ==== Sys2Proof/Machine/Commands.lean ====
section
/-! DEFINITION. Commands that act on events and on time: NOP and LAUNCH_AT. -/
namespace Sys2Proof.Machine

/-- The work of a command whose waits are over: its own row runs it once (R423, R433). DESIGN CHOICE: assumption 6. -/
def State.issue (s : State) (c : Ref) (op : Nat) (f : Ctx → State) : Res :=
  match s.ctx c with
  | none => .next s
  | some x => s.act (x.phase == .free && x.opcode == op) (f x)

/-- NOP: its checks; its settings take effect as it completes (R434, R435). -/
def execNop (c : Ref) (s : State) : Res :=
  s.issue c 0x00 (fun x =>
    let b := s.job (s.ringJob c.ring)
    let first := x.p 2 16
    let n := x.p 18 17
    if x.p 0 2 = 0 then s.endCmd c stOk
    else if 1 < x.p 0 2 ∨ n = 0 ∨ 65536 < n then s.rejectCmd c stBadField
    else if !(b.hasEvent first && b.hasEvent (first + n - 1)) then s.rejectCmd c stBadEvent
    else s.endCmd c stOk)

/-! ## LAUNCH_AT (R381 to R388) -/

/-- The part counts as LOCKED: a FOLLOWER in LOCKED, or a ROOT (R384). -/
def State.locked (s : State) : Bool :=
  s.fget Reg.timeStatus F.timeStatus_state == 2 || s.fget Reg.timeCtrl F.timeCtrl_role == 1

/-- A LAUNCH_AT ends: it signals its event in this tick, where it is to (R382, R388). -/
def State.launchEnd (s : State) (x : Ctx) (st : Nat) (sig : Bool) : State :=
  let sig := sig && bflag D.sigEn x.desc
  let r := s.launchResult x
  let s := if sig then s.signal (bget D.sigEvent x.desc) else s
  (s.modCtx x.ref (fun y => { y.finish st with result := r, sigTick := if sig then some s.now else none })).countLaunches

/-- A LAUNCH_AT that would signal now: NOT_LOCKED takes precedence (R384). -/
def State.launchFire (s : State) (x : Ctx) (st : Nat) : State :=
  if x.p 65 1 = 1 ∧ !s.locked then s.launchEnd x stNotLocked false else s.launchEnd x st true

/-- The pending LAUNCH_ATs that a CANCEL names (R387). -/
def State.cancelTargets (s : State) (x : Ctx) : List Ctx :=
  s.launches.filter (fun y => !Ctx.is x.ref y && s.ringJob y.ring == s.ringJob x.ring && bflag D.sigEn y.desc
    && bget D.sigEvent y.desc == bget D.sigEvent x.desc)

/-- LAUNCH_AT, when it is free of its waits: it cancels, is on time and waits for TARGET, or is late (R382 to R387). -/
def execLaunchAt (c : Ref) (s : State) : Res :=
  s.issue c 0x12 (fun x =>
    if x.p 66 1 = 1 then
      let l := s.cancelTargets x
      (s.each l (fun s y => s.launchEnd y stCancelled false)).launchEnd x (if l.isEmpty then stNoOperation else stOk) false
    else if x.freeTick ≤ x.p 0 64 then s.modCtx c (Ctx.start s.now)
    else if x.p 64 1 = 1 then s.launchEnd x stLate false
    else s.launchFire x stLate)

/-- LAUNCH_MATURE: an on-time LAUNCH_AT matures in tick TARGET (R382). -/
def execLaunchMature (c : Ref) (s : State) : Res :=
  match s.ctx c with
  | none => .next s
  | some x => s.act (x.opcode == 0x12 && x.phase == .run && decide (x.p 0 64 ≤ s.now)) (s.launchFire x stOk)

end Sys2Proof.Machine
end

