-- ==== Sys2Proof/Machine/Mirror.lean ====
section
/-! DEFINITION. Inputs and outputs of the crossbar, the packets in its buffer, and the records of mirror sessions about them. -/
namespace Sys2Proof.Machine

/-! ## Packets (R510 to R514) -/

abbrev Ph.type : Bits := ⟨0, 4⟩
abbrev Ph.repoch : Bits := ⟨4, 1⟩
abbrev Ph.mcast : Bits := ⟨5, 1⟩
abbrev Ph.toPart : Bits := ⟨6, 1⟩
abbrev Ph.dest : Bits := ⟨8, 23⟩
abbrev Ph.src : Bits := ⟨31, 23⟩
abbrev Ph.mask : Bits := ⟨54, 12⟩
abbrev Ph.job : Bits := ⟨66, 12⟩
abbrev Ph.tag : Bits := ⟨78, 10⟩
abbrev Ph.epoch : Bits := ⟨88, 6⟩
/-- TYPE_FIELDS of a part's packets (R512). -/
abbrev Ph.tensor : Bits := ⟨96, 24⟩
abbrev Ph.gen : Bits := ⟨120, 48⟩
abbrev Ph.tseq : Bits := ⟨168, 16⟩
abbrev Ph.subtype : Bits := ⟨184, 4⟩
/-- TYPE_FIELDS of a CONTRIB packet. -/
abbrev Ph.member : Bits := ⟨96, 20⟩
abbrev Ph.mb : Bits := ⟨116, 10⟩
abbrev Ph.offset : Bits := ⟨126, 24⟩
/-- TYPE_FIELDS of a DATA packet. -/
abbrev Ph.byteOffset : Bits := ⟨96, 40⟩
abbrev Ph.sender : Bits := ⟨136, 20⟩
abbrev Ph.dataSub : Bits := ⟨156, 4⟩

def ptUser : Nat := 0
def ptContrib : Nat := 1
def ptXp : Nat := 2
def ptResult : Nat := 3
def ptControl : Nat := 4
def ptData : Nat := 5

/-- A field of a packet's header. -/
def pget (p : Packet) (f : Bits) : Nat := bget f p.hdr

/-! ## Inputs and outputs (R515, R556) -/

/-- Inputs beside the ports: the part's engines, Taproot, and the Graft trunks. -/
def inEngines : Nat := 0x100
def inTaproot : Nat := 0x101
def trunkIo (d : Nat) : Nat := 0x200 + d
def isTrunkIo (x : Nat) : Bool := decide (0x200 ≤ x ∧ x < 0x204)
def isPortIo (x : Nat) : Bool := decide (x < 128)

/-- The 34 edge stops, by which the part's engines send and receive: 17 rows along column 0, then 17 along column 15 (R36, R515). -/
def edgeStops : Nat := 34
def edgeIo (e : Nat) : Nat := 0x300 + e
def isEdgeIo (x : Nat) : Bool := decide (0x300 ≤ x ∧ x < 0x300 + edgeStops)

/-- The edge stop of a bed: at its row, in the column of its side (R36, R596). -/
def edgeBeside (bed : Nat) : Nat := (if (bedStop bed).1 < 8 then 0 else 17) + (bedStop bed).2

/-- The I/O die of an edge stop: rows 0 to 8 on the first of its column, rows 9 to 16 on the second (R36). -/
def edgeDie (e : Nat) : Nat := 2 * (e / 17) + (if e % 17 < 9 then 0 else 1)

/-- Number of the link at an input or output: ports 0 to 127, trunks 128 to 131. -/
def ioLink (x : Nat) : Nat := if isTrunkIo x then 128 + (x - 0x200) else x

/-- The crossbar side of a link. -/
def linkIo (l : Nat) : Nat := if l < 128 then l else trunkIo (l - 128)

/-! ## Counters of ports (R560, R563) -/

/-- Cells counted by a counter of a port's block; inputs and outputs that are no port have none (R563). -/
def State.countAt (s : State) (reg : Nat → Nat) (io n : Nat) : State := if isPortIo io then s.fadd (reg io) ⟨0, 32⟩ n else s

/-- Cells dropped at a port, as telemetry counts them (R560). -/
def State.telemDrops (s : State) (io n : Nat) : State :=
  if isPortIo io && s.flag Reg.telemCtrl F.telemCtrl_enable then
    { s with xb := { s.xb with telem := { s.xb.telem with drops := tset 0 s.xb.telem.drops io (tget 0 s.xb.telem.drops io + n) } } }
  else s

/-! ## Packets and copies (R506, R517) -/

def Pk.n (k : Pk) : Nat := k.lens.length

def State.pk (s : State) (pid : Nat) : Option Pk := s.xb.pkts.find? (fun k => k.pid == pid)
def State.modPk (s : State) (pid : Nat) (f : Pk → Pk) : State :=
  { s with xb := { s.xb with pkts := updFirst (fun k => k.pid == pid) f s.xb.pkts } }
def State.modCopy (s : State) (id : Nat) (f : Copy → Copy) : State :=
  { s with xb := { s.xb with copies := updFirst (fun c => c.id == id) f s.xb.copies } }

/-! ## Mirror sessions (R554 to R557) -/

/-- Codes of a mirror record's ports (R556). -/
def State.ioCode (s : State) (x : Nat) : Nat := 
  if isPortIo x then 128 * s.pkgNo + x else if isTrunkIo x then 0x1FF else if isEdgeIo x then inEngines else x

/-! ## Buffer pools (R550, R551, R563) -/

/-- POOL_STATUS of a pool of an I/O die (R563). -/
def poolReg (die pool : Nat) : Nat := Reg.poolStatus0 die + 4 * pool

/-- Free buffers of a pool. -/
def State.poolFree (s : State) (die pool : Nat) : Nat := s.fget (poolReg die pool) F.poolStatus0_free
def State.setPoolFree (s : State) (die pool n : Nat) : State := s.fset (poolReg die pool) F.poolStatus0_free n

/-- A list turned round by `n`: a free choice among its members. -/
def rotate {α : Type} (l : List α) (n : Nat) : List α := if l.isEmpty then l else l.drop (n % l.length) ++ l.take (n % l.length)

/-- The I/O dies in an order of the part's own choice. DESIGN CHOICE: assumptions 2 and 47. -/
def State.diesFrom (s : State) : List Nat := rotate (List.range 4) (Config.bufferStop s.freeCtr)

/-- The smallest pool of the engines whose buffers hold a number of bytes (R550, R551). -/
def poolFor (n : Nat) : Option Nat := (rangeFrom 1 5).find? (fun k => decide (n ≤ 2 ^ (8 + 2 * k)))

/-- A request waits for a buffer of an empty pool, and is counted (R551). -/
def State.poolQueue (s : State) (die pool : Nat) (u : PoolUse) : State :=
  ({ s with xb := { s.xb with poolWait := s.xb.poolWait ++ [⟨die, pool, u⟩] } } : State).fadd (Reg.poolWaits die) F.poolWaits_count 1

/-- An engine wants a buffer for `n` bytes: with a die whose pool has one it goes on, else the request waits (R551). A request above
256 KiB, which no pool holds, is refused. -/
def State.askBuffer (s : State) (n : Nat) (u : PoolUse) (go : State → Nat → Nat → State) : State :=
  match poolFor n with
  | none => s
  | some pool =>
    if (List.range 4).all (fun d => s.poolFree d pool == 0) then s.bump.poolQueue (s.diesFrom.headD 0) pool u
    else go s.bump ((s.diesFrom.find? (fun d => s.poolFree d pool != 0)).getD 0) pool

/-- The stamp of now (R366). -/
def State.stamp (s : State) : Nat := 8 * s.now + (s.time.sub + Config.eighth s.freeCtr s.now) % 8

/-- Reasons of a DROP record (R556). -/
def mrPoliced : Nat := 1
def mrNoRoute : Nat := 2
def mrFenceIn : Nat := 3
def mrFenceDrop : Nat := 4
def mrDownDrop : Nat := 5
def mrSchedOrphan : Nat := 6
def mrBadType : Nat := 7
def mrEpochDrop : Nat := 8
def mrBadCell : Nat := 9
def mrForeignIn : Nat := 10
def mrStale : Nat := 11
def mrStray : Nat := 12
def mrLate : Nat := 13
def mrBadJob : Nat := 14

/-- Records in the ring of a session (R557). -/
def State.mirrorSize (s : State) (n : Nat) : Nat := 2 ^ s.fget (Reg.mirCtrl n) F.mirCtrl_log2Size

/-- A packet passes the filter of a session at an event (R555, R564). -/
def State.mirrorPass (s : State) (n : Nat) (k : Pk) (ev out : Nat) : Bool :=
  let f := Reg.mirFilter n
  let io := s.fget f F.mirFilter_inPort
  let oo := s.fget f F.mirFilter_outPort
  s.flag (Reg.mirCtrl n) F.mirCtrl_enable && (io == 0x1FF || io == s.ioCode k.inp) && (oo == 0x1FF || oo == out)
    && s.flag f ⟨F.mirFilter_classes.lo + k.pkt.cls % 4, 1⟩ && s.flag f ⟨F.mirFilter_events.lo + ev, 1⟩
    && (!s.flag f F.mirFilter_jobEn || s.fget f F.mirFilter_job == pget k.pkt Ph.job)
    && s.flag f ⟨F.mirFilter_types.lo + pget k.pkt Ph.type, 1⟩

/-- A mirror record. -/
def State.mirrorRecord (s : State) (n : Nat) (k : Pk) (ev reason out hdr phase : Nat) : Bytes :=
  leBytes 64 (s.stamp % 2 ^ 67 + 2 ^ 67 * (ev % 4) + 2 ^ 69 * (reason % 32) + 2 ^ 74 * (s.ioCode k.inp % 512)
    + 2 ^ 83 * (out % 512) + 2 ^ 92 * (n % 8) + 2 ^ 95 * (phase % 2) + 2 ^ 128 * (hdr % 2 ^ 64) + 2 ^ 192 * k.pkt.hdr.toNat)

/-- A session writes a record, or counts one that it could not write (R557); the buffer that it passes through is back at once (R551). -/
def State.mirrorWrite (s : State) (n : Nat) (k : Pk) (ev reason out hdr : Nat) : State :=
  let tail := s.fget (Reg.mirTail n) F.mirTail_value
  let size := s.mirrorSize n
  if ptrDiff tail (s.fget (Reg.mirHead n) F.mirHead_value) = size ∨ !s.linkUp s.fabricCard then
    s.fadd (Reg.mirLost n) F.mirLost_count 1
  else
    let phase := (tail / size + 1) % 2
    let at_ := (s.rget (Reg.mirBase n)).toNat + 64 * (tail % size)
    let b := s.mirrorRecord n k ev reason out hdr phase
    let s := s.askBuffer 64 (.record at_ b) (fun s _ _ => s.emit (.hostWrite at_ b))
    let s := s.fset (Reg.mirTail n) F.mirTail_value (tail + 1)
    if s.flag (Reg.mirCtrl n) F.mirCtrl_irqEn && (tail + 1) % 256 == 0 then
      s.msix s.fabricCard (s.fget (Reg.mirCtrl n) F.mirCtrl_vector) else s

/-- One session sees an event: a packet is counted once, at the first event at which it passes the filter (R555). -/
def State.mirrorOne (ev reason out hdr : Nat) (s : State × Pk) (n : Nat) : State × Pk :=
  let (s, k) := s
  if !s.mirrorPass n k ev out then (s, k)
  else
    let (s, k) := if k.seen.contains n then (s, k) else
      let c := tget 0 s.xb.mirrors n + 1
      let keep := c % 2 ^ s.fget (Reg.mirFilter n) F.mirFilter_sampleLog2 == 0
      (({ s with xb := { s.xb with mirrors := tset 0 s.xb.mirrors n c } } : State),
        { k with seen := n :: k.seen, kept := if keep then n :: k.kept else k.kept })
    (if k.kept.contains n then s.mirrorWrite n k ev reason out hdr else s, k)

/-- Every session sees an event of a packet (R554). -/
def State.mirror (s : State) (k : Pk) (ev reason out hdr : Nat) : State × Pk :=
  (List.range 8).foldl (State.mirrorOne ev reason out hdr) (s, k)

/-- A packet that Trellis holds meets an event of R554, which its sessions note. -/
def State.mirrorAt (s : State) (pid ev reason out : Nat) : State :=
  match s.pk pid with
  | none => s
  | some k =>
    let (s, k) := s.mirror k ev reason out k.hdr0
    s.modPk pid (fun x => { x with seen := k.seen, kept := k.kept })

/-- The packet that the engines have taken is dropped by them, for a reason of R556. -/
def State.mirrorTaken (s : State) (reason : Nat) : State :=
  match s.xb.taken with
  | none => s
  | some k =>
    let (s, k) := s.mirror k 2 reason inEngines k.hdr0
    { s with xb := { s.xb with taken := some k } }

end Sys2Proof.Machine
end

