-- ==== Sys2Proof/Machine/Flight.lean ====
section
/-! DEFINITION. Packets, masks, layouts and the operations in flight, with what an operation owes and is owed. -/
namespace Sys2Proof.Machine

/-! ## Packets of the part (R511, R525) -/

/-- The route epoch that is active (R525, R564). -/
def State.activeEpoch (s : State) : Nat := s.fget Reg.routeStatus F.routeStatus_active

/-- A packet of the part's own, in the epoch active now (R511, R525). -/
def State.mkPacket (s : State) (type mcast toPart dest mask job tag epoch tf cls : Nat) (payload : Bytes) : Packet :=
  ⟨BitVec.ofNat 192 (type % 16 + 2 ^ 4 * s.activeEpoch + 2 ^ 5 * mcast + 2 ^ 6 * toPart + 2 ^ 8 * (dest % 2 ^ 23)
    + 2 ^ 31 * (s.self % 2 ^ 16) + 2 ^ 54 * (mask % 2 ^ 12) + 2 ^ 66 * (job % 2 ^ 12) + 2 ^ 78 * (tag % 2 ^ 10)
    + 2 ^ 88 * (epoch % 2 ^ 6) + 2 ^ 96 * (tf % 2 ^ 96)), cls, payload, false, false⟩

/-- TYPE_FIELDS of XP, RESULT and CONTROL packets (R512). -/
def partFields (tensor gen tseq sub : Nat) : Nat :=
  tensor % 2 ^ 24 + 2 ^ 24 * (gen % 2 ^ 48) + 2 ^ 72 * (tseq % 2 ^ 16) + 2 ^ 88 * (sub % 16)

/-- TYPE_FIELDS of a DATA packet (R512). -/
def dataFields (offset member sub : Nat) : Nat := offset % 2 ^ 40 + 2 ^ 40 * (member % 2 ^ 20) + 2 ^ 60 * (sub % 16)

/-- A packet with its unit waits to be routed (R507, R519). -/
def State.generated (s : State) (p : Packet) (unit : Nat) : State :=
  { s with xb := { s.xb with fromEngines := s.xb.fromEngines ++ [(p, unit)] } }

/-- The engine of R551 that makes a packet: 1 the XP encoder, 2 result read-out, 3 the store streams, 4 telemetry; 0 one that takes no
buffer of pools 1 to 5. -/
def engineOf (p : Packet) : Nat :=
  let t := pget p Ph.type
  let d := pget p Ph.dataSub
  if t = ptXp then 1
  else if t = ptResult then (if pget p Ph.tseq = 0xFFFF then 3 else 2)
  else if t = ptData ∧ (d = 5 ∨ d = 7) then 3
  else if t = ptData ∧ d = 8 then 4
  else 0

/-- The engine has its buffer, the lowest that is free in the pool, and the packet waits to be routed (R551, R552). -/
def State.takeBuffer (s : State) (p : Packet) (unit die pool : Nat) : State :=
  let used (n : Nat) : Bool := s.xb.bufs.any (fun b => b.die == die && b.pool == pool && b.no == n)
  let no := ((List.range (s.xb.bufs.length + 1)).find? (fun n => !used n)).getD 0
  let s := s.setPoolFree die pool (s.poolFree die pool - 1)
  ({ s with xb := { s.xb with bufs := s.xb.bufs ++ [⟨die, pool, no, 1, s.now, p⟩] } } : State).generated p unit

/-- The part's engines generate a packet whose payload units have `unit` bytes: it waits for a buffer of its engine (R551), and then to be
routed (R507, R519). DESIGN CHOICE: assumptions 14 and 47. -/
def State.sendUnit (s : State) (p : Packet) (unit : Nat) : State :=
  if engineOf p = 0 then s.generated p unit
  else s.askBuffer p.payload.length (.packet p unit) (fun s die pool => s.takeBuffer p unit die pool)

/-- A packet whose payload units are bytes. DESIGN CHOICE: assumption 14. -/
def State.send (s : State) (p : Packet) : State := s.sendUnit p 1

/-- The coordinate of a port of a package (R511). -/
def portCoord (pkg port : Nat) : Nat := pkg % 2 ^ 16 + 2 ^ 16 * (port % 2 ^ 7)

/-! ## The logical switch (R511, R533, R566, R573) -/

/-- The coordinate of the other package of the pair. -/
def State.peer (s : State) : Nat := s.fget Reg.graftPeer F.graftPeer_coord

/-- The coordinate of a package of the logical switch, and the package at a coordinate. -/
def State.pkgCoord (s : State) (n : Nat) : Nat := if n = s.pkgNo then s.self else s.peer
def State.pkgOfCoord (s : State) (c : Nat) : Nat := if c = s.self then s.pkgNo else 1 - s.pkgNo

/-- A port of this package as a port of the logical switch, whose ports 128 to 255 lie on package 1. -/
def State.bit (s : State) (port : Nat) : Nat := 128 * s.pkgNo + port

/-- A port of the logical switch as a coordinate, and a coordinate of the switch as its port. -/
def State.bitCoord (s : State) (q : Nat) : Nat := portCoord (s.pkgCoord (q / 128)) (q % 128)
def State.coordBit (s : State) (c : Nat) : Nat := 128 * s.pkgOfCoord (c % 2 ^ 16) + c / 2 ^ 16 % 2 ^ 7

/-- The package coordinate names this logical switch. -/
def State.namesSelf (s : State) (c : Nat) : Bool := c == s.self || (s.grafted && c == s.peer)

/-- The port of the logical switch at which a packet came in: one that has crossed a trunk came in at its sender's port. Another input
is no port. DEDUCED: assumption 7. -/
def State.entryBit (s : State) (inp : Nat) (p : Packet) : Nat :=
  if isPortIo inp then s.bit inp else if isTrunkIo inp then s.coordBit (pget p Ph.src) else 0x100

/-! ## Masks (R533, R534) -/

def State.route (s : State) (v : Nat) : RouteVer := if v = 0 then s.xb.route0 else s.xb.route1

def State.maskEntry (s : State) (i : Nat) : BitVec 1024 := tget 0 (s.route s.activeEpoch).masks i

/-- The ports that a mask entry names. -/
def entryPorts (e : BitVec 1024) : List Nat := (List.range 256).filter (fun p => bflag ⟨p, 1⟩ e)

/-- The packages that one mask entry lists. -/
def entryParts (e : BitVec 1024) : List Nat := (List.range (min (bget ⟨256, 6⟩ e) 16)).map (fun n => bget ⟨16 * n + 262, 16⟩ e)

def State.maskPorts (s : State) (i : Nat) : List Nat := entryPorts (s.maskEntry i)

/-- The list without what it has already shown. -/
def dedup : List Nat → List Nat
  | [] => []
  | a :: l => if l.contains a then dedup l else a :: dedup l

/-- The packages of a mask entry's PART lists, following NEXT through at most `fuel` entries. -/
def State.maskPartsFrom (s : State) : Nat → Nat → List Nat
  | 0, _ => []
  | fuel + 1, i =>
    let e := s.maskEntry i
    entryParts e ++ (if bflag ⟨530, 1⟩ e then s.maskPartsFrom fuel (bget ⟨518, 12⟩ e) else [])

/-- The packages that a mask names, each once (R534). -/
def State.maskParts (s : State) (i : Nat) : List Nat := dedup (s.maskPartsFrom 16 i)

/-! ## Layouts (R229, R452) -/

def Job.layout (b : Job) (k : Nat) : List LayoutRun := tget [] b.layouts k

/-- Member count M of a layout (R453). -/
def layoutCount (l : List LayoutRun) : Nat := l.foldl (fun n r => n + r.count) 0

/-- The member that a layout places on a port of a package. -/
def layoutMember (l : List LayoutRun) (pkg port : Nat) : Option Nat :=
  (l.find? (fun r => r.package == pkg && decide (r.firstPort ≤ port ∧ port < r.firstPort + r.count))).map
    (fun r => r.base + (port - r.firstPort))

/-- The member that a layout places on a port of the logical switch. -/
def State.bitMember (s : State) (l : List LayoutRun) (q : Nat) : Option Nat := layoutMember l (s.pkgCoord (q / 128)) (q % 128)

/-- The coordinate at which a layout places a member. -/
def layoutCoord (l : List LayoutRun) (k : Nat) : Option Nat :=
  (l.find? (fun r => decide (r.base ≤ k ∧ k < r.base + r.count))).map (fun r => portCoord r.package (r.firstPort + (k - r.base)))

/-! ## Operations in flight -/

def Op.p (o : Op) (lo w : Nat) : Nat := bget ⟨lo, w⟩ o.par
def Op.ps (o : Op) (lo w : Nat) : Int := bsgn ⟨lo, w⟩ o.par
def Op.ref (o : Op) : Ref := ⟨o.ring, o.idx⟩
def Op.named (job tag : Nat) (o : Op) : Bool := o.job == job && o.tag == tag
def Op.isRed (o : Op) : Bool := isReduction o.opcode
/-- Fields of the parameter area of a reduction (R231). -/
def Op.tensor (o : Op) : Nat := if o.isRed then o.p 20 24 else if o.opcode = 0x05 then o.p 20 24 else 0
def Op.gen (o : Op) : Nat := if o.isRed then o.p 211 48 else if o.opcode = 0x05 then o.p 179 48 else 0
def Op.tseq (o : Op) : Nat := if o.isRed then o.p 259 16 else 0
def Op.base (o : Op) : Nat := o.p 44 40
def Op.nelem (o : Op) : Nat := if o.isRed then o.p 84 25 else o.p 84 40
def Op.root (o : Op) : Bool := o.isRed && o.p 189 1 == 1
def Op.mbCount (o : Op) : Nat := o.p 155 10
def Op.children (o : Op) : Nat := o.p 165 8
def Op.parent (o : Op) : Nat := o.p 173 16
def Op.total (o : Op) : Nat := o.p 190 21
def Op.wireFmt (o : Op) : Nat := o.p 109 4
def Op.outFmt (o : Op) : Nat := o.p 113 4
def Op.sat (o : Op) : Bool := o.p 119 1 == 1
def Op.layoutNo (o : Op) : Nat := o.p 16 3
def Op.cls (o : Op) : Nat :=
  if o.isRed then o.p 289 2 else if o.opcode = 0x05 then o.p 227 2 else if o.opcode = 0x06 then o.p 105 2 else o.p 128 2

/-- Stripes of a bucket and the length of one (R40). -/
def Op.nstripes (o : Op) : Nat := ceilDiv o.nelem 256
def Op.stripeLen (o : Op) (k : Nat) : Nat := min 256 (o.nelem - 256 * k)
/-- Chunks of a bucket and the stripes of one (R41). -/
def Op.nchunks (o : Op) : Nat := ceilDiv o.nstripes 256
def Op.chunkStripes (o : Op) (j : Nat) : List Nat := rangeFrom (256 * j) (min 256 (o.nstripes - 256 * j))

/-- A stripe to which nothing has been added (R120). -/
def Stripe.fresh : Stripe := ⟨[], 0, 0, 0, ⟨0, 0, 0, 0⟩, maxrecNone, noMember⟩
def Op.stripe (o : Op) (k : Nat) : Stripe := tget Stripe.fresh o.stripes k
def Op.setStripe (o : Op) (k : Nat) (x : Stripe) : Op := { o with stripes := tset Stripe.fresh o.stripes k x }
def Stripe.slot (x : Stripe) (i : Nat) : Slot := tget Slot.empty x.slots i

/-- Contributions that a final stripe covers: the local ones and those of the children's records (R244, R250). DEDUCED: assumption 21. -/
def Op.covered (o : Op) (k : Nat) : Nat := o.mbCount * o.src.length + (o.stripe k).ncontrib

/-- A stripe is final: it holds every value owed by the local ports and one record from each child (R244). -/
def Op.stripeFinal (o : Op) (k : Nat) : Bool :=
  (o.stripe k).added == o.mbCount * o.src.length * o.stripeLen k && (o.stripe k).records == o.children

def Op.chunkFinal (o : Op) (j : Nat) : Bool := (o.chunkStripes j).all o.stripeFinal

/-- Element values that each local port owes a reduction (R242). -/
def Op.owed (o : Op) : Nat := o.mbCount * o.nelem

def State.findOp (s : State) (job tag : Nat) : Option Op := s.ops.find? (Op.named job tag)
def State.opOf (s : State) (r : Ref) : Option Op := s.ops.find? (fun o => o.ring == r.ring && o.idx == r.idx)

/-- The operation under a job and tag becomes `o`. -/
def State.setOp (s : State) (o : Op) : State := { s with ops := updFirst (Op.named o.job o.tag) (fun _ => o) s.ops }

/-- A record or notice matches an operation only when all of these are equal (R238). -/
def Op.matchesNotice (o : Op) (p : Packet) : Bool :=
  o.job == pget p Ph.job && o.tag == pget p Ph.tag && o.epoch == pget p Ph.epoch && o.gen == pget p Ph.gen
    && o.tensor == pget p Ph.tensor && o.tseq == pget p Ph.tseq

/-- The live operation that a record or notice matches. -/
def State.matchOp (s : State) (p : Packet) : Option Op := s.ops.find? (fun o => o.live && o.matchesNotice p)

/-- The operation in flight to which a RESULT packet of its job belongs (R535): it has not aborted, and may have ended its work. -/
def State.resultOp (s : State) (p : Packet) : Option Op :=
  s.ops.find? (fun o => o.stage != .aborting && o.job == pget p Ph.job && o.tag == pget p Ph.tag && o.gen == pget p Ph.gen
    && o.tensor == pget p Ph.tensor && o.tseq == pget p Ph.tseq)

/-- The packet belongs to an operation in flight: a contribution, a record, a result, or the notices and data of one (R512). -/
def ofOperation (p : Packet) : Bool :=
  let t := pget p Ph.type
  t == ptContrib || t == ptXp || t == ptResult || (t == ptControl && decide (pget p Ph.subtype ≤ 3))
    || (t == ptData && decide (pget p Ph.dataSub ≤ 3))

/-- The packet carries records, results or data of the operation. -/
def Op.made (o : Op) (p : Packet) : Bool :=
  let t := pget p Ph.type
  (t == ptXp || (t == ptResult && o.gen == pget p Ph.gen && o.tensor == pget p Ph.tensor && o.tseq == pget p Ph.tseq)
    || (t == ptData && decide (pget p Ph.dataSub ≤ 3)))
    && o.job == pget p Ph.job && o.tag == pget p Ph.tag && o.epoch == pget p Ph.epoch

/-- The package coordinate of a packet's sender (R511). -/
def pkgOf (p : Packet) : Nat := pget p Ph.src % 2 ^ 16

/-- The PUBLISH that a published packet of this part belongs to: by its mask too (R207, R208). -/
def State.pubOf (s : State) (p : Packet) : Option Ctx :=
  s.host.ctxs.find? (fun x => x.opcode == 0x0A && x.begun && pget p Ph.type == ptResult && pget p Ph.tseq == 0xFFFF
    && pget p Ph.tag == 0 && pkgOf p == s.self && pget p Ph.mask == x.p 96 12 && s.ringJob x.ring == pget p Ph.job
    && x.p 48 48 == pget p Ph.gen && decide (x.p 0 24 ≤ pget p Ph.tensor ∧ pget p Ph.tensor < x.p 0 24 + x.p 24 24))

/-- A record or notice that matches nothing is dropped and counted (R238). -/
def State.late (s : State) (p : Packet) : State := (s.mirrorTaken mrLate).modJob (pget p Ph.job) (fun b => b.cnt J.late 1)

/-! ## Cells of a packet (R507, R513, R664) -/

/-- Cells of a packet whose payload begins with `hdr` bytes of its own header and goes on in whole units (R507). -/
def cellCount (unit hdr len : Nat) : Nat :=
  let first := hdr + (224 - hdr) / unit * unit
  let other := 248 / unit * unit
  if len ≤ first ∨ other = 0 then 1 else 1 + ceilDiv (len - first) other

/-- Bytes of the own header that a packet's payload begins with (R507). -/
def ownHeader (p : Packet) : Nat := if pget p Ph.type = ptResult then 32 else 0

/-- Bytes of one unit of a packet that comes in whole: by the format that a RESULT names, or that its operation has (R507); elements of an
operation that the part does not know come in units of one byte. -/
def State.unitIn (s : State) (p : Packet) : Nat :=
  let t := pget p Ph.type
  let o := s.findOp (pget p Ph.job) (pget p Ph.tag)
  if t = ptResult then (unitOf (nbits (numAt p.payload 0 32) 36 4)).2
  else if t = ptContrib then ((o.filter Op.isRed).map (fun o => (unitOf o.wireFmt).2)).getD 1
  else if t = ptData ∧ pget p Ph.dataSub = 0 then ((o.filter (fun o => o.opcode == 0x05)).map (fun o => (unitOf (o.p 124 4)).2)).getD 1
  else 1

/-- Cells of a packet: those that came, or those into which one that comes in whole is cut. -/
def State.packetCells (s : State) (p : Packet) : Nat :=
  match s.xb.taken with
  | some k => if k.pkt.hdr == p.hdr then k.n - k.own else cellCount (s.unitIn p) (ownHeader p) p.payload.length
  | none => cellCount (s.unitIn p) (ownHeader p) p.payload.length

/-- Values of a CONTRIB packet that lie within the bucket, and those beyond its end; padding of its last unit is neither (R513).
DEDUCED: assumption 16. -/
def contribSplit (fmt nelem off n : Nat) : Nat × Nat :=
  let u := (unitOf fmt).1
  let inn := min n (nelem - off)
  (inn, n - min n (ceilDiv inn u * u))

/-- A packet cut short: it is discarded and its cells are counted at its port (R560, R664). -/
def State.downDrop (s : State) (port n : Nat) : State := (s.countAt Reg.downDrop port n).telemDrops port n

/-! ## What an operation still owes (R242, R256, R261) -/

/-- Bytes of a sender's row counts (R270). -/
def Op.countBytes (o : Op) : Nat := 4 * o.p 20 16

/-- Every row count of a sender has come. -/
def Op.countsOf (o : Op) (k : Nat) : Bool := tget 0 o.countGot k == o.countBytes

/-- The row counts of a sender, one for each expert (R270). -/
def Op.countList (o : Op) (k : Nat) : List Nat := (List.range (o.p 20 16)).map (fun e => numAt (tget [] o.counts k) (4 * e) 4)

/-- Bytes or values that the member of a port of the logical switch owes an operation, and has sent. -/
def State.portOwes (s : State) (o : Op) (q : Nat) : Nat :=
  match s.bitMember ((s.job o.job).layout o.layoutNo) q with
  | none => if o.isRed then o.owed else 0
  | some k =>
    if o.isRed then o.owed
    else if o.opcode = 0x05 then (shareOf o.nelem o.members k).2
    else if o.opcode = 0x06 then
      let t : Int := k + o.ps 60 20
      if o.p 80 1 = 1 ∨ (0 ≤ t ∧ t < o.members) then o.p 20 40 else 0
    else o.countBytes + (if o.countsOf k then (o.countList k).foldl (· + ·) 0 * o.p 36 16 else 0)

/-- The row counts of every sender here have come: of every member at a port of SRC_MASK (R270). -/
def State.countsAll (s : State) (o : Op) : Bool :=
  o.src.all (fun q => (s.bitMember ((s.job o.job).layout o.layoutNo) q).all o.countsOf)

/-- What the member of a port of the logical switch has sent: values, elements, or bytes (PERMUTE: those of its counts and of its rows). -/
def Op.portSent (o : Op) (port : Nat) : Nat := tget 0 o.accepted port

/-- The ports that still owe. -/
def State.owing (s : State) (o : Op) : List Nat := o.src.filter (fun q => decide (o.portSent q < s.portOwes o q))

/-- Packets of an operation that lie wholly in the packet buffer, or at an edge stop, and that the engines have not acted on: they are
accepted (R241). -/
def State.untaken (s : State) (o : Op) : Bool :=
  let mine (k : Pk) : Bool := k.engines && k.closed && k.vals.isEmpty && ofOperation k.pkt && o.job == pget k.pkt Ph.job
    && o.tag == pget k.pkt Ph.tag && o.epoch == pget k.pkt Ph.epoch
  s.xb.pkts.any mine || s.xb.toEngines.any mine

end Sys2Proof.Machine
end

