-- ==== Sys2Proof/Machine/Buffers.lean ====
section
/-! DEFINITION. The packet buffer: inputs and outputs, links, pools, credits, and the packets and copies that hold cells. -/
namespace Sys2Proof.Machine

/-! ## Inputs and outputs (R515, R556) -/

def State.link (s : State) (l : Nat) : Link := tget Link.down s.links l
def State.setLink (s : State) (l : Nat) (x : Link) : State := { s with links := tset Link.down s.links l x }

/-- The I/O die at which cells of an input enter Trellis (R465, R588). -/
def State.ioDie (s : State) (x : Nat) : Nat :=
  if isPortIo x then s.fget (Reg.portGroup x) F.portGroup_firstLane / 128 else if isTrunkIo x then x - 0x200
  else if isEdgeIo x then edgeDie (x - 0x300) else 0

/-! ## Reference counts (R552, R553) -/

/-- A faulty update of the count of a buffer changes nothing but POOL_ERRORS, and writes an entry: 1 a release at count 0, 2 a count above
1,023 (R553, R651, R652). LOCATION names the buffer, and above its 18 bits the pool and the engine that asked. DESIGN CHOICE:
assumption 47. -/
def State.poolFault (s : State) (code die pool no job engine : Nat) : State :=
  (s.fadd (Reg.poolErrors die) F.poolErrors_count 1).logEvent 0x09 code 1 die
    (logDetail (some job) none 0 (no % 2 ^ 18 + 2 ^ 18 * pool + 2 ^ 21 * engine)) none

/-- The fault at the buffer of cell `i` of a packet. -/
def State.countFault (s : State) (k : Pk) (i code : Nat) : State :=
  s.poolFault code (s.ioDie k.inp) 0 ((k.pid + i) % 147456) (pget k.pkt Ph.job) (if isEdgeIo k.inp then engineOf k.pkt else 0)

/-- A 10-bit count of one of its buffers takes no further holder (R553). -/
def Pk.full (k : Pk) : Bool := k.refs.any (fun n => decide (1023 ≤ n))

/-- One more holder of every buffer of a packet, unless a count is full. -/
def State.holdPk (s : State) (pid : Nat) : State :=
  match s.pk pid with
  | none => s
  | some k => if k.full then s.countFault k 0 2 else s.modPk pid (fun k => { k with refs := k.refs.map (· + 1) })

/-- A holder releases the buffer of one cell. -/
def State.releaseCell (s : State) (pid i : Nat) : State :=
  match s.pk pid with
  | none => s
  | some k => if k.refs.getD i 0 = 0 then s.countFault k i 1 else s.modPk pid (fun k => { k with refs := k.refs.modify i (· - 1) })

/-- A holder releases the buffers of a packet from cell `i` on. -/
def State.releaseFrom (s : State) (pid i : Nat) : State :=
  match s.pk pid with
  | none => s
  | some k => s.each (rangeFrom i (k.n - i)) (fun s i => s.releaseCell pid i)

/-- An engine releases the buffer that holds a packet's payload; at count 0 it is back in its pool (R552). -/
def State.releaseBuffer (s : State) (p : Packet) : State :=
  match s.xb.bufs.find? (fun b => b.pkt == p) with
  | none => s
  | some b =>
    if b.refs = 0 then s.poolFault 1 b.die b.pool b.no (pget p Ph.job) (engineOf p)
    else if b.refs = 1 then
      ({ s with xb := { s.xb with bufs := s.xb.bufs.erase b } } : State).setPoolFree b.die b.pool (s.poolFree b.die b.pool + 1)
    else { s with xb := { s.xb with bufs := updFirst (· == b) (fun b => { b with refs := b.refs - 1 }) s.xb.bufs } }

/-! ## Buffers and credits (R486, R551, R552) -/

/-- Buffers of pool 0 of a die returned. -/
def State.freeCells (s : State) (die n : Nat) : State := s.setPoolFree die 0 (s.poolFree die 0 + n)

/-- Credits for cells that leave the reservation of a link (R486). -/
def State.creditBack (s : State) (l cls n : Nat) : State :=
  let x := s.link l
  let m := min n (tget 0 x.held cls)
  s.setLink l { x with held := tset 0 x.held cls (tget 0 x.held cls - m), owed := tset 0 x.owed cls (tget 0 x.owed cls + m) }

/-- Cells leave the packet buffer: to the far end as credits, or to pool 0 for packets of the part (R486, R551). -/
def State.cellsGone (s : State) (k : Pk) (n : Nat) : State :=
  if isEdgeIo k.inp then s.freeCells (s.ioDie k.inp) n
  else if isPortIo k.inp || isTrunkIo k.inp then s.creditBack (ioLink k.inp) k.pkt.cls n
  else s

/-- The input queue of a bed is full (R51). DESIGN CHOICE: assumption 71. -/
def State.bedFull (s : State) (bed : Nat) : Bool :=
  decide (max 1 Config.bedQueue ≤ (s.bedQ.filter (fun v => v.bed == bed)).length)

/-- The bed of the stripe of an XP record (R42, R144). -/
def State.recordBed (s : State) (p : Packet) : Option Nat :=
  match (if pget p Ph.type = ptXp then s.findOp (pget p Ph.job) (pget p Ph.tag) else none) with
  | some o => o.place[numAt p.payload 0 4]?
  | none => none

/-- Cells of the packet wait in the packet buffer: a bed that they go to has a full queue, or its values have not been accepted yet
(R51, R241). -/
def State.bedsHold (s : State) (k : Pk) : Bool :=
  k.vals.any (fun v => s.bedFull v.bed) || (s.recordBed k.pkt).any s.bedFull || (pget k.pkt Ph.type == ptContrib && k.vals.isEmpty)

/-- Cells of a packet whose buffers nothing holds any more; a cell that the part made to close it has none of its own (R509, R552). -/
def Pk.unheld (k : Pk) : Nat := (k.refs.take (k.n - k.own)).count 0

/-- A packet's buffers are returned as their counts reach 0 (R552), and a packet that is over leaves the store. -/
def State.settlePk (s : State) (pid : Nat) : State :=
  match s.pk pid with
  | none => s
  | some k =>
    let n := k.unheld
    let s := s.cellsGone k (n - k.freed)
    if k.closed && k.routed && k.refs.all (· == 0) then { s with xb := { s.xb with pkts := s.xb.pkts.filter (fun x => x.pid != pid) } }
    else s.modPk pid (fun k => { k with freed := max n k.freed })

/-- A copy leaves the crossbar: it holds the packet's buffers no more, and its context on the link is free again (R508, R552). -/
def State.dropCopy (s : State) (c : Copy) : State :=
  let s := if s.xb.copies.any (fun x => x.id == c.id) then s.releaseFrom c.pid c.left else s
  let s : State := { s with xb := { s.xb with copies := s.xb.copies.filter (fun x => x.id != c.id) } }
  let s := match c.ctx with
    | some x => s.setLink (ioLink c.out) { s.link (ioLink c.out) with txCtx := tdel (s.link (ioLink c.out)).txCtx x }
    | none => s
  s.settlePk c.pid

/-- Two packets that differ at most in what has gone wrong with them. -/
def samePacket (p q : Packet) : Bool := p.hdr == q.hdr && p.cls == q.cls && p.payload == q.payload

/-- A packet with an uncorrectable cell, as the row that brings it says or as its place in the packet buffer does (R651). -/
def State.spoiled (s : State) (p : Packet) : Bool :=
  p.bad || (s.xb.toEngines ++ s.xb.pkts).any (fun k => k.engines && k.pkt.bad && samePacket k.pkt p)

/-- A packet for the engines that lies wholly in the packet buffer and whose values have not been accepted. -/
def State.inBuffer (s : State) (p : Packet) : Option Pk :=
  s.xb.pkts.find? (fun k => k.engines && k.closed && k.vals.isEmpty && samePacket k.pkt p)

/-- An engine takes a packet that Trellis has brought to its edge stop, or has in its buffer, where one waits (R51, R519). -/
def State.taken (s : State) (p : Packet) : State :=
  match s.xb.toEngines.find? (fun k => samePacket k.pkt p) with
  | some k => { s with xb := { s.xb with toEngines := s.xb.toEngines.erase k, taken := some k } }
  | none =>
    let k := s.inBuffer p
    let s : State := { s with xb := { s.xb with taken := k } }
    match k with
    | none => s
    | some k =>
      (s.modPk k.pid (fun k => { k with engines := false })).each
        (s.xb.copies.filter (fun c => c.pid == k.pid && isEdgeIo c.out)) State.dropCopy

/-- A packet that comes in whole stays in the packet buffer with its accepted values while a bed that they go to has a full queue (R51). -/
def State.holdValues (s : State) (port : Nat) (p : Packet) (l : List BedVal) : State :=
  let id := s.xb.nextId
  let n := s.packetCells p
  let bed := (l.map BedVal.bed).headD 0
  let k : Pk := ⟨id, port, p, List.replicate n 0, rangeFrom (id + 2) n, [], 0, true, true, true, n, List.replicate n 1, 0, none, [], [], [],
    l, s.now⟩
  { s with xb := { s.xb with
    nextId := id + 2 + n, pkts := s.xb.pkts ++ [k], copies := s.xb.copies ++ [⟨id + 1, id, edgeIo (edgeBeside (bed % 272)), [], 0, 0, none, []⟩] } }

/-- Accepted values enter the input queues of their beds, or wait in the packet buffer with their packet (R51, R241). -/
def State.queueValues (s : State) (port : Nat) (p : Packet) (l : List BedVal) : State :=
  match s.inBuffer p with
  | some k => if l.isEmpty then s.taken p else s.modPk k.pid (fun k => { k with vals := l })
  | none => if l.any (fun v => s.bedFull v.bed) then s.holdValues port p l else { s with bedQ := s.bedQ ++ l }

/-- The last cell of a packet has crossed to its edge stop: accepted values enter the queues of their beds, and any other packet waits for
its engine (R50, R519). -/
def State.atStop (s : State) (k : Pk) : State :=
  if k.vals.isEmpty then { s with xb := { s.xb with toEngines := s.xb.toEngines ++ [k] } } else { s with bedQ := s.bedQ ++ k.vals }

/-- Records, results and data of an operation that have not begun to leave are withdrawn, and packets that have are closed as cut short
(R259). -/
def State.withdraw (s : State) (o : Op) : State :=
  let mine (k : Pk) (out : Option Nat) : Bool :=
    o.made k.pkt && (isEdgeIo k.inp || (pget k.pkt Ph.type == ptResult && out.any (fun x => o.dst.contains (s.bit x))))
  let waits (w : PoolWait) : Bool := match w.use with
    | .packet p _ => o.made p
    | _ => false
  let s := s.each (s.xb.fromEngines.filter (fun e => o.made e.1)) (fun s e => s.releaseBuffer e.1)
  let s : State := { s with xb := { s.xb with
    fromEngines := s.xb.fromEngines.filter (fun e => !o.made e.1)
    poolWait := s.xb.poolWait.filter (fun w => !waits w)
    pkts := s.xb.pkts.map (fun k => if mine k none then { k with pkt := { k.pkt with aborted := true } } else k) } }
  s.each (s.xb.copies.filter (fun c => c.left == 0 && (match s.pk c.pid with
    | some k => mine k (some c.out)
    | none => false))) State.dropCopy

/-- A packet of the part's own still waits for its engine's buffer, or to be routed. -/
def State.engineWaits (s : State) (mine : Packet → Bool) : Bool :=
  s.xb.fromEngines.any (fun e => mine e.1) || s.xb.poolWait.any (fun w => match w.use with
    | .packet p _ => mine p
    | _ => false)

/-- Nothing that a PUBLISH has sent waits for Trellis or in the packet buffer: the fences that its packets met are known (R208).
DEDUCED: assumption 31. -/
def State.pubOut (s : State) (x : Ctx) : Bool :=
  let mine (p : Packet) : Bool := (s.pubOf p).any (fun y => Ctx.is x.ref y)
  !s.engineWaits mine && !s.xb.pkts.any (fun k => isEdgeIo k.inp && mine k.pkt)

/-- Nothing that an operation has sent waits for Trellis or in the packet buffer (R249, R665). -/
def State.packetsOut (s : State) (o : Op) : Bool :=
  o.stage == .aborting || (!s.engineWaits o.made
    && !s.xb.pkts.any (fun k => o.made k.pkt && (isEdgeIo k.inp || pget k.pkt Ph.type == ptResult)))

end Sys2Proof.Machine
end

