-- ==== Sys2Proof/Machine/Collect.lean ====
section
/-! DEFINITION. What every collective operation shares: the charge of slots and gradient room, reports, notices, aborts and fences. -/
namespace Sys2Proof.Machine

/-! ## Charges of slots and of the gradient area (R55, R161, R162, R235) -/

/-- Pages of 2 MiB that a gradient area of `n` elements takes, rounded up once for the job (R158, R160, R162). DESIGN CHOICE: assumption 20. -/
def gradPages (n : Nat) : Nat := ceilDiv (4 * n) (2 ^ 21)

/-- The job's gradient area changes to `n` reserved elements, and its store charge with it. -/
def Job.setGrad (b : Job) (n : Nat) : Job :=
  { b.put J.storeUsed (b.get J.storeUsed + gradPages n - gradPages b.gradElems) with gradElems := n }

/-- Pages of the usable store: 47,104 on each compute die that has a store, of both packages of a pair (R157, R158, R566, R676). -/
def State.storePages (s : State) : Nat := 47104 * s.shareDies.length

/-- Pages of the usable store that no job has been charged with (R8, R158). -/
def State.storeRoom (s : State) : Nat := s.storePages - s.jobs.foldl (fun n e => n + e.2.get J.storeUsed) 0

/-- The gradient area has room for `n` more elements within the job's store budget and the usable store (R158, R162). -/
def State.gradFits (s : State) (b : Job) (n : Nat) : Bool :=
  let more := gradPages (b.gradElems + n) - gradPages b.gradElems
  decide (b.get J.storeUsed + more ≤ b.get J.storeBudget ∧ (more = 0 ∨ more ≤ s.storeRoom))

/-- Stripes of a bed that operations, held buckets, a program and admitted SIEVE_RUNs occupy. -/
def State.bedLoad (s : State) (bed : Nat) : Nat :=
  s.ops.foldl (fun n o => n + o.place.count bed) 0
    + s.held.foldl (fun n h => if h.spill.isSome then n else n + h.place.count bed) 0
    + (match s.vy with
        | some p => p.place.count bed
        | none => 0)
    + s.sieves.foldl (fun n r => n + r.place.count bed) 0

/-- Slots of an operation are released: SLOTS_USED falls and its stripes leave their beds; what its stripes counted stays for its report (R249, R259). -/
def State.freeSlots (s : State) (o : Op) : State :=
  let n := o.place.length
  let s := s.modJob o.job (fun b => b.put J.slotsUsed (b.get J.slotsUsed - n))
  let s := s.setOp { o with place := [] }
  { s with bedQ := s.bedQ.filter (fun v => !(v.job == o.job && v.tag == o.tag)) }

/-- An operation at the root holds a reservation in the gradient area (R162). -/
def Op.reserves (o : Op) : Bool := o.opcode == 0x01 && o.root

/-! ## Reports of operations (R438 to R440) -/

/-- Sum of the input counters over the stripes (R250). -/
def Op.cntSum (o : Op) : InCnt := o.stripes.foldl (fun c e => c.add e.2.cnt) ⟨0, 0, 0, 0⟩
def Op.maxSum (o : Op) : Word32 := o.stripes.foldl (fun m e => maxrecMax m e.2.maxrec) maxrecNone
def Op.firstSum (o : Op) : Nat := o.stripes.foldl (fun m e => min m e.2.firstFlag) noMember
/-- OR over all elements of each flag (R250): an element to which nothing was added has the flag byte of admission. -/
def Op.flagSum (o : Op) : BitVec 8 :=
  let listed := o.stripes.foldl (fun n e => n + e.2.slots.length) 0
  o.stripes.foldl (fun f e => e.2.slots.foldl (fun g x => g ||| x.2.flags) f) (if listed < o.nelem then 0x20 else 0)

def cap32 (n : Nat) : Nat := min n (2 ^ 32 - 1)

/-- Four counters of 32 bits each, from a bit position. -/
def four (lo a b c d : Nat) : Nat := 2 ^ lo * (cap32 a + 2 ^ 32 * cap32 b + 2 ^ 64 * cap32 c + 2 ^ 96 * cap32 d)

/-- The summary as the report shows it, from bit 416 (R439). -/
def Summary.report (m : Summary) : Nat :=
  2 ^ 416 + 2 ^ 424 * m.flags.toNat + 2 ^ 432 * (m.ncontrib % 2 ^ 21) + 2 ^ 453 * (m.firstFlag % 2 ^ 20)
    + 2 ^ 512 * m.maxrec.toNat + four 544 m.cnt.nan m.cnt.inf m.cnt.aovf m.cnt.gzero

/-- Lowest of the members removed as fenced (R439). -/
def Op.fencedFirst (o : Op) : Nat := o.fenced.foldl min noMember

/-- The 256-byte report of a reduction (R439): its local values are those that the part sends, its children's records included (R250).
DEDUCED: assumption 21. -/
def Op.redReport (o : Op) : BitVec 2048 :=
  let c := o.cntSum
  BitVec.ofNat 2048 (o.admTick % 2 ^ 64 + 2 ^ 64 * (o.valuesIn % 2 ^ 40) + 2 ^ 128 * cap32 o.stale + 2 ^ 160 * cap32 o.foreign
    + 2 ^ 192 * (o.covered 0 % 2 ^ 21) + 2 ^ 213 * (o.firstSum % 2 ^ 20) + 2 ^ 256 * o.maxSum.toNat
    + four 288 c.nan c.inf c.aovf c.gzero
    + (match o.summary with
        | some m => m.report
        | none => 0)
    + four 672 o.out.ovr o.out.nan o.out.inf o.out.mx
    + 2 ^ 800 * (o.fenced.length % 2 ^ 16) + 2 ^ 816 * (o.fencedFirst % 2 ^ 20) + 2 ^ 836 * (o.missing % 2 ^ 20)
    + 2 ^ 856 * (o.portsShort % 2 ^ 8) + 2 ^ 864 * (o.childrenShort % 2 ^ 8) + 2 ^ 872 * (o.originStatus % 2 ^ 16)
    + 2 ^ 888 * (o.originCoord % 2 ^ 16) + 2 ^ 904 * (o.fencedOwing % 2 ^ 20))

/-- The 64-byte report of another tagged command (R440); START_TICK is entered when it is written. -/
def Op.dataReport (o : Op) : BitVec 2048 :=
  BitVec.ofNat 2048 (o.delivered % 2 ^ 40 + four 64 o.out.ovr o.out.nan o.out.inf o.out.mx + 2 ^ 192 * o.maxrec.toNat
    + 2 ^ 224 * (o.fenced.length % 2 ^ 16) + 2 ^ 240 * (o.fencedFirst % 2 ^ 20) + 2 ^ 260 * (o.fencedOwing % 2 ^ 20))

/-- The 64-byte report of a command that takes no tag (R440); START_TICK is entered when it is written. -/
def smallReport (n : Nat) (c : Cnt) (m : Word32) (fenced first : Nat) : BitVec 2048 :=
  BitVec.ofNat 2048 (n % 2 ^ 40 + four 64 c.ovr c.nan c.inf c.mx + 2 ^ 192 * m.toNat + 2 ^ 224 * (fenced % 2 ^ 16)
    + 2 ^ 240 * first + 2 ^ 260 * noMember)

/-- RESULT of a tagged command (R438). -/
def Op.resultWord (o : Op) : BitVec 96 :=
  if o.isRed then
    let f := match o.summary with
      | some m => m.flags
      | none => o.flagSum
    BitVec.ofNat 96 (o.tag + 2 ^ 10 * o.tseq + 2 ^ 26 * o.tensor + 2 ^ 50 * f.toNat + (if o.root then 2 ^ 58 else 0))
  else BitVec.ofNat 96 o.tag

/-- An operation's work ends with a status; its command takes the operation's report as it completes (R254). -/
def State.finishOp (s : State) (o : Op) (st : Nat) : State :=
  (s.setOp { o with live := false }).modCtx o.ref (Ctx.finish st)

/-- The command of an operation with the operation's RESULT and report (R254, R438 to R440). -/
def State.withReport (s : State) (c : Ctx) : Ctx :=
  if c.fenced != [] then
    (c.setReport ⟨224, 16⟩ c.fenced.length).setReport ⟨240, 20⟩ (c.fenced.foldl min noMember)
  else match s.opOf c.ref with
  | some o => if c.rejected then c else { c with result := o.resultWord, report := if o.isRed then o.redReport else o.dataReport }
  | none => c

/-- All that a command has sent has left the part (R249, R208). -/
def State.allOut (s : State) (x : Ctx) : Bool := (s.opOf x.ref).all s.packetsOut && (x.opcode != 0x0A || s.pubOut x)

/-- COMMAND_COMPLETE: a command whose work has ended completes once all that it sent has left the part (R249, R437). -/
def execCommandComplete (c : Ref) (s : State) : Res :=
  match s.ctx c with
  | none => .next s
  | some x => s.act (x.phase == .ended && s.allOut x && !s.setsLate x) (s.complete (s.withReport x))

/-! ## Notices and aborts (R237, R258, R259) -/

/-- A CONTROL packet of an operation to another part (R514). -/
def State.control (s : State) (o : Op) (sub dest : Nat) (payload : Bytes) : State :=
  s.send (s.mkPacket ptControl 0 1 dest 0 o.job o.tag o.epoch (partFields o.tensor o.gen o.tseq sub) o.cls payload)

/-- A ready notice to a member at a port of the logical switch (R237, R270). -/
def State.readyPort (s : State) (o : Op) (sub q : Nat) : State :=
  s.send (s.mkPacket ptControl 0 0 (s.bitCoord q) 0 o.job o.tag o.epoch
    (partFields o.tensor o.gen o.tseq sub) o.cls [])

/-- Ready notices to the SRC_MASK ports and the PARTS_MASK parts (R237, R270). -/
def State.readyNotices (s : State) (o : Op) (sub : Nat) : State :=
  (s.each o.src (fun s p => s.readyPort o sub p)).each o.parts (fun s d => s.control o sub d [])

/-- Where an abort comes from (R258). -/
inductive AbortFrom where
  | own
  | up (sender : Nat)
  | down
  deriving DecidableEq, Repr

/-- An abort notice's payload (R514). -/
def abortPayload (st coord : Nat) (down : Bool) : Bytes :=
  leBytes 8 (st % 2 ^ 16 + 2 ^ 16 * (coord % 2 ^ 16) + (if down then 2 ^ 32 else 0))

/-- The abort notices of a bucket (R258). -/
def State.abortNotices (s : State) (o : Op) (st coord : Nat) (src : AbortFrom) : State :=
  if !o.isRed then s
  else match src with
    | .down => s
    | .own =>
      if o.root then s.each o.parts (fun s d => s.control o 3 d (abortPayload st coord true))
      else s.control o 3 o.parent (abortPayload st coord false)
    | .up sender =>
      if o.root then s.each (o.parts.filter (· != sender)) (fun s d => s.control o 3 d (abortPayload st coord true))
      else s.control o 3 o.parent (abortPayload st coord false)

/-- What the results of an operation name it by (R535). -/
def Op.name (o : Op) : OpName := ⟨o.tag, o.gen, o.tensor, o.tseq⟩

/-- An operation aborts: it releases its slots and its reservation, withdraws what it has not delivered, tells the other parts and
completes with the status (R258, R259). -/
def State.abortOp (s : State) (o : Op) (st : Nat) (src : AbortFrom) (origin : Option (Nat × Nat)) : State :=
  let os := match origin with
    | some (a, _) => a
    | none => o.originStatus
  let oc := match origin with
    | some (_, c) => c
    | none => o.originCoord
  let o := { o with stage := .aborting, originStatus := os, originCoord := oc }
  let s := s.abortNotices o (if origin.isSome then os else st) (if origin.isSome then oc else s.self) src
  let s := (s.finishOp o st).withdraw o
  let s := if o.reserves then s.modJob o.job (fun b => b.setGrad (b.gradElems - o.nelem)) else s
  let s := s.modJob o.job (fun b => { b with aborted := o.name :: b.aborted.filter (fun n => n.tag != o.tag) })
  s.freeSlots { o with live := false }

/-- An operation aborts on its own with a status. DEDUCED: assumption 25. -/
def State.abortOwn (s : State) (o : Op) (st : Nat) : State := s.abortOp o st .own none

/-! ## Packets with an uncorrectable cell, and packets cut short (R651, R653, R664) -/

/-- The NORMs that a message of a peer is for: TENSOR_ID is their TENSOR_FIRST. DESIGN CHOICE: assumption 84. -/
def State.normRuns (s : State) (p : Packet) : List NormRun :=
  if pget p Ph.type = ptControl ∧ (pget p Ph.subtype = 4 ∨ pget p Ph.subtype = 5) then
    s.norms.filter (fun x => x.job == pget p Ph.job && x.first == pget p Ph.tensor && x.gen == pget p Ph.gen)
  else []

def NormRun.ref (r : NormRun) : Ref := ⟨r.ring, r.idx⟩

/-- A NORM leaves: its run and its messages go. -/
def State.endNorm (s : State) (r : NormRun) : State :=
  let s := { s with norms := s.norms.filter (fun x => !(x.ring == r.ring && x.idx == r.idx)) }
  s.modJob r.job (fun b => { b with normMsgs := b.normMsgs.filter (fun m => !(m.tensor == r.first && m.gen == r.gen)) })

/-- A NORM that aborts with a status. -/
def State.failNorm (s : State) (r : NormRun) (st : Nat) : State := (s.endNorm r).endCmd r.ref st

/-- A packet with an uncorrectable cell: the entry BUFFER, and an operation in flight or a NORM to which it belongs aborts; one
whose work has ended ends with that status (R262, R278, R651). -/
def State.bufferCell (s : State) (port : Nat) (p : Packet) : State :=
  let entry (job tag : Option Nat) (gen : Nat) : State := s.logEvent 0x07 3 2 (s.ioDie port) (logDetail job tag gen 0) none
  match (if ofOperation p then s.findOp (pget p Ph.job) (pget p Ph.tag) else none) with
  | some o =>
    let s := entry (some o.job) (some o.tag) o.gen
    if o.epoch != pget p Ph.epoch then s
    else if o.live then s.abortOwn o stUncorrectable
    else if o.stage = .aborting then s
    else s.endCmd ⟨o.ring, o.idx⟩ stUncorrectable
  | none =>
    (entry (some (pget p Ph.job)) none 0).each (s.normRuns p) (fun s x => s.failNorm x stUncorrectable)

/-- An engine takes a packet at a port: one with an uncorrectable cell is not used (R653), one that was cut short is discarded and
counted (R664), and any other is acted on. -/
def State.arrive (s : State) (port : Nat) (p : Packet) (f : State → State) : State :=
  let bad := s.spoiled p
  let s := s.taken p
  if bad then s.bufferCell port p
  else if p.aborted then (s.mirrorTaken mrDownDrop).downDrop port (s.packetCells p)
  else f s

/-! ## FENCE and UNFENCE (R443 to R446, R261) -/

def State.fenced (s : State) (member job : Nat) : Bool := s.fences.contains ⟨member, job⟩

/-- The fence takes effect on an operation that still owes values from the member's port (R261). -/
def State.fenceOp (s : State) (member : Nat) (o : Op) : State :=
  let q := s.coordBit member
  if o.live && (s.owing o).contains q then
    let k := (s.bitMember ((s.job o.job).layout o.layoutNo) q).getD noMember
    s.abortOwn { o with fencedOwing := k } stFenced
  else s

/-- The coordinate names a port of this logical switch: of either package of a pair (R444, R566, R573). -/
def State.ownPort (s : State) (member : Nat) : Bool :=
  s.namesSelf (member % 2 ^ 16)

/-- FENCE (R445). -/
def execFence (c : Ref) (s : State) : Res :=
  s.issue c 0x10 (fun x =>
    let m := x.p 0 23
    let j := s.ringJob c.ring
    if !s.ownPort m then s.rejectCmd c stBadField
    else if s.fenced m j then s.endCmd c stOk
    else if 8192 ≤ s.fences.length then s.rejectCmd c stBudget
    else
      let s : State := { s with fences := s.fences ++ [⟨m, j⟩] }
      (s.each (s.ops.filter (fun o => o.job == j)) (fun s o => s.fenceOp m o)).endCmd c stOk)

/-- UNFENCE (R446). -/
def execUnfence (c : Ref) (s : State) : Res :=
  s.issue c 0x11 (fun x =>
    let m := x.p 0 23
    let j := s.ringJob c.ring
    if !s.ownPort m then s.rejectCmd c stBadField
    else if !s.fenced m j then s.rejectCmd c stNoOperation
    else ({ s with fences := s.fences.erase ⟨m, j⟩ } : State).endCmd c stOk)

end Sys2Proof.Machine
end

