-- ==== Sys2Proof/Machine/Reduce.lean ====
section
/-! DEFINITION. Reductions, and what the admission of tagged commands rests on: checks, eligibility, placement, spilling; CLOSE_BUCKET. -/
namespace Sys2Proof.Machine

/-! ## Epochs (R228) -/

/-- How R228 judges a tagged command's EPOCH. -/
inductive EpochCase where
  | current | next | stale
  deriving DecidableEq, Repr

def epochCase (b : Job) (x : Ctx) : EpochCase :=
  let e := x.p 10 6
  if e = b.get J.epoch then .current
  else if e = (b.get J.epoch + 1) % 64 ∧ x.p 19 1 = 1 then .next
  else .stale

/-! ## Checks of the reductions (R233) -/

/-- FP32 or BF16, which decode with T = 0 (R112). -/
def plainWire (fmt : Nat) : Bool := fmt == 0 || fmt == 1

/-- The command derives its anchor or its wire scale from the tensor's history (R233). -/
def derives (x : Ctx) (r : Rec) : Bool := x.p 120 1 == 1 || (!plainWire (x.p 109 4) && !bflag T.fixedWire r)

/-- Two ranges of elements meet. -/
def rangesMeet (a n b m : Nat) : Bool := decide (a < b + m ∧ b < a + n)

/-- Elements of a range hold or reserve a gradient of a generation (R233). -/
def State.gradMeets (s : State) (job tensor gen base n : Nat) : Bool :=
  s.held.any (fun h => h.job == job && h.tensor == tensor && h.gen == gen && rangesMeet base n h.base h.nelem)
    || s.ops.any (fun o => o.live && o.reserves && o.job == job && o.tensor == tensor && o.gen == gen
        && rangesMeet base n o.base o.nelem)

/-- The range lies wholly within the shard that a record gives the part (R233). -/
def inShard (r : Option Rec) (base n : Nat) : Bool :=
  match r with
  | none => false
  | some r => !bflag T.scaleOnly r && decide (bget T.shardBase r ≤ base ∧ base + n ≤ bget T.shardBase r + bget T.shardLen r)

/-- The checks of a reduction, in the order of R233's table: the status of the first failure. -/
def State.redCheck (s : State) (x : Ctx) : Option Nat :=
  let j := s.ringJob x.ring
  let b := s.job j
  let tensor := x.p 20 24
  let base := x.p 44 40
  let n := x.p 84 25
  let wire := x.p 109 4
  let r := b.record tensor
  let root := x.p 189 1 == 1
  let openB := x.opcode == 0x01
  let gen := x.p 211 48
  let total := x.p 190 21
  if x.seed && !(x.opcode == 0x03 && x.p 120 1 == 0 && plainWire wire) then some stSeedling
  else if n = 0 ∨ 16777216 < n ∨ x.p 155 10 = 0 then some stBadField
  else if (match r with
      | some r => decide (bget T.nelem r < base + n)
      | none => false) then some stBadField
  else if (x.p 120 1 == 1 || !plainWire wire) && r.isNone then some stBadRecord
  else if total = 0 ∨ 1048576 < total ∨ 1048576 < x.p 155 10 * (s.maskPorts (x.p 131 12)).length then some stCountLimit
  else if wire = 0xF ∨ x.p 113 4 = 0xF ∨ x.p 117 2 = 3 then some stBadFormat
  else if (match r with
      | some r => !plainWire wire && bget T.wireFmt r != wire
      | none => false) then some stBadFormat
  else if epochCase b x = .stale then some stStaleEpoch
  else if b.get J.slotBudget < ceilDiv n 256 then some stBudget
  else if openB && root && !inShard r base n then some stShardRange
  else if openB && root && s.gradMeets j tensor gen base n then some stOverlap
  else if openB && root && gen != b.get J.nextGen then some stGenMismatch
  else if (match r with
      | some r => derives x r && !histDates r gen
      | none => false) then some stGenMismatch
  else none

/-- A tagged command that passes its checks awaits admission; one that fails is rejected and takes no tag (R233, R236). -/
def State.queueTagged (s : State) (c : Ref) (fail : Option Nat) : State :=
  match fail with
  | some st => s.rejectCmd c st
  | none => s.modCtx c (fun y => { y with phase := .queued })

/-- OPEN_BUCKET (R231 to R233). -/
def execOpenBucket (c : Ref) (s : State) : Res := s.issue c 0x01 (fun x => s.queueTagged c (s.redCheck x))
/-- ALLREDUCE (R231 to R233). -/
def execAllreduce (c : Ref) (s : State) : Res := s.issue c 0x03 (fun x => s.queueTagged c (s.redCheck x))
/-- REDUCE_SCATTER (R231 to R233, R263). -/
def execReduceScatter (c : Ref) (s : State) : Res := s.issue c 0x04 (fun x => s.queueTagged c (s.redCheck x))

/-! ## Eligibility (R234) -/

/-- Stripes that a command asks for: those of a bucket, or the scratch stripes of a SIEVE_RUN (R235, R236, R327). -/
def Ctx.stripes (x : Ctx) : Nat :=
  if isReduction x.opcode then ceilDiv (x.p 84 25) 256 else if x.opcode = 0x0F then x.p 186 17 else 0

/-- Commands that wait for admission in the order of buckets: reductions, and SIEVE_RUNs with scratch slots (R236, R327). -/
def Ctx.asBucket (x : Ctx) : Bool := isReduction x.opcode || (x.opcode == 0x0F && x.stripes != 0)

/-- The request of a SIEVE_RUN that has passed its checks and has not started. -/
def State.sieveOf (s : State) (c : Ref) : Option SieveReq := s.sieves.find? (fun r => r.ring == c.ring && r.idx == c.idx)

/-- A SIEVE_RUN with scratch slots may be admitted once its stripes fit the job's budget (R236, R327). -/
def State.sieveEligible (s : State) (x : Ctx) : Bool :=
  let b := s.job (s.ringJob x.ring)
  x.phase == .queued && x.opcode == 0x0F && x.stripes != 0 && (s.sieveOf x.ref).any (fun r => r.elig.isNone)
    && decide (b.get J.slotsUsed + x.stripes ≤ b.get J.slotBudget)

/-- For a derived anchor the tensor's generation before this one is not in progress (R133). -/
def anchorReady (b : Job) (x : Ctx) : Bool :=
  !(isReduction x.opcode && x.p 120 1 == 1) || x.p 211 48 == 0 || !b.inProgress (x.p 20 24) (x.p 211 48 - 1)

/-- A queued tagged command is eligible for admission (R234). -/
def State.eligible (s : State) (x : Ctx) : Bool :=
  let j := s.ringJob x.ring
  let b := s.job j
  x.phase == .queued && isTagged x.opcode
    && (match epochCase b x with
        | .current => true
        | .next => !(s.ops.any (fun o => o.job == j))
        | .stale => false)
    && (s.findOp j (x.p 0 10)).isNone && decide (s.ops.length < 1024) && anchorReady b x
    && decide (b.get J.slotsUsed + x.stripes ≤ b.get J.slotBudget ∨ x.stripes = 0)
    && (!(x.opcode == 0x01 && x.p 189 1 == 1) || s.gradFits b (x.p 84 25))
    && b.checkpoint == 0

/-- The tick in which a command becomes eligible now: the one after a tick in which the counter has been stepped (R374). -/
def State.eligNow (s : State) : Nat := if s.time.stepNow then s.now + 1 else s.now

/-- Every queued command that is eligible carries the tick at which it became so (R234, R236). -/
def State.stampEligible (s : State) : State :=
  { s with host := { s.host with ctxs := s.host.ctxs.map (fun x =>
      if x.phase == .queued && (isTagged x.opcode || x.opcode == 0x0F) then
        { x with eligTick := if s.eligible x || s.sieveEligible x then some (x.eligTick.getD s.eligNow) else none }
      else x) } }

/-- Admission order: eligibility tick, then ring number, then ring order (R236). -/
def Ctx.before (x y : Ctx) : Bool :=
  let a := x.eligTick.getD 0
  let b := y.eligTick.getD 0
  decide (a < b) || (a == b && (decide (x.ring < y.ring) || (x.ring == y.ring && earlier x.idx y.idx)))

/-- A command is to be admitted next: it is eligible by now (R374), and no eligible command comes before it; buckets do not hold back a
command that reserves no slots (R236). -/
def State.firstEligible (s : State) (x : Ctx) : Bool :=
  decide (x.eligTick.getD 0 ≤ s.now)
    && s.host.ctxs.all (fun y => !(y.phase == .queued && y.eligTick.isSome && (x.asBucket || !y.asBucket) && y.before x))

/-! ## Placement (R42 to R45, R235) -/

/-- Slots of one bed in stripes: 262,144 slots of which a stripe takes 256 (R235). -/
def bedStripes : Nat := 1024

/-- The bed for one more stripe: of the beds that have room, one that holds fewest stripes of the chunk, and of those the least loaded
(R43). -/
def pickBed (cap : Nat) (beds : List Nat) (load : Tab Nat) (chunk : Tab Nat) : Option Nat :=
  beds.foldl (fun best b =>
    if bedStripes ≤ tget 0 load b ∨ cap ≤ tget 0 chunk b then best
    else match best with
      | none => some b
      | some c =>
        if tget 0 chunk b < tget 0 chunk c ∨ (tget 0 chunk b = tget 0 chunk c ∧ tget 0 load b < tget 0 load c) then some b
        else best) none

/-- The stripes of one chunk placed one after another over the beds of one package, of which none takes more than `cap` (R43, R44); with the
load that the beds then have. -/
def placeChunk (cap : Nat) (beds : List Nat) : Nat → Tab Nat → Tab Nat → Option (List Nat × Tab Nat)
  | 0, load, _ => some ([], load)
  | n + 1, load, chunk =>
    match pickBed cap beds load chunk with
    | none => none
    | some b =>
      (placeChunk cap beds n (tset 0 load b (tget 0 load b + 1)) (tset 0 chunk b (tget 0 chunk b + 1))).map (fun x => (b :: x.1, x.2))

/-- `n` stripes placed chunk by chunk, each chunk over ⌈256 ÷ B⌉ stripes a bed of a package that has room for it (R43, R44). -/
def placeFrom (packages : List (List Nat)) : Nat → Nat → Tab Nat → Option (List Nat)
  | 0, n, _ => if n = 0 then some [] else none
  | chunks + 1, n, load =>
    match packages.findSome? (fun beds => placeChunk (ceilDiv 256 beds.length) beds (min 256 n) load []) with
    | none => none
    | some (l, load) => (placeFrom packages chunks (n - 256) load).map (l ++ ·)

/-- The beds in service of each package of the logical switch, in an order of the part's choice; those of the other package are numbered
from 272 (R406, R566). -/
def State.packages (s : State) : List (List Nat) :=
  let r := Config.rotation s.freeCtr
  if s.grafted then rotate [rotate s.bedsIn r, rotate s.peerBedsIn r] r else [rotate s.bedsIn r]

/-- A placement of `n` stripes over the beds in service, where one exists (R42 to R44, R235). DESIGN CHOICE: assumption 19. -/
def State.placement (s : State) (n : Nat) : Option (List Nat) :=
  placeFrom (s.packages.filter (fun l => !l.isEmpty)) (ceilDiv n 256) n (s.packages.flatten.foldl (fun t b => tset 0 t b (s.bedLoad b)) [])

/-! ## Held gradients (R55, R162) -/

/-- The FP32 value of an element of a held bucket (R54, R128). -/
def Held.grad (h : Held) (i : Nat) : Nat :=
  match h.spill with
  | some t => tget 0 t i
  | none => slotGrad h.anchor h.sat (tget Slot.empty h.slots i)

/-- The overflow flags of a held bucket's elements, which a spill keeps (R128, R148). -/
def Held.overFlags (h : Held) : BitVec 8 :=
  if h.spill.isSome then h.overs else h.slots.foldl (fun f x => f ||| (x.2.flags &&& 0x18)) 0

/-- The read-out of a spilled bucket meets a check that fails, or does not: the entry names one of its beds, and its values are lost
(R150, R151, R653). DESIGN CHOICE: assumption 37. -/
def State.spillCheck (s : State) (h : Held) : State :=
  let bed := h.place.getD (Config.faultBed s.freeCtr % max 1 h.place.length) 0
  if Config.spillFault s.freeCtr && decide (bed < 272) then
    (s.logUnit 0x06 3 2 (unitBed bed) (logDetail (some h.job) none h.gen 0)).addPoints (unitBed bed) 64
  else s

/-- SPILL: a reduced bucket goes to the gradient area as FP32 values and releases its slots (R55). -/
def State.spill (s : State) (h : Held) : State :=
  let t := (List.range h.nelem).foldl (fun t i => tset 0 t i (h.grad i)) []
  let h' := { h with place := [], slots := [], spill := some t, overs := h.overFlags, lost := h.lost || Config.spillFault s.freeCtr }
  let s := { s.spillCheck h with held := s.held.map (fun x => if x = h then h' else x) }
  (s.modJob h.job (fun b => b.put J.slotsUsed (b.get J.slotsUsed - h.place.length))).bump

/-- The reduced buckets in slots, oldest first, are spilled until `n` stripes fit. -/
def State.spillUntil (n : Nat) : List Held → State → State
  | [], s => s
  | h :: r, s => if (s.placement n).isSome then s else State.spillUntil n r (s.spill h)

/-- The state in which a bucket of `n` stripes fits, where spilling every held bucket can make room (R55, R235). -/
def State.makeRoom (s : State) (n : Nat) : Option State :=
  let l := s.held.filter (fun h => h.spill.isNone)
  let t := State.spillUntil n l s
  if (t.placement n).isSome then some t else none

/-- A held gradient leaves: its slots and its room in the gradient area are free (R190, R259, R260). -/
def State.dropHeld (s : State) (h : Held) : State :=
  let s := { s with held := s.held.erase h }
  s.modJob h.job (fun b =>
    let b := if h.spill.isNone then b.put J.slotsUsed (b.get J.slotsUsed - h.place.length) else b
    b.setGrad (b.gradElems - h.nelem))

/-! ## The end of a data operation (R265, R267, R271) -/

/-- Expert counts that a PERMUTE's local receivers get rows for: all of them, summed (R269, R271). -/
def State.rowsDue (s : State) (o : Op) : Nat :=
  o.dst.foldl (fun n q => match s.bitMember ((s.job o.job).layout o.layoutNo) q with
    | none => n
    | some k =>
      let (e0, en) := shareOf (o.p 20 16) o.members k
      n + (List.range o.members).foldl (fun m i => m + (((o.countList i).drop e0).take en).foldl (· + ·) 0) 0) 0

/-- The work of an ALLGATHER, SHIFT or PERMUTE is done: nothing is owed, and what its receivers are due has gone to them
(R265, R267, R271). -/
def State.dataDone (s : State) (o : Op) : Bool :=
  o.live && !o.isRed && (s.owing o).isEmpty
    && (o.unopened
      || (if o.opcode = 0x05 then o.dst.isEmpty || decide (o.nelem ≤ o.delivered)
          else if o.opcode = 0x06 then true
          else o.ready2 && decide (s.rowsDue o * o.p 36 16 ≤ o.delivered)))

/-- A data operation whose work is done ends (R239, R272). -/
def State.settleData (s : State) (job tag : Nat) : State :=
  match s.findOp job tag with
  | none => s
  | some o =>
    if s.dataDone o then s.finishOp o (if o.unopened then stUnopened else if o.dropped = 0 then stOk else stRecvOverflow)
    else s

/-! ## CLOSE_BUCKET (R260) -/

/-- CLOSE_BUCKET: CANCEL aborts an operation in flight, RELEASE frees a held gradient. -/
def execCloseBucket (c : Ref) (s : State) : Res :=
  s.issue c 0x02 (fun x =>
    let j := s.ringJob c.ring
    if x.p 98 1 = 0 then
      match s.ops.find? (fun o => o.live && Op.named j (x.p 0 10) o && (!(o.isRed || o.opcode == 0x05) || o.gen == x.p 34 48)) with
      | none => s.endCmd c stNoOperation
      | some o => (s.abortOwn o stCancelled).endCmd c stOk
    else
      match s.held.find? (fun h => h.job == j && h.tensor == x.p 10 24 && h.gen == x.p 34 48 && h.tseq == x.p 82 16) with
      | none => s.endCmd c stNoOperation
      | some h => (s.dropHeld h).endCmd c stOk)

end Sys2Proof.Machine
end

