-- ==== Sys2Proof/Machine/Accumulate.lean ====
section
/-! DEFINITION. Contributions and partials: acceptance at ingress, the Rake, XP records, final chunks and their read-out. -/
namespace Sys2Proof.Machine

/-! ## CONTRIB (R230, R239 to R242, R513) -/

/-- Cells of an earlier epoch of the operation (R230). -/
def State.staleCells (s : State) (o : Op) (n : Nat) : State := (s.mirrorTaken mrStale).setOp { o with stale := o.stale + n }

/-- A packet that no sender of the operation owes it (R241). -/
def State.foreignCells (s : State) (o : Op) (p : Packet) : State :=
  (s.mirrorTaken mrForeignIn).setOp { o with foreign := o.foreign + s.packetCells p }

/-- A cell for a tag that is not in flight (R230, R239). DEDUCED: assumption 16. -/
def State.strayCells (s : State) (p : Packet) : State :=
  let fresh := decide (pget p Ph.epoch = (s.job (pget p Ph.job)).get J.epoch)
  (s.mirrorTaken (if fresh then mrStray else mrStale)).modJob (pget p Ph.job) (fun b =>
    if pget p Ph.epoch = b.get J.epoch then
      { b.cnt J.strayCells (s.packetCells p) with stray := bset ⟨pget p Ph.tag, 1⟩ b.stray 1 }
    else b.cnt J.stale (s.packetCells p))

/-- The accepted values of a packet as they wait at their beds (R42, R50, R92). -/
def Op.values (o : Op) (p : Packet) (off n member : Nat) : List BedVal :=
  (List.range n).map (fun i =>
    ⟨o.place.getD ((off + i) / 256) 0, o.job, o.tag, off + i, member, elemAt o.wireFmt o.tIn p.payload i⟩)

/-- An operation with the values of a packet counted as accepted from a port of the logical switch (R241, R513). -/
def Op.takeValues (o : Op) (q n beyond : Nat) : Op :=
  { o with foreign := o.foreign + beyond, accepted := tset 0 o.accepted q (o.portSent q + n), valuesIn := o.valuesIn + n }

/-- CONTRIB: checked and counted at ingress, where its last byte lies in the packet buffer; its values wait there while a bed that they go
to has a full queue, and are queued to the beds (R51, R241). DEDUCED: assumption 16. DESIGN CHOICE: assumption 71. -/
def execContrib (port : Nat) (p : Packet) (s : State) : Res :=
  s.act (pget p Ph.type == ptContrib && s.jobIs (pget p Ph.job) jobActive)
    (let t := s.taken p
     if s.spoiled p then t.bufferCell port p
     else match s.findOp (pget p Ph.job) (pget p Ph.tag) with
     | none => t.strayCells p
     | some o =>
       let q := s.entryBit port p
       let mem := s.bitMember ((s.job o.job).layout o.layoutNo) q
       if o.epoch != pget p Ph.epoch then t.staleCells o (t.packetCells p)
       else if !o.live then t
       else if !o.isRed || !o.src.contains q || mem != some (pget p Ph.member) then t.foreignCells o p
       else
         let off := pget p Ph.offset
         let (n, beyond) := contribSplit o.wireFmt o.nelem off (elemCount o.wireFmt p.payload)
         if o.owed < o.portSent q + n then t.abortOwn { o with foreign := o.foreign + beyond } stOvercount
         else (s.setOp (o.takeValues q n beyond)).queueValues port p (o.values p off n (pget p Ph.member)))

/-! ## RAKE_ACCUMULATE (R50, R52, R121, R129, R136) -/

/-- A value added into its slot, with the stripe's counters, maximum and first flag. DEDUCED: assumption 21. -/
def Op.rake (o : Op) (v : BedVal) : Op :=
  let k := v.elem / 256
  let i := v.elem % 256
  let x := o.stripe k
  let (slot, c) := accumulate slotLimit o.anchor (x.slot i) v.value
  let flagged := c.nan + c.inf + c.aovf != 0
  o.setStripe k { x with
    slots := tput x.slots i slot, added := x.added + 1, cnt := x.cnt.add c, maxrec := maxrecAdd x.maxrec v.value,
    firstFlag := if flagged then min x.firstFlag v.member else x.firstFlag }

/-- A fault at a bed: its trouble-log entry and its points; those of a bed of the other package (272 and above) its own Shed writes
(R151, R566, R615, R651). -/
def State.bedFault (s : State) (src code bed points : Nat) (o : Op) : State :=
  if bed < 272 then
    (s.logUnit src code 2 (unitBed bed) (logDetail (some o.job) (some o.tag) o.gen 0)).addPoints (unitBed bed) points
  else s

/-- The fault of an upset: status and trouble-log entry for a bed (R151, R651). -/
def State.bedUpset (s : State) (u : Upset) (code bed : Nat) (o : Op) : State :=
  match u with
  | .clean => s
  | .residue | .readout => (s.bedFault 0x06 code bed 64 o).abortOwn o stArithFault
  | .ecc => (s.bedFault 0x07 1 bed 128 o).abortOwn o stUncorrectable

/-- The operation goes on with a stripe that has taken something: at the root, a final stripe that covers another number of contributions
than TOTAL_COUNT aborts the bucket (R244). -/
def State.stripeTaken (s : State) (o : Op) (k : Nat) : State :=
  if o.root && o.stripeFinal k && o.covered k != o.total then s.abortOwn o stCountMismatch else s.setOp o

/-- RAKE_ACCUMULATE: a bed takes the value at the head of its queue. -/
def execRakeAccumulate (bed : Nat) (upset : Upset) (s : State) : Res :=
  match s.bedQ.find? (fun v => v.bed == bed) with
  | none => .next s
  | some v =>
    s.act true
      (let s : State := { s with bedQ := s.bedQ.erase v }
       match s.findOp v.job v.tag with
       | none => s
       | some o =>
         if !o.live then s
         else if upset != .clean then s.bedUpset upset 1 bed o
         else s.stripeTaken (o.rake v) (v.elem / 256))

/-! ## XP (R124, R134, R144, R230, R238, R242) -/

/-- A record combined into its stripe (R144). -/
def Stripe.combine (x : Stripe) (r : XpRec) : Stripe :=
  { x with
    slots := (List.range r.slots.length).foldl (fun t i =>
      tput t i ((tget Slot.empty t i).join (r.slots.getD i Slot.empty))) x.slots
    records := x.records + 1, ncontrib := x.ncontrib + r.ncontrib, cnt := x.cnt.add r.cnt,
    maxrec := maxrecMax x.maxrec r.maxrec, firstFlag := min x.firstFlag r.firstFlag }

/-- A record of a stripe that fails its residue check: the entry names the stripe's bed, whose health count rises (R144, R151). -/
def State.xpFault (s : State) (o : Op) (k src : Nat) : State :=
  (s.bedFault 0x06 2 (o.place.getD k 0) 64 o).abortOwn { o with originCoord := src } stXpCheck

/-- XP: a record is checked for place, residue and anchor, and combined; it waits while the queue of its stripe's bed is full (R51). The
upset `readout` is one of the decoder, `residue` one of the Rake as it adds the partial (R150). DEDUCED: assumption 15. DESIGN CHOICE:
assumption 37. -/
def execXp (port : Nat) (p : Packet) (upset : Upset) (s : State) : Res :=
  s.act (pget p Ph.type == ptXp && !(s.recordBed p).any s.bedFull)
    (s.arrive port { p with bad := p.bad || upset == .ecc } (fun s =>
     match s.findOp (pget p Ph.job) (pget p Ph.tag) with
     | none => s.late p
     | some o =>
       if o.epoch != pget p Ph.epoch then s.staleCells o 1
       else if !(o.live && o.isRed && o.matchesNotice p) then s.late p
       else
         let r := xpParse p.payload
         let x := o.stripe r.stripe
         if o.nstripes ≤ r.stripe ∨ r.nelem ≠ o.stripeLen r.stripe then
           s.abortOwn { o with originCoord := pkgOf p } stXpCheck
         else if upset = .readout ∨ xpResOk r = false then s.xpFault o r.stripe (pkgOf p)
         else if r.anchor ≠ o.anchor then s.abortOwn { o with originCoord := pkgOf p } stAnchorMismatch
         else if o.children ≤ x.records then s.abortOwn o stOvercount
         else if 1048576 < o.covered r.stripe + r.ncontrib then s.abortOwn o stCountLimit
         else if upset = .residue then s.bedUpset .residue 1 (o.place.getD r.stripe 0) o
         else s.stripeTaken (o.setStripe r.stripe (x.combine r)) r.stripe))

/-! ## XP_SEND (R138, R237, R245) -/

/-- The XP record of a stripe (R138, R139). -/
def Op.record (o : Op) (k : Nat) : XpRec :=
  let x := o.stripe k
  let slots := (List.range (o.stripeLen k)).map x.slot
  { stripe := k, anchor := o.anchor, nelem := o.stripeLen k, res := residue (slots.map (·.n.toInt)), ncontrib := o.covered k,
    firstFlag := x.firstFlag, maxrec := x.maxrec, cnt := x.cnt, slots := slots }

/-- The records of a chunk go to PARENT in ascending stripe order (R245). -/
def State.sendChunk (s : State) (o : Op) (j : Nat) : State :=
  let s := s.each (o.chunkStripes j) (fun s k =>
    s.send (s.mkPacket ptXp 0 1 o.parent 0 o.job o.tag o.epoch (partFields o.tensor o.gen o.tseq 0) o.cls (xpBytes (o.record k))))
  s.setOp { o with sentChunks := j :: o.sentChunks, stage := .sending }

/-- A chunk may be sent: final, not yet sent, and PARENT is ready (R237, R245). -/
def Op.maySend (o : Op) (j : Nat) : Bool :=
  o.live && o.isRed && !o.root && !o.unopened && o.parentReady && o.finalChunks.contains j && !o.sentChunks.contains j

/-- The bed that holds the stripe of a chunk at which a check fails (R151). DESIGN CHOICE: assumption 37. -/
def Op.chunkBed (o : Op) (j n : Nat) : Nat := o.place.getD (256 * j + Config.faultBed n % max 1 (o.chunkStripes j).length) 0

/-- A check fails while a chunk is read (R150, R151). -/
def State.chunkUpset (s : State) (u : Upset) (code : Nat) (o : Op) (j : Nat) : State :=
  s.bump.bedUpset u code (o.chunkBed j s.freeCtr) o

/-- XP_SEND: the records of a final chunk are encoded and sent to PARENT. -/
def execXpSend (job tag chunk : Nat) (upset : Upset) (s : State) : Res :=
  match s.findOp job tag with
  | none => .next s
  | some o =>
    s.act (o.maySend chunk)
      (if upset != .clean then s.chunkUpset upset 2 o chunk else s.sendChunk o chunk)

/-! ## CHUNK_FINAL (R126, R127, R244 to R248, R263) -/

/-- The 32-byte header of a RESULT payload (R207, R247). -/
def resultHeader (tensor job fmt : Nat) (t : Int) (gen base n : Nat) (last : Bool) : Bytes :=
  leBytes 32 (tensor % 2 ^ 24 + 2 ^ 24 * (job % 2 ^ 12) + 2 ^ 36 * (fmt % 16) + 2 ^ 40 * toTwos 8 t + 2 ^ 48 * (gen % 2 ^ 48)
    + 2 ^ 96 * (base % 2 ^ 40) + 2 ^ 136 * (n % 2 ^ 16) + (if last then 2 ^ 152 else 0))

/-- The read-out of an element with its draw (R126, R127, R246). -/
def State.readElem (s : State) (o : Op) (e : Nat) : Num × Nat :=
  (Num.scale (-(o.ps 291 8)) (readSlot o.anchor ((o.stripe (e / 256)).slot (e % 256))),
   if o.p 117 2 = 2 then seedDraw ((s.job o.job).get J.key) o.gen o.tensor (o.base + e) 3 else 0)

/-- A RESULT packet of elements `a` to `a + n - 1` of the bucket, sent by mask or to one member. DESIGN CHOICE: assumption 14. -/
def State.sendResult (s : State) (o : Op) (a n : Nat) (last : Bool) (member : Option Nat) : State :=
  let (b, c) := encodeElems o.outFmt (o.p 117 2) o.sat ((rangeFrom a n).map (s.readElem o))
  let payload := resultHeader o.tensor o.job o.outFmt (o.ps 291 8) o.gen (o.base + a) n last ++ b
  let tf := partFields o.tensor o.gen o.tseq 0
  let s := match member with
    | none => s.sendUnit (s.mkPacket ptResult 1 0 0 (o.p 276 12) o.job o.tag o.epoch tf o.cls payload) (unitOf o.outFmt).2
    | some d => s.sendUnit (s.mkPacket ptResult 0 0 d 0 o.job o.tag o.epoch tf o.cls payload) (unitOf o.outFmt).2
  match s.findOp o.job o.tag with
  | none => s
  | some o' => s.setOp { o' with out := o'.out.add c, delivered := o'.delivered + n, lasts := o'.lasts + (if last then 1 else 0) }

/-- A run of elements cut into packets of at most 256 elements each. DEDUCED: assumption 17. -/
def resultPieces (a n : Nat) : List (Nat × Nat) :=
  if n = 0 then [(a, 0)] else (List.range (ceilDiv n 256)).map (fun i => (a + 256 * i, min 256 (n - 256 * i)))

/-- A run of elements sent in packets, LAST on the last one where the run ends the bucket or the share. -/
def State.sendRun (s : State) (o : Op) (a n : Nat) (ends : Bool) (member : Option Nat) : State :=
  let l := resultPieces a n
  s.each l (fun s x => s.sendResult o x.1 x.2 (ends && decide (x.1 + x.2 = a + n)) member)

/-- The chunks that a share touches. -/
def shareChunks (a n : Nat) : List Nat :=
  if n = 0 then [] else rangeFrom (a / 65536) ((a + n - 1) / 65536 - a / 65536 + 1)

/-- The elements of a share that chunk `j` makes ready, counted within the share: whole units of the result format, of which a unit that
reaches into another chunk is ready once that chunk is final too (R246). -/
def shareReady (u a n j : Nat) (done : List Nat) : Nat × Nat :=
  let lo := max (65536 * j) a
  let hi := min (65536 * (j + 1)) (a + n)
  if hi ≤ lo then (0, 0)
  else
    let b0 := (lo - a) / u
    let b0 := if a + u * b0 < lo && !done.contains (j - 1) then b0 + 1 else b0
    let b1 := ceilDiv (hi - a) u
    let b1 := if hi < min (a + u * b1) (a + n) && !done.contains (j + 1) then b1 - 1 else b1
    (u * b0, min (u * b1) n - u * b0)

/-- What a newly final chunk makes ready for member `k` of a REDUCE_SCATTER: first element and count, and whether it ends the member's
share; an empty share goes with the first chunk (R246, R247, R263). -/
def Op.shareOut (o : Op) (old : List Nat) (j k : Nat) : Option (Nat × Nat × Bool) :=
  let (a, n) := shareOf o.nelem o.members k
  if n = 0 then (if old.isEmpty then some (a, 0, true) else none)
  else
    let r := shareReady (unitOf o.outFmt).1 a n j old
    if r.2 = 0 then none else some (a + r.1, r.2, (shareChunks a n).all (fun c => c == j || old.contains c))

/-- RESULT_READOUT: the root reads the final chunk out and sends its results (R246 to R248, R263). DEDUCED: assumption 17. -/
def State.readout (s : State) (o : Op) (j : Nat) : State :=
  if o.opcode = 0x03 then
    let a := 65536 * j
    let n := min 65536 (o.nelem - a)
    s.sendRun o a n (decide (o.finalChunks.length + 1 = o.nchunks)) none
  else if o.opcode = 0x04 then
    let l := (s.job o.job).layout o.layoutNo
    s.each (List.range o.members) (fun s k => match o.shareOut o.finalChunks j k with
      | some (a, n, ends) => s.sendRun o a n ends (layoutCoord l k)
      | none => s)
  else s

/-- The stage an operation shows after a chunk is final (R459). -/
def Op.afterFinal (o : Op) (j : Nat) : Op :=
  { o with finalChunks := j :: o.finalChunks,
           stage := if o.finalChunks.length + 1 = o.nchunks then (if o.root then .delivering else .sending) else o.stage }

/-- CHUNK_FINAL: the root checks NCONTRIB and holds or reads out; another part sends its records as soon as PARENT is ready. -/
def execChunkFinal (job tag chunk : Nat) (upset : Upset) (s : State) : Res :=
  match s.findOp job tag with
  | none => .next s
  | some o =>
    s.act (o.live && o.isRed && decide (chunk < o.nchunks) && o.chunkFinal chunk && !o.finalChunks.contains chunk)
      (if upset != .clean then s.chunkUpset upset (if o.root then 3 else 2) o chunk
       else if o.root then
         if (o.chunkStripes chunk).any (fun k => o.covered k != o.total) then s.abortOwn o stCountMismatch
         else
           let s := if o.unopened then s else s.readout o chunk
           match s.findOp job tag with
           | none => s
           | some o' => s.setOp (o'.afterFinal chunk)
       else
         let o := o.afterFinal chunk
         let s := s.setOp o
         if o.maySend chunk then s.sendChunk o chunk else s)

end Sys2Proof.Machine
end

