-- ==== Sys2Proof/Machine/Bucket.lean ====
section
/-! DEFINITION. Buckets between admission and completion: summaries, results, notices, deadlines and the completion of a bucket. -/
namespace Sys2Proof.Machine

/-! ## Summaries (R250, R251) -/

/-- The bucket summary at the root (R250). -/
def Op.summarize (o : Op) : Summary := ⟨o.total, o.firstSum, o.maxSum, o.cntSum, o.flagSum⟩

/-- The payload of a summary: a header of R139 without stripe, then the flag byte padded to 8 B (R514). -/
def summaryBytes (anchor : Int) (m : Summary) : Bytes :=
  xpBytes ⟨0, anchor, 0, 0, m.ncontrib, m.firstFlag, m.maxrec, m.cnt, []⟩ ++ leBytes 8 m.flags.toNat

/-- A summary read from a payload. -/
def summaryParse (b : Bytes) : Summary :=
  let r := xpParse (b.take 40)
  ⟨r.ncontrib, r.firstFlag, r.maxrec, r.cnt, BitVec.ofNat 8 (numAt b 40 1)⟩

/-- SUMMARY: taken into the operation and into the tensor's running maximum (R238, R251). -/
def execSummary (port : Nat) (p : Packet) (s : State) : Res :=
  s.act (pget p Ph.type == ptControl && pget p Ph.subtype == 2)
    (s.arrive port p (fun s =>
       let m := summaryParse p.payload
       let j := pget p Ph.job
       let held := ((s.job j).record (pget p Ph.tensor)).isSome
       let t := if held then s.modJob j (fun b => b.takeMax (pget p Ph.tensor) (pget p Ph.gen) (pget p Ph.tseq) m.maxrec) else s
       match t.resultOp p with
       | some o => if o.matchesNotice p then t.setOp { o with summary := some m } else if held then t else t.late p
       | none => if held then t else t.late p))

/-! ## Completion (R239, R249, R250) -/

/-- The reduced bucket that the root of an OPEN_BUCKET holds for STEP (R55, R246). -/
def Op.toHeld (o : Op) : Held :=
  { job := o.job, tensor := o.tensor, base := o.base, nelem := o.nelem, gen := o.gen, tseq := o.tseq, sat := o.sat,
    anchor := o.anchor, place := o.place,
    slots := o.stripes.foldl (fun t e => e.2.slots.foldl (fun t x => tset Slot.empty t (256 * e.1 + x.1) x.2) t) [],
    spill := none, overs := 0, lost := false }

/-- A bucket completes at the root: summary out, maximum in, and its slots held or released. -/
def State.rootDone (s : State) (o : Op) : State :=
  let m := o.summarize
  let s := s.each o.parts (fun s d => s.control o 2 d (summaryBytes o.anchor m))
  let s := s.modJob o.job (fun b => b.takeMax o.tensor o.gen o.tseq m.maxrec)
  let o := { o with summary := some m }
  let s := s.finishOp o stOk
  let o := { o with live := false }
  if o.opcode = 0x01 then { s.setOp { o with place := [] } with held := s.held ++ [o.toHeld] } else s.freeSlots o

/-- BUCKET_COMPLETE: every chunk of a bucket is final at the root. -/
def execBucketComplete (job tag : Nat) (s : State) : Res :=
  match s.findOp job tag with
  | none => .next s
  | some o =>
    s.act (o.live && o.root && o.finalChunks.length == o.nchunks)
      (if o.unopened then s.abortOwn o stUnopened else s.rootDone o)

/-- Elements of results owed to the local members of a part that only replicates, and the packets with LAST set (R249). -/
def State.resultsOwed (s : State) (o : Op) : Nat × Nat :=
  if o.dst.isEmpty ∨ o.opcode = 0x01 then (0, 0)
  else if o.opcode = 0x03 then (o.nelem, 1)
  else
    o.dst.foldl (fun a q => match s.bitMember ((s.job o.job).layout o.layoutNo) q with
      | some k => (a.1 + (shareOf o.nelem o.members k).2, a.2 + 1)
      | none => a) (0, 0)

/-- NONROOT_COMPLETE: the slots go when the last record is sent; the completion follows when the results owed are delivered. -/
def execNonrootComplete (job tag : Nat) (s : State) : Res :=
  match s.findOp job tag with
  | none => .next s
  | some o =>
    let (n, k) := s.resultsOwed o
    let sent := o.sentChunks.length == o.nchunks
    let delivered := decide (n ≤ o.delivered ∧ k ≤ o.lasts)
    s.act (o.live && o.isRed && !o.root && (sent || (o.unopened && o.finalChunks.length == o.nchunks)))
      (if o.unopened then s.abortOwn o stUnopened
       else if delivered then (s.finishOp o stOk).freeSlots { o with live := false }
       else s.freeSlots { o with stage := .delivering })

/-! ## Results (R248, R535, R664, R665) -/

/-- The packet's destination is a port of the logical switch that the operation delivers to (R263). -/
def State.destIsDst (s : State) (o : Op) (p : Packet) : Bool :=
  s.namesSelf (pget p Ph.dest % 2 ^ 16) && o.dst.contains (s.coordBit (pget p Ph.dest))

/-- RESULT: a result packet reaches the part; Trellis copies it by R535, and the matching operation counts it as delivered. -/
def execResult (port : Nat) (p : Packet) (s : State) : Res :=
  s.act (pget p Ph.type == ptResult)
    (s.arrive port p (fun s => match s.matchOp p with
     | none => s
     | some o =>
       if pget p Ph.mcast = 1 ∨ s.destIsDst o p then
         (s.setOp { o with delivered := o.delivered + nbits (numAt p.payload 0 32) 136 16,
                           lasts := o.lasts + nbits (numAt p.payload 0 32) 152 1 }).settleData o.job o.tag
       else s))

/-! ## Notices (R237, R238, R258) -/

/-- READY: a ready notice lets the part send to its PARENT, or is kept as an early notice (R237). DEDUCED: assumption 13. -/
def execReady (port : Nat) (p : Packet) (s : State) : Res :=
  s.act (pget p Ph.type == ptControl && pget p Ph.subtype == 0)
    (s.arrive port p (fun s => match s.matchOp p with
     | some o => if pkgOf p = o.parent ∧ o.isRed then s.setOp { o with parentReady := true } else s
     | none => s.modJob (pget p Ph.job) (fun b =>
         let tag := pget p Ph.tag
         { b with early := ⟨tag, false, pget p Ph.epoch, pget p Ph.gen, pget p Ph.tensor, pget p Ph.tseq, pkgOf p⟩
                     :: b.early.filter (fun e => e.tag != tag) })))

/-- ABORT: a notice for an operation in flight aborts it with PEER_ABORT and is passed on by its direction (R258). -/
def execAbort (port : Nat) (p : Packet) (s : State) : Res :=
  s.act (pget p Ph.type == ptControl && pget p Ph.subtype == 3)
    (s.arrive port p (fun s => match s.matchOp p with
     | none => s.late p
     | some o =>
       let v := numAt p.payload 0 8
       s.abortOp o stPeerAbort (if nbits v 32 1 = 1 then .down else .up (pkgOf p)) (some (nbits v 0 16, nbits v 16 16))))

/-! ## Deadlines (R255, R256) -/

/-- Children that still owe a record of some stripe (R439). -/
def Op.childrenOwing (o : Op) : Nat :=
  if o.isRed then (List.range o.nstripes).foldl (fun m k => max m (o.children - (o.stripe k).records)) 0 else 0

/-- An operation is still owed traffic: by its local members, by its children, by other parts of a data operation, or, where it only
replicates, by the root (R256, R264 to R271, R664, R666). DEDUCED: assumption 21. -/
def State.isOwed (s : State) (o : Op) : Bool :=
  !(s.owing o).isEmpty || o.childrenOwing != 0 || (!o.isRed && !s.dataDone o)
    || (o.isRed && !o.root && o.stage == .delivering
      && decide (o.delivered < (s.resultsOwed o).1 ∨ o.lasts < (s.resultsOwed o).2))

/-- The deadline of an operation has come, and every packet of it that has been accepted has been acted on (R256). -/
def State.deadlineDue (s : State) (o : Op) : Bool :=
  o.live && o.deadline.any (fun d => decide (d ≤ s.now)) && !s.untaken o

/-- The one evaluation of a deadline: an operation still owed traffic aborts with TIMEOUT and says what was missing; any other goes on,
however late it ends (R256). -/
def State.evalDeadline (s : State) (o : Op) : State :=
  let ports := s.owing o
  if s.isOwed o then
    let l := (s.job o.job).layout o.layoutNo
    let miss := ports.foldl (fun m q => min m ((s.bitMember l q).getD noMember)) noMember
    s.abortOwn { o with missing := miss, portsShort := ports.length, childrenShort := o.childrenOwing } stTimeout
  else s.setOp { o with deadline := none }

/-- BUCKET_DEADLINE: the end of the tick of an operation's deadline. -/
def execBucketDeadline (job tag : Nat) (s : State) : Res :=
  match s.findOp job tag with
  | none => .next s
  | some o => s.act (s.deadlineDue o) (s.evalDeadline o)

/-- A tick ends: the deadlines that have come are evaluated (R256). -/
def State.deadlines (s : State) : State :=
  s.each s.ops (fun s x => match s.findOp x.job x.tag with
    | some o => if s.deadlineDue o then s.evalDeadline o else s
    | none => s)

end Sys2Proof.Machine
end

