-- ==== Sys2Proof/Machine/Exchange.lean ====
section
/-! DEFINITION. ALLGATHER, SHIFT and PERMUTE: their checks, and the data packets that carry them. -/
namespace Sys2Proof.Machine

/-- Subtypes of DATA packets (R512). -/
def dsAllgather : Nat := 0
def dsShift : Nat := 1
def dsCounts : Nat := 2
def dsRows : Nat := 3
def dsPark : Nat := 4
def dsFetch : Nat := 5
def dsEndpoint : Nat := 6
def dsImage : Nat := 7
def dsTelemetry : Nat := 8

/-! ## Checks at issue (R61, R78, R228, R264, R268, R674) -/

/-- What every data operation is checked for: Seedling service and its epoch. -/
def State.dataCheck (s : State) (x : Ctx) (own : Option Nat) : Option Nat :=
  if x.seed then some stSeedling
  else match own with
    | some st => some st
    | none => if epochCase (s.job (s.ringJob x.ring)) x = .stale then some stStaleEpoch else none

/-- ALLGATHER (R264); its length is judged before its formats (R61). DESIGN CHOICE: assumption 81. -/
def execAllgather (c : Ref) (s : State) : Res :=
  s.issue c 0x05 (fun x => s.queueTagged c (s.dataCheck x
    (if x.p 84 40 = 0 then some stBadField
     else if x.p 124 4 = 0xF ∨ x.p 128 4 = 0xF ∨ x.p 132 2 = 3 then some stBadFormat else none)))

/-- SHIFT (R266). -/
def execShift (c : Ref) (s : State) : Res := s.issue c 0x06 (fun x => s.queueTagged c (s.dataCheck x none))

/-- PERMUTE (R268). -/
def execPermute (c : Ref) (s : State) : Res :=
  s.issue c 0x07 (fun x => s.queueTagged c (s.dataCheck x (if x.p 20 16 = 0 ∨ x.p 36 16 = 0 then some stBadField else none)))

/-! ## Arrival of data packets (R230, R239, R241) -/

/-- Row counts that another part sends before this part has admitted the PERMUTE are kept, as an early notice is (R237, R270). DEDUCED: assumption 18. -/
def State.keepCounts (s : State) (p : Packet) : State := s.modJob (pget p Ph.job) (fun b => { b with earlyCounts := b.earlyCounts ++ [p] })

/-- The packet comes from another part, and from no member at a port of this one (R270). DEDUCED: assumption 18. -/
def State.fromPart (s : State) (port : Nat) (p : Packet) : Bool :=
  !s.namesSelf (pkgOf p) && (!isPortIo port || s.fget (Reg.portFar port) F.portFar_deviceKind == 0)

/-- A data packet of a tagged operation: strays and stale epochs are counted, else the operation takes it. -/
def State.dataIn (s : State) (port : Nat) (p : Packet) (sub : Nat) (f : State → Op → State) : Res :=
  s.act (pget p Ph.type == ptData && pget p Ph.dataSub == sub && s.jobIs (pget p Ph.job) jobActive)
    (let bad := s.spoiled p
     let s := s.taken p
     if bad then s.bufferCell port p
     else match s.findOp (pget p Ph.job) (pget p Ph.tag) with
     | none => if sub == dsCounts && s.fromPart port p && pget p Ph.epoch == (s.job (pget p Ph.job)).get J.epoch then s.keepCounts p
      else s.strayCells p
     | some o =>
       if o.epoch != pget p Ph.epoch then s.staleCells o (s.packetCells p)
       else if !o.live then s
       else f s o)

/-- The packet comes from the member that the layout places on a port of SRC_MASK (R242). -/
def State.fromSender (s : State) (o : Op) (port : Nat) (p : Packet) : Bool :=
  let q := s.entryBit port p
  o.src.contains q && s.bitMember ((s.job o.job).layout o.layoutNo) q == some (pget p Ph.sender)

/-- A foreign packet is dropped and counted (R242). -/
def State.foreignData (s : State) (o : Op) (p : Packet) : State := s.foreignCells o p

/-- `n` more units are accepted from a port of the logical switch: a surplus aborts the operation (R242). -/
def State.acceptData (s : State) (o : Op) (q n : Nat) (f : State → Op → State) : State :=
  let sent := o.portSent q + n
  if s.portOwes o q < sent then s.abortOwn o stOvercount
  else
    let o := { o with accepted := tset 0 o.accepted q sent, valuesIn := o.valuesIn + n }
    f (s.setOp o) o

/-- A DATA packet of an operation to a coordinate. -/
def State.sendData (s : State) (o : Op) (toPart dest offset member sub : Nat) (payload : Bytes) : State :=
  s.send (s.mkPacket ptData 0 toPart dest 0 o.job o.tag o.epoch (dataFields offset member sub) o.cls payload)

/-! ## ALLGATHER (R265) -/

/-- Elements of the range converted for ALLGATHER: element × 2^(−T_CONV) encoded in DST_FMT (R265). -/
def State.gatherEncode (s : State) (o : Op) (l : List (Nat × Num)) : Bytes × Cnt :=
  let key := (s.job o.job).get J.key
  let draw (i : Nat) := if o.p 132 2 = 2 then seedDraw key o.gen o.tensor (o.base + i) 3 else 0
  encodeElems (o.p 128 4) (o.p 132 2) (o.p 134 1 == 1) (l.map (fun e => (Num.scale (-(o.ps 135 8)) e.2, draw e.1)))

/-- An element of the range belongs to the share of a member that sends on a local port (R265). -/
def State.gatherOwns (s : State) (o : Op) (i : Nat) : Bool :=
  o.src.any (fun q => match s.bitMember ((s.job o.job).layout o.layoutNo) q with
    | some k =>
      let (a, n) := shareOf o.nelem o.members k
      decide (a ≤ i ∧ i < a + n)
    | none => false)

/-- The elements of block `k` of the range that this part sends (R73). A block that reaches into another part's shares is encoded by each
part over the elements that it has. DESIGN CHOICE: assumption 18. -/
def State.gatherBlock (s : State) (o : Op) (k : Nat) : List Nat :=
  (rangeFrom (32 * k) (min 32 (o.nelem - 32 * k))).filter (s.gatherOwns o)

/-- Elements of one block, in ascending order, as runs of consecutive ones. -/
def elemRuns (l : List Nat) : List (Nat × Nat) :=
  l.foldr (fun i r => match r with
    | (a, n) :: t => if a = i + 1 then (i, n + 1) :: t else (i, 1) :: (a, n) :: t
    | [] => [(i, 1)]) []

/-- Runs of successive blocks joined where whole blocks follow one another. -/
def joinBlocks (l : List (Nat × Nat)) : List (Nat × Nat) :=
  l.foldr (fun x r => match r with
    | (a, n) :: t => if x.1 % 32 = 0 ∧ x.1 + x.2 = a ∧ a % 32 = 0 then (x.1, x.2 + n) :: t else x :: (a, n) :: t
    | [] => [x]) []

/-- Most elements of an ALLGATHER that one RESULT packet carries, so that its NELEM holds their number. DEDUCED: assumption 17. -/
def gatherPiece : Nat := 32768

/-- A run of elements cut into pieces. -/
def gatherPieces (a n : Nat) : List (Nat × Nat) :=
  (List.range (ceilDiv n gatherPiece)).map (fun i => (a + gatherPiece * i, min gatherPiece (n - gatherPiece * i)))

/-- A RESULT packet with elements of the range, to the members of every part (R247, R265). LAST is set as it is routed. -/
def State.sendGather (s : State) (job tag a n : Nat) (b : Bytes) (c : Cnt) : State :=
  match s.findOp job tag with
  | none => s
  | some o =>
    let df := o.p 128 4
    let h := resultHeader o.tensor o.job df (if o.p 124 4 = df then 0 else o.ps 135 8) o.gen (o.base + a) n false
    (s.sendUnit (s.mkPacket ptResult 1 0 0 (o.p 167 12) o.job o.tag o.epoch (partFields o.tensor o.gen 0 0) o.cls (h ++ b))
      (unitOf df).2).setOp { o with delivered := o.delivered + n, out := o.out.add c }

/-- Elements that have come from a local sender, `a` to `a + n - 1` of the range, go on: their bits unchanged (R93), or converted; blocks
of an MX format once all of them that this part sends are there (R73). -/
def State.gatherOn (s : State) (o : Op) (a n : Nat) (b : Bytes) : State :=
  let sf := o.p 124 4
  let df := o.p 128 4
  let elem (i : Nat) : Nat × Num := (i, elemAt sf 0 b (i - a))
  if sf = df then
    s.each (gatherPieces a n) (fun s x =>
      s.sendGather o.job o.tag x.1 x.2 (bytesAt b (bytesFor sf (x.1 - a)) (bytesFor sf x.2)) ⟨0, 0, 0, 0⟩)
  else
    let m := (rangeFrom a n).foldl (fun m i => maxrecAdd m (elem i).2) o.maxrec
    if isMx df then
      let g := (rangeFrom a n).foldl (fun t i => tput t i (elem i).2) o.gather
      let ready := (rangeFrom (a / 32) (ceilDiv (a + n) 32 - a / 32)).filter (fun k => (s.gatherBlock o k).all (fun i => (tfind g i).isSome))
      let runs := joinBlocks (ready.flatMap (fun k => elemRuns (s.gatherBlock o k)))
      let s := s.setOp { o with maxrec := m, gather := ready.foldl (fun t k => (s.gatherBlock o k).foldl tdel t) g }
      s.each (runs.flatMap (fun x => gatherPieces x.1 x.2)) (fun s x =>
        let (d, c) := s.gatherEncode o ((rangeFrom x.1 x.2).map (fun i => (i, tget (elem i).2 g i)))
        s.sendGather o.job o.tag x.1 x.2 d c)
    else
      (s.setOp { o with maxrec := m }).each (gatherPieces a n) (fun s x =>
        let (d, c) := s.gatherEncode o ((rangeFrom x.1 x.2).map elem)
        s.sendGather o.job o.tag x.1 x.2 d c)

/-- ALLGATHER_DATA: elements of a member's share go to every DST_MASK member of every part; elements beyond its share are a surplus
(R242, R265). DEDUCED: assumption 18. -/
def execAllgatherData (port : Nat) (p : Packet) (s : State) : Res :=
  s.dataIn port p dsAllgather (fun s o =>
    if o.opcode != 0x05 || !s.fromSender o port p then s.foreignData o p
    else
      let (b0, bn) := shareOf o.nelem o.members (pget p Ph.sender)
      let sf := o.p 124 4
      let first := pget p Ph.byteOffset / (unitOf sf).2 * (unitOf sf).1
      let (n, beyond) := contribSplit sf bn first (elemCount sf p.payload)
      if beyond != 0 then s.abortOwn o stOvercount
      else s.acceptData o (s.entryBit port p) n (fun s o =>
        (if o.unopened then s else s.gatherOn o (b0 + first) n p.payload).settleData o.job o.tag))

/-! ## SHIFT (R267) -/

/-- The member to which a sender's bytes go, where there is one. -/
def Op.shiftTarget (o : Op) (k : Nat) : Option Nat :=
  let t : Int := k + o.ps 60 20
  if o.members = 0 then none
  else if o.p 80 1 = 1 then some (t % o.members).toNat
  else if 0 ≤ t ∧ t < o.members then some t.toNat
  else none

/-- The coordinate may receive: it is a port of another part, or one of the DST_MASK ports of this one (R266). -/
def State.mayReceive (s : State) (o : Op) (d : Nat) : Bool := !s.namesSelf (d % 2 ^ 16) || o.dst.contains (s.coordBit d)

/-- SHIFT_DATA: bytes go on, unchanged, to the member OFFSET away, where it receives. DEDUCED: assumption 18. -/
def execShiftData (port : Nat) (p : Packet) (s : State) : Res :=
  s.dataIn port p dsShift (fun s o =>
    if o.opcode != 0x06 || !s.fromSender o port p then s.foreignData o p
    else s.acceptData o (s.entryBit port p) p.payload.length (fun s o =>
      let l := (s.job o.job).layout o.layoutNo
      let k := pget p Ph.sender
      let s := match o.unopened, (o.shiftTarget k).bind (layoutCoord l) with
        | false, some d => if s.mayReceive o d then s.sendData o 0 d (pget p Ph.byteOffset) k dsShift p.payload else s
        | _, _ => s
      (s.setOp { o with delivered := o.delivered + p.payload.length }).settleData o.job o.tag))

/-! ## PERMUTE (R269 to R272) -/

/-- Rows of expert `e` from sender `i`. -/
def Op.rowCount (o : Op) (i e : Nat) : Nat := (o.countList i).getD e 0

/-- The count table of a receiving member, padded to a multiple of 64 B (R271). -/
def Op.countTable (o : Op) (k : Nat) : Bytes :=
  let (e0, en) := shareOf (o.p 20 16) o.members k
  padTo 64 ((rangeFrom e0 en).flatMap (fun e => (List.range o.members).flatMap (fun i => leBytes 4 (o.rowCount i e))))

/-- Bytes cut into DATA packets of at most 65,536 B. -/
def dataPieces (off : Nat) (b : Bytes) : List (Nat × Bytes) :=
  (List.range (max 1 (ceilDiv b.length 65536))).map (fun i => (off + 65536 * i, (b.drop (65536 * i)).take 65536))

/-- The count tables go to the local receiving members (R271). -/
def State.sendTables (s : State) (o : Op) : State :=
  s.each o.dst (fun s q => match s.bitMember ((s.job o.job).layout o.layoutNo) q with
    | none => s
    | some k => s.each (dataPieces 0 (o.countTable k)) (fun s x =>
        s.sendData o 0 (s.bitCoord q) x.1 noMember dsCounts x.2))

/-- Once every part has the counts of its senders, which have gone to the others before its notice, the senders get their second ready
notice and the receivers their tables (R270, R271, R526). DEDUCED: assumption 18. -/
def State.permuteReady (s : State) (job tag : Nat) : State :=
  match s.findOp job tag with
  | none => s
  | some o =>
    if o.live && !o.ready2 && s.countsAll o && o.parts.all (fun d => o.ready2From.contains d) then
      let s := (s.each o.src (fun s q => s.readyPort o 1 q)).setOp { o with ready2 := true }
      if o.unopened then s else s.sendTables o
    else s

/-- The part has the counts of all its senders, and tells the other parts (R270). -/
def State.countsHere (s : State) (o : Op) : State := if o.unopened then s else s.each o.parts (fun s d => s.control o 1 d [])

/-- Bytes of a string replaced from an offset. -/
def overlay (b : Bytes) (off : Nat) (d : Bytes) : Bytes := bytesAt b 0 off ++ d ++ b.drop (off + d.length)

/-- Row counts of a sender, all or some of its E, are taken from its local port or from its part; once every count is here the tables go
out, and the other parts learn of it (R270, R271). DEDUCED: assumption 18. -/
def State.countsIn (s : State) (job tag : Nat) (port : Option Nat) (p : Packet) : State :=
  match s.findOp job tag with
  | none => s
  | some o =>
    let k := pget p Ph.sender
    let off := pget p Ph.byteOffset
    let n := p.payload.length
    if !o.live || n = 0 then s
    else if o.countBytes < off + n ∨ o.countBytes < tget 0 o.countGot k + n then s.abortOwn o stOvercount
    else
      let o := { o with counts := tput o.counts k (overlay (tget [] o.counts k) off p.payload),
                        countGot := tset 0 o.countGot k (tget 0 o.countGot k + n),
                        accepted := match port with
                          | some q => tset 0 o.accepted q (o.portSent q + n)
                          | none => o.accepted }
      let s := s.setOp o
      let s := if port.isSome then s.each o.parts (fun s d => s.sendData o 1 d off k dsCounts p.payload) else s
      let s := if port.isSome && s.countsAll o then s.countsHere o else s
      (s.permuteReady o.job o.tag).settleData o.job o.tag

/-- PERMUTE_COUNTS: row counts from a local sender, which go to the other parts too, or from another part. DEDUCED: assumption 18. -/
def execPermuteCounts (port : Nat) (p : Packet) (s : State) : Res :=
  s.dataIn port p dsCounts (fun s o =>
    let local? := s.fromSender o port p
    if o.opcode != 0x07 || !(local? || s.fromPart port p) || o.members ≤ pget p Ph.sender then s.foreignData o p
    else s.countsIn o.job o.tag (if local? then some (s.entryBit port p) else none) p)

/-- READY2: another part holds every count (R270). DEDUCED: assumption 13. -/
def execReady2 (port : Nat) (p : Packet) (s : State) : Res :=
  s.act (pget p Ph.type == ptControl && pget p Ph.subtype == 1)
    (s.arrive port p (fun s => match s.matchOp p with
     | some o => (s.setOp { o with ready2From := pkgOf p :: o.ready2From }).permuteReady o.job o.tag
     | none => s.modJob (pget p Ph.job) (fun b =>
         let tag := pget p Ph.tag
         { b with early := ⟨tag, true, pget p Ph.epoch, pget p Ph.gen, pget p Ph.tensor, pget p Ph.tseq, pkgOf p⟩
                     :: b.early.filter (fun e => e.tag != tag || (e.second && e.src != pkgOf p)) })))

/-- Where a sender's row `r` belongs: its expert and its index among the sender's rows of that expert. -/
def rowExpert : List Nat → Nat → Nat → Nat × Nat
  | [], e, r => (e, r)
  | n :: t, e, r => if r < n then (e, r) else rowExpert t (e + 1) (r - n)

/-- The byte offset at which a row lands in its receiver's buffer: fixed by the counts alone (R271). -/
def Op.landing (o : Op) (k i e idx : Nat) : Nat :=
  let (e0, _) := shareOf (o.p 20 16) o.members k
  let all := (rangeFrom e0 (e - e0)).foldl (fun n x => (List.range o.members).foldl (fun m j => m + o.rowCount j x) n) 0
  let here := (List.range i).foldl (fun m j => m + o.rowCount j e) 0
  (o.countTable k).length + (all + here + idx) * o.p 36 16

/-- The member that hosts an expert (R269). -/
def Op.expertHost (o : Op) (e : Nat) : Option Nat :=
  (List.range o.members).find? (fun k =>
    let (a, n) := shareOf (o.p 20 16) o.members k
    decide (a ≤ e ∧ e < a + n))

/-- One row, or the part of it that a packet holds, lands at a local receiver or is dropped (R271, R272). -/
def State.landRow (s : State) (job tag i r lo : Nat) (b : Bytes) : State :=
  match s.findOp job tag with
  | none => s
  | some o =>
    let l := (s.job o.job).layout o.layoutNo
    let (e, idx) := rowExpert (o.countList i) 0 r
    match (o.expertHost e).map (fun k => (k, layoutCoord l k)) with
    | some (k, some d) =>
      if s.namesSelf (d % 2 ^ 16) ∧ o.dst.contains (s.coordBit d) then
        let at0 := o.landing k i e idx
        if o.p 52 40 ≤ at0 then
          s.setOp { o with dropped := o.dropped + (if lo = 0 then 1 else 0), delivered := o.delivered + b.length }
        else (s.setOp { o with delivered := o.delivered + b.length }).sendData o 0 d (at0 + lo) i dsRows b
      else s
    | _ => s

/-- The packages that host receivers other than this one. -/
def Op.otherParts (o : Op) : List Nat := o.parts

/-- The rows that a packet holds land at the receivers of this part (R271). -/
def State.landRows (s : State) (o : Op) (p : Packet) : State :=
  let rb := o.p 36 16
  let off := pget p Ph.byteOffset
  (s.each (rangeFrom (off / rb) (ceilDiv (off % rb + p.payload.length) rb)) (fun s r =>
    let lo := max off (r * rb)
    let hi := min (off + p.payload.length) ((r + 1) * rb)
    s.landRow o.job o.tag (pget p Ph.sender) r (lo - r * rb) ((p.payload.drop (lo - off)).take (hi - lo)))).settleData o.job o.tag

/-- Rows of another part wait in the packet buffer while this part does not know every count. -/
def State.rowsWait (s : State) (port : Nat) (p : Packet) : Bool :=
  match s.findOp (pget p Ph.job) (pget p Ph.tag) with
  | some o => o.live && o.opcode == 0x07 && o.epoch == pget p Ph.epoch && !o.ready2 && s.fromPart port p
  | none => false

/-- PERMUTE_ROWS: rows from a local sender, which comes after its second ready notice, go to the other parts too, and each part that has
every count lands those of its own receivers (R270, R271). DEDUCED: assumption 18. -/
def execPermuteRows (port : Nat) (p : Packet) (s : State) : Res :=
  if s.rowsWait port p then .next s
  else s.dataIn port p dsRows (fun s o =>
    let local? := s.fromSender o port p
    if o.opcode != 0x07 || !(local? || s.fromPart port p) || !o.ready2 then s.foreignData o p
    else if local? then
      s.acceptData o (s.entryBit port p) p.payload.length (fun s o =>
        if o.unopened then s.settleData o.job o.tag
        else (s.each o.otherParts (fun s d => s.sendData o 1 d (pget p Ph.byteOffset) (pget p Ph.sender) dsRows p.payload)).landRows o p)
    else s.landRows o p)

end Sys2Proof.Machine
end

