-- ==== Sys2Proof/Machine/Admit.lean ====
section
/-! DEFINITION. ADMIT: the admission of tagged commands, and of SIEVE_RUNs with scratch slots. -/
namespace Sys2Proof.Machine

/-! ## ADMIT (R228, R236, R237, R239) -/

/-- The anchor of a reduction: explicit, or derived from the tensor's history (R131). -/
def anchorOf (b : Job) (x : Ctx) : Int :=
  if x.p 120 1 = 1 then
    match b.record (x.p 20 24) with
    | some r => derivedAnchor b r
    | none => b.sgn J.anchorInit
  else x.ps 121 10

/-- T of a reduction's contributions (R112). -/
def wireT (b : Job) (x : Ctx) : Int :=
  if plainWire (x.p 109 4) then 0
  else match b.record (x.p 20 24) with
    | some r => bsgn T.tWire r
    | none => 0

/-- The mask fields of a tagged command: SRC_MASK, DST_MASK and PARTS_MASK; SHIFT names no parts (R231, R264, R266, R268). -/
def tagMasks (x : Ctx) : Nat × Nat × Option Nat :=
  if isReduction x.opcode then (x.p 131 12, x.p 143 12, some (x.p 276 12))
  else if x.opcode = 0x05 then (x.p 143 12, x.p 155 12, some (x.p 167 12))
  else if x.opcode = 0x06 then (x.p 81 12, x.p 93 12, none)
  else (x.p 92 12, x.p 104 12, some (x.p 116 12))

/-- TIMEOUT of a tagged command. -/
def tagTimeout (x : Ctx) : Nat :=
  if isReduction x.opcode then x.p 299 21
  else if x.opcode = 0x05 then x.p 229 21
  else if x.opcode = 0x06 then x.p 107 21
  else x.p 130 21

/-- A new operation in flight (R225, R231, R255). -/
def State.newOp (s : State) (x : Ctx) (place : List Nat) (unopened ready : Bool) : Op :=
  let j := s.ringJob x.ring
  let b := s.job j
  let (sm, dm, pm) := tagMasks x
  let red := isReduction x.opcode
  let t := tagTimeout x
  { ring := x.ring, idx := x.idx, opcode := x.opcode, job := j, tag := x.p 0 10, epoch := x.p 10 6, par := x.par,
    admTick := s.now, deadline := if t = 0 then none else some (s.now + 64 * t),
    anchor := if red then anchorOf b x else 0, tIn := if red then wireT b x else 0,
    members := layoutCount (b.layout (x.p 16 3)),
    src := s.maskPorts sm, dst := if x.opcode = 0x01 then [] else s.maskPorts dm,
    parts := match pm with
      | some m => s.maskParts m
      | none => [],
    stage := .accepting, live := true, unopened := unopened, place := place, stripes := [], accepted := [], valuesIn := 0,
    stale := 0, foreign := 0, parentReady := ready, finalChunks := [], sentChunks := [], delivered := 0, lasts := 0,
    out := ⟨0, 0, 0, 0⟩, maxrec := maxrecNone, summary := none, fenced := [], missing := noMember, portsShort := 0,
    childrenShort := 0, fencedOwing := noMember, originStatus := 0, originCoord := 0, counts := [], ready2 := false, ready2From := [],
    gather := [], gone := 0, countGot := [], dropped := 0 }

/-- The kept early notices under a tag (R237). -/
def Job.earlyOf (b : Job) (tag : Nat) : List Early := b.early.filter (fun e => e.tag == tag)

/-- An early notice matches an operation (R237). -/
def Op.takesEarly (o : Op) (e : Early) : Bool :=
  e.epoch == o.epoch && e.gen == o.gen && e.tensor == o.tensor && e.tseq == o.tseq

/-- The tag's STRAY bit clears at admission; the job's usage, its maxima and its early notices follow (R133, R162, R237, R239). -/
def Job.admitted (b : Job) (x : Ctx) (o : Op) : Job :=
  let b := { b with stray := bset ⟨o.tag, 1⟩ b.stray 0, early := b.early.filter (fun e => e.tag != o.tag),
                    earlyCounts := b.earlyCounts.filter (fun p => pget p Ph.tag != o.tag),
                    aborted := b.aborted.filter (fun n => n.tag != o.tag) }
  let b := if epochCase b x = .next then b.put J.epoch o.epoch else b
  let b := b.put J.slotsUsed (b.get J.slotsUsed + x.stripes)
  let b := if o.reserves then b.setGrad (b.gradElems + o.nelem) else b
  if o.isRed then
    let b := b.noteAdmitted o.tensor o.gen
    if o.p 275 1 = 1 then b.noteLast o.tensor o.gen o.tseq (o.opcode == 0x01) else b
  else b

/-- The row counts that other parts sent before this part admitted the PERMUTE (R270). DEDUCED: assumption 18. -/
def Job.keptCounts (b : Job) (o : Op) : List Packet :=
  b.earlyCounts.filter (fun p => o.opcode == 0x07 && pget p Ph.tag == o.tag && pget p Ph.epoch == o.epoch)

/-- Row counts kept under the tag that are not the operation's: those of another epoch count in STALE_IN, others in FOREIGN_IN (R230,
R242). -/
def State.dropKept (s : State) (b : Job) (o : Op) : Op :=
  (b.earlyCounts.filter (fun p => pget p Ph.tag == o.tag)).foldl (fun o p =>
    if pget p Ph.epoch != o.epoch then { o with stale := o.stale + s.packetCells p }
    else if o.opcode == 0x07 then o else { o with foreign := o.foreign + s.packetCells p }) o

/-- A command is admitted: its tag, slots and reservation are taken and its ready notices go out (R236, R237). -/
def State.takeIn (s : State) (x : Ctx) (place : List Nat) : State :=
  let j := s.ringJob x.ring
  let b := s.job j
  let stray := bflag ⟨x.p 0 10, 1⟩ b.stray
  let unopened := stray && !(isReduction x.opcode && x.p 288 1 == 1)
  let o := s.newOp x place unopened false
  let o := { o with
    parentReady := (b.earlyOf o.tag).any (fun e => o.takesEarly e && e.src == o.parent && !e.second)
    ready2From := ((b.earlyOf o.tag).filter (fun e => o.takesEarly e && e.second)).map (·.src) }
  let o := s.dropKept b o
  let s := s.setJob j (b.admitted x o)
  let s := { s with ops := s.ops ++ [o], freeCtr := s.freeCtr + 1 }
  let s := s.modCtx x.ref (fun y => { y.start s.now with eligTick := none })
  let s := s.each (b.keptCounts o) (fun s p => s.countsIn o.job o.tag none p)
  let s := s.readyNotices o 0
  let s := if o.opcode == 0x07 && s.countsAll o then (s.countsHere o).permuteReady o.job o.tag else s
  s.settleData o.job o.tag

/-- A SIEVE_RUN with scratch slots is admitted: its stripes are placed, and it is eligible to start (R236, R327). -/
def State.admitSieve (s : State) (x : Ctx) (place : List Nat) : State :=
  let s := s.modJob (s.ringJob x.ring) (fun b => b.put J.slotsUsed (b.get J.slotsUsed + place.length))
  let s := s.modCtx x.ref (fun y => { y with eligTick := none })
  { s with freeCtr := s.freeCtr + 1
           sieves := s.sieves.map (fun r =>
             if r.ring == x.ring && r.idx == x.idx then { r with elig := some s.now, place := place } else r) }

/-- The status with which a command that awaits admission is rejected when it is judged again: its epoch has become stale (R228), or the
history that it derives from can no longer date its entries (R133). -/
def State.judgeAgain (s : State) (x : Ctx) : Option Nat :=
  let b := s.job (s.ringJob x.ring)
  if !isTagged x.opcode then none
  else if epochCase b x = .stale then some stStaleEpoch
  else match (if isReduction x.opcode then b.record (x.p 20 24) else none) with
    | some r => if derives x r && anchorReady b x && !histDates r (x.p 211 48) then some stGenMismatch else none
    | none => none

/-- ADMIT: an eligible tagged command, or a SIEVE_RUN with scratch slots, is admitted in eligibility order; one that is judged again and
fails is rejected (R133, R228, R236, R327). -/
def execAdmitOp (c : Ref) (s : State) : Res :=
  let t := s.stampEligible
  match t.ctx c with
  | none => .next s
  | some x =>
    s.act (x.phase == .queued && (isTagged x.opcode || x.opcode == 0x0F))
      (match t.judgeAgain x with
       | some st => t.rejectCmd c st
       | none =>
         if (t.eligible x || t.sieveEligible x) && t.firstEligible x then
          match t.makeRoom x.stripes with
          | none => t
          | some u =>
            match u.placement x.stripes with
            | none => t
            | some place => if isTagged x.opcode then u.takeIn x place else u.admitSieve x place
         else t)

end Sys2Proof.Machine
end

