-- ==== Sys2Proof/Machine/Shake.lean ====
section
/-! DEFINITION. SHAKE256, by which images, firmware and attestation are digested (R219, R220, R602, R623). -/
namespace Sys2Proof.Machine

/-- The lanes of the permutation's state: lane (x, y) at 5y + x. -/
abbrev Lanes := List Word64

def lane (a : Lanes) (x y : Nat) : Word64 := a.getD (5 * (y % 5) + x % 5) 0

def lanesOf (f : Nat → Nat → Word64) : Lanes := (List.range 25).map (fun i => f (i % 5) (i / 5))

/-- Rotation of a lane by ρ, in lane order. -/
def rhoOf (i : Nat) : Nat :=
  [0, 1, 62, 28, 27, 36, 44, 6, 55, 20, 3, 10, 43, 25, 39, 41, 45, 15, 21, 8, 18, 2, 61, 56, 14].getD i 0

/-- The round constants of ι. -/
def iotaOf (r : Nat) : Word64 :=
  BitVec.ofNat 64 (([0x1, 0x8082, 0x800000000000808A, 0x8000000080008000, 0x808B, 0x80000001, 0x8000000080008081,
    0x8000000000008009, 0x8A, 0x88, 0x80008009, 0x8000000A] ++ [0x8000808B, 0x800000000000008B, 0x8000000000008089,
    0x8000000000008003, 0x8000000000008002, 0x8000000000000080, 0x800A, 0x800000008000000A, 0x8000000080008081,
    0x8000000000008080, 0x80000001, 0x8000000080008008]).getD r 0)

/-- One round of the permutation. -/
def keccakRound (a : Lanes) (r : Nat) : Lanes :=
  let c (x : Nat) : Word64 := (List.range 5).foldl (fun v y => v ^^^ lane a x y) 0
  let cs := (List.range 5).map c
  let d (x : Nat) : Word64 := cs.getD ((x + 4) % 5) 0 ^^^ (cs.getD ((x + 1) % 5) 0).rotateLeft 1
  let ds := (List.range 5).map d
  let t := lanesOf (fun x y => (lane a x y ^^^ ds.getD x 0).rotateLeft (rhoOf (5 * y + x)))
  -- π moves lane (x, y) to (y, 2x + 3y)
  let p := lanesOf (fun x y => lane t (x + 3 * y) x)
  let h := lanesOf (fun x y => lane p x y ^^^ (~~~lane p (x + 1) y &&& lane p (x + 2) y))
  match h with
  | [] => []
  | l :: q => (l ^^^ iotaOf r) :: q

/-- The permutation of 24 rounds. -/
def keccak (a : Lanes) : Lanes := (List.range 24).foldl keccakRound a

/-- A block of 136 bytes added into the state and permuted. -/
def absorb (a : Lanes) (b : Bytes) : Lanes :=
  keccak ((List.range 25).map (fun i => if i < 17 then a.getD i 0 ^^^ BitVec.ofNat 64 (numAt b (8 * i) 8) else a.getD i 0))

/-- The message with its padding 1111 1 0* 1 to whole blocks. -/
def shakePad (b : Bytes) : Bytes :=
  let k := 136 - b.length % 136
  if k = 1 then b ++ [0x9F] else b ++ 0x1F :: List.replicate (k - 2) 0 ++ [0x80]

/-- SHAKE256 of a message, with at most 136 bytes of output. PRESUMED: assumption 11. -/
def shake256 (b : Bytes) (n : Nat) : Bytes :=
  let p := shakePad b
  let a := (chunksOf 136 p.length p).foldl absorb (List.replicate 25 0)
  (a.flatMap (fun l => leBytes 8 l.toNat)).take n

end Sys2Proof.Machine
end

