-- ==== Sys2Proof/Machine/Firmware.lean ====
section
/-! DEFINITION. The firmware image: its header, its checks and its digest. -/
namespace Sys2Proof.Machine

/-- Fields of an image header (R623). -/
def fwMagic (h : Bytes) : Nat := numAt h 0 8
def fwVersion (h : Bytes) : Nat := numAt h 8 2
def fwLen (h : Bytes) : Nat := numAt h 10 4
def fwSvn (h : Bytes) : Nat := numAt h 14 2
def fwDigestField (h : Bytes) : Bytes := bytesAt h 20 32
def fwSignature (h : Bytes) : Bytes := bytesAt h 64 114

/-- A body as a byte string. -/
def bodyBytes (n : Nat) (t : Tab Byte) : Bytes := (List.range n).map (tget 0 t)

/-- The header's fields are those of an image (R623). -/
def fwShape (h : Bytes) : Bool :=
  fwMagic h == 0x444548534F494C50 && fwVersion h == 1 && decide (4096 ≤ fwLen h ∧ fwLen h ≤ 1572864) && fwLen h % 4096 == 0
    && numAt h 52 12 == 0 && numAt h 178 334 == 0

/-- The checks of R624 but that of the marker and the last one: form, signature and security version. -/
def State.fwHeaderOk (s : State) (h : Bytes) : Bool :=
  fwShape h && Config.verifies (Config.vendorKey 0) (h.take 64) (fwSignature h) && decide (s.nv.svnFloor ≤ fwSvn h)

/-- BODY_DIGEST matches the body (R624). -/
def fwBodyOk (h : Bytes) (t : Tab Byte) : Bool := shake256 (bodyBytes (fwLen h) t) 32 == fwDigestField h

/-- The boot ROM accepts the image in flash (R624). -/
def State.imageValid (s : State) : Bool :=
  s.nv.flashMarker && s.fwHeaderOk s.nv.flashHeader && fwBodyOk s.nv.flashHeader s.nv.flashBody

/-- The image in flash starts to run. -/
def State.startImage (s : State) : State :=
  { s with shed := { s.shed with runningHeader := s.nv.flashHeader, runningBody := s.nv.flashBody } }

/-- FW_DIGEST: SHAKE256 of the running image's header and body (R577, R629). -/
def State.fwDigest (s : State) : Bytes :=
  shake256 (bytesAt s.shed.runningHeader 0 512 ++ bodyBytes (fwLen s.shed.runningHeader) s.shed.runningBody) 32

end Sys2Proof.Machine
end

