-- ==== Sys2Proof/Machine/Block.lean ====
section
/-! DEFINITION. The parameter block of a SIEVE_RUN. -/
namespace Sys2Proof.Machine

/-! ## The parameter block (R323, R324) -/

def pbHeader (b : Bytes) : Nat := numAt b 0 64
def pbNbuf (b : Bytes) : Nat := nbits (pbHeader b) 16 6
def pbThreads (b : Bytes) : Nat := nbits (pbHeader b) 32 10
def pbProgLen (b : Bytes) : Nat := nbits (pbHeader b) 128 17
def pbEntry (b : Bytes) : Nat := nbits (pbHeader b) 160 16
def pbArgs (b : Bytes) : List Word32 := (List.range 16).map (fun i => BitVec.ofNat 32 (numAt b (64 + 4 * i) 4))
def pbEntryRaw (b : Bytes) (i : Nat) : Nat := numAt b (128 + 32 * i) 32

/-- A buffer entry read (R324). -/
def pbBuf (b : Bytes) (i : Nat) : VyBuf :=
  let e := pbEntryRaw b i
  let k := nbits e 0 2
  let a := nbits e 8 64
  ⟨k, nbits e 2 1 == 1, nbits e 3 4, if k = 0 then a else if k = 1 then a % 2 ^ 32 else if k = 2 then a % 2 ^ 24 else a % 2 ^ 23,
    nbits e 72 40, nbits e 112 40, ofTwos 8 (nbits e 152 8), nbits e 160 24⟩

def pbBufs (b : Bytes) : List VyBuf := (List.range (pbNbuf b)).map (pbBuf b)

/-- Bits of a buffer entry that must be 0 (R324). -/
def badEntry (e : Nat) : Bool :=
  let k := nbits e 0 2
  nbits e 7 1 != 0 || nbits e 184 72 != 0
    || (k == 1 && nbits e 40 32 != 0) || (k == 2 && nbits e 32 40 != 0) || (k == 3 && nbits e 31 41 != 0)
    || ((k == 0 || k == 3) && nbits e 112 40 != 0)

end Sys2Proof.Machine
end

