-- ==== Sys2Proof/Machine/Norm.lean ====
section
/-! DEFINITION. NORM: the exact job-wide sum of squares in two exchanged passes. -/
namespace Sys2Proof.Machine

/-! ## Lost sectors (R654 to R657) -/

/-- The unit of the pseudo-channel that holds a line of 512 B. -/
def lineUnit (line : Nat) : Nat := unitPc (line / 2 ^ 21)

/-- A sector of 64 bytes is in the lost-line list, or its pseudo-channel has FAILED (R646, R654, R676). DESIGN CHOICE: assumption 40. -/
def State.lostSector (s : State) (sec : Nat) : Bool :=
  tget 0 s.shed.lost (sec / 8) / 2 ^ (sec % 8) % 2 == 1 || s.unitState (lineUnit (sec / 8)) == 3

/-- Some sector of the store may be lost: a line is listed, or a pseudo-channel has FAILED. -/
def State.anyLost (s : State) : Bool :=
  !s.shed.lost.isEmpty || s.shed.scores.any (fun e => decide (928 ≤ e.1 ∧ e.1 < 1696) && nbits e.2 11 2 == 3)

/-- One of some sectors lies in a pseudo-channel whose slice runs: an access to it waits (R642). -/
def State.sliced (s : State) (sectors : List Nat) : Bool :=
  s.shed.slices.any (fun r => r.stage == .running && decide (928 ≤ r.unit ∧ r.unit < 1696)
    && sectors.any (fun x => lineUnit (x / 8) == r.unit))

/-- An element of a region lies in a lost sector. -/
def State.lostElem (s : State) (region job a e : Nat) : Bool :=
  s.anyLost && s.lostSector (Config.sectorOf region job a e)

/-- The sectors of a tensor record. -/
def recordSectors (job t : Nat) : List Nat := (List.range 4).map (Config.sectorOf 7 job t)

/-- A tensor record lies in a lost sector (R657). -/
def State.lostRecord (s : State) (job t : Nat) : Bool := s.anyLost && (recordSectors job t).any s.lostSector

/-- The entry of an access to sectors one of which is lost: its line, and the pseudo-channel that holds it (R651, R652). -/
def State.logHbm (s : State) (code job gen : Nat) (sectors : List Nat) : State :=
  let line := (sectors.find? s.lostSector).getD 0 / 8
  s.logUnit 0x08 code 2 (lineUnit line) (logDetail (some job) none gen (line % 2 ^ 21))

/-- The sectors of a held gradient in the gradient area. -/
def Held.sectors (h : Held) : List Nat := (List.range h.nelem).map (fun i => Config.sectorOf 5 h.job h.tensor (h.base + i))

/-- A held gradient has an element in a lost sector of the gradient area. -/
def State.lostGrad (s : State) (h : Held) : Bool :=
  h.lost || (h.spill.isSome && s.anyLost && h.sectors.any s.lostSector)

/-! ## Coverage (R274) -/

/-- The records of a range of tensor IDs, in ascending order. -/
def Job.inRange (b : Job) (first count : Nat) : List (Nat × Rec) :=
  b.records.filter (fun e => decide (first ≤ e.1 ∧ e.1 < first + count))

/-- The shards that NORM and STEP work on: with a shard and not FROZEN (R168, R274). -/
def Job.working (b : Job) (first count : Nat) : List (Nat × Rec) :=
  (b.inRange first count).filter (fun e => !bflag T.scaleOnly e.2 && !bflag T.frozen e.2)

/-- The held gradients of a tensor and generation. -/
def State.heldOf (s : State) (job tensor gen : Nat) : List Held :=
  s.held.filter (fun h => h.job == job && h.tensor == tensor && h.gen == gen)

/-- The held buckets of a list cover the elements from `pos` to `stop`. -/
def coveredFrom (l : List Held) (stop : Nat) : Nat → Nat → Bool
  | 0, pos => decide (stop ≤ pos)
  | fuel + 1, pos =>
    if stop ≤ pos then true
    else match l.find? (fun h => decide (h.base ≤ pos ∧ pos < h.base + h.nelem)) with
      | none => false
      | some h => coveredFrom l stop fuel (h.base + h.nelem)

/-- Every element of a record's shard has a held gradient of the generation. -/
def State.gradsHeld (s : State) (job gen : Nat) (e : Nat × Rec) : Bool :=
  let l := s.heldOf job e.1 gen
  coveredFrom l (bget T.shardBase e.2 + bget T.shardLen e.2) l.length (bget T.shardBase e.2)

/-- All the gradients of a list of tensors. -/
def State.gradsOf (s : State) (job gen : Nat) (l : List (Nat × Rec)) : List Held :=
  l.flatMap (fun e => s.heldOf job e.1 gen)

/-- The elements of a held bucket as NORM and the FUU take them (R54, R128). -/
def Held.values (h : Held) : List Nat := (List.range h.nelem).map h.grad

/-! ## The two passes (R146) -/

/-- MAXREC of |g| over the finite elements of a list of held buckets. -/
def heldMax (l : List Held) : Word32 :=
  l.foldl (fun m h => h.values.foldl (fun m c => maxrecAdd m (f32 c)) m) maxrecNone

/-- The accumulator of pass 2: the dot product of the gradients with themselves, with the overflow flags of their buckets. -/
def heldSquares (a : Int) (h : Nat) (l : List Held) : Slot :=
  let acc := l.foldl (fun acc x => x.values.foldl (fun acc c => (dotTerm a h acc (f32 c) (f32 c)).1) acc) Slot.empty
  ⟨acc.n, l.foldl (fun f x => f ||| x.overFlags) acc.flags⟩

/-- A CONTROL packet of a NORM to a peer (R512, R514). -/
def State.normSend (s : State) (r : NormRun) (sub dest : Nat) (payload : Bytes) : State :=
  s.send (s.mkPacket ptControl 0 1 dest 0 r.job 0 0 (partFields r.first r.gen 0 sub) 1 payload)

/-- The messages of a pass that a NORM has. -/
def NormRun.msgs (r : NormRun) (b : Job) (second : Bool) : List NormMsg :=
  b.normMsgs.filter (fun m => m.tensor == r.first && m.gen == r.gen && m.second == second)

/-- The gradients that a running NORM covers. -/
def State.normGrads (s : State) (r : NormRun) : List Held :=
  s.gradsOf r.job r.gen ((s.job r.job).working r.first r.count)

/-- The first pass is complete: the job-wide maximum and count fix the anchor, and the record of the squares goes out. Its NCONTRIB is 1
(R139). DEDUCED: assumption 30. -/
def State.normSecond (s : State) (r : NormRun) : State :=
  let ms := r.msgs (s.job r.job) false
  let n := ms.foldl (fun n m => n + m.n) r.n
  let mx := ms.foldl (fun a m => maxrecMax a m.maxrec) r.maxrec
  let a := normAnchor (maxrecExp mx) (headroom n)
  let acc := heldSquares a (headroom n) (s.normGrads r)
  let r' := { r with second := true, anchor := a, acc := acc, jobN := n, jobMax := mx }
  let rec1 := xpBytes ⟨0, a, 1, residue [acc.n.toInt], 1, noMember, maxrecNone, ⟨0, 0, 0, 0⟩, [acc]⟩
  let s := { s with norms := s.norms.map (fun (x : NormRun) => if x.ring == r.ring && x.idx == r.idx then r' else x) }
  s.each r.peers (fun s d => s.normSend r' 5 d rec1)

/-- The second pass is complete: the combined sum is the result, which stays with the job (R147, R148, R275). -/
def State.normDone (s : State) (r : NormRun) : State :=
  let sum := (r.msgs (s.job r.job) true).foldl (fun a m => a.join m.slot) r.acc
  let v := normSumVal r.anchor sum
  let own := if r.owners ≤ 1 then some ((s.normGrads r).flatMap Held.values) else none
  let s := s.endNorm r
  let s := s.modJob r.job (fun b => { b with norms := b.norms ++
    [⟨r.first, r.count, r.gen, r.anchor, sum.n, sum.flags, r.jobN, r.jobMax, own⟩] })
  s.modCtx r.ref (fun c => { c.finish stOk with
    result := BitVec.ofNat 96 (norm32 v + 2 ^ 32 * sumsq32 v + 2 ^ 64 * sum.flags.toNat) })

/-- A NORM goes on as far as its peers' messages allow; a record with another anchor, early or not, aborts it (R134, R275). -/
def State.normGo (s : State) (ring idx : Nat) : State :=
  let find (s : State) := s.norms.find? (fun r => r.ring == ring && r.idx == idx)
  let s := match find s with
    | none => s
    | some r => if !r.second && decide (r.owners - 1 ≤ (r.msgs (s.job r.job) false).length) then s.normSecond r else s
  match find s with
  | none => s
  | some r =>
    if r.second && (r.msgs (s.job r.job) true).any (fun m => m.anchor != r.anchor) then s.failNorm r stAnchorMismatch
    else if r.second && decide (r.owners - 1 ≤ (r.msgs (s.job r.job) true).length) then s.normDone r else s

/-! ## NORM (R273 to R277) -/

/-- The range meets a result that is held or in flight for the generation (R276). -/
def State.normMeets (s : State) (job first count gen : Nat) : Bool :=
  (s.job job).norms.any (fun n => n.gen == gen && rangesMeet first count n.first n.count)
    || s.norms.any (fun n => n.job == job && n.gen == gen && rangesMeet first count n.first n.count)

/-- The results of a generation, held or in flight. -/
def State.normCount (s : State) (job gen : Nat) : Nat :=
  ((s.job job).norms.filter (fun n => n.gen == gen)).length + (s.norms.filter (fun n => n.job == job && n.gen == gen)).length

/-- A command that fails its checks; a lost table, one of `sectors`, writes the entry TABLE (R651). -/
def State.rejectChecked (s : State) (c : Ref) (j gen st : Nat) (sectors : List Nat) : State :=
  let s := if st = stStoreLost then s.logHbm 4 j gen sectors else s
  s.rejectCmd c st

/-- The checks of NORM (R196, R274, R276, R657, R674). -/
def State.normCheck (s : State) (j first count gen : Nat) : Option Nat :=
  let l := (s.job j).working first count
  if s.seedling then some stSeedling
  else if s.normMeets j first count gen then some stOverlap
  else if 64 ≤ s.normCount j gen then some stBudget
  else if l.any (fun e => s.lostRecord j e.1) then some stStoreLost
  else if !l.all (s.gradsHeld j gen) then some stMissingGradient
  else none

/-- The gradients of one tensor and generation are released (R196). -/
def State.releaseGrads (s : State) (job tensor gen : Nat) : State := s.each (s.heldOf job tensor gen) State.dropHeld

/-- A slot of a held gradient has an uncorrectable error: the entry SLOT, and the bed's health count (R615, R651). -/
def State.slotLost (s : State) (bed job gen : Nat) : State :=
  (s.logUnit 0x07 1 2 (unitBed bed) (logDetail (some job) none gen 0)).addPoints (unitBed bed) 128

/-- A gradient read with an uncorrectable error: GRAD_LOST, the log entry, and the tensor's gradients released (R196, R651). -/
def State.gradLost (s : State) (c : Ref) (h : Held) : State :=
  let s := if h.spill.isSome then s.logHbm 2 h.job h.gen h.sectors else s.slotLost (h.place.headD 0) h.job h.gen
  (s.releaseGrads h.job h.tensor h.gen).endCmd c stGradLost

/-- NORM begins: its first pass, its owner path and its messages to the peers, of 16 bytes and class 1. DESIGN CHOICE: assumption 84. -/
def State.normStart (s : State) (x : Ctx) : State :=
  let j := s.ringJob x.ring
  let b := s.job j
  let l := b.working (x.p 0 24) (x.p 24 24)
  let gen := x.p 48 48
  let peers := s.maskParts (x.p 96 12)
  let n := l.foldl (fun n e => n + bget T.shardLen e.2) 0
  let mx := heldMax (s.gradsOf j gen l)
  let t := x.p 124 21
  let r : NormRun := ⟨x.ring, x.idx, j, x.p 0 24, x.p 24 24, gen, peers, x.p 108 16, s.now,
    if t = 0 then none else some (s.now + 64 * t), n, mx, false, 0, Slot.empty, 0, maxrecNone⟩
  let s := s.modJob j (fun b => { b with ownerPath := some (x.p 96 12) })
  let s := { s with norms := s.norms ++ [r] }
  let s := s.modCtx x.ref (Ctx.start s.now)
  let s := s.each peers (fun s d => s.normSend r 4 d (leBytes 16 (mx.toNat + 2 ^ 32 * (n % 2 ^ 40))))
  s.normGo x.ring x.idx

/-- The bed of a held gradient that a check of NORM names. DESIGN CHOICE: assumption 37. -/
def State.heldBed (s : State) (l : List Held) : Nat :=
  let beds := l.flatMap Held.place
  beds.getD (Config.faultBed s.freeCtr % max 1 beds.length) 0

/-- A residue check fails under a command that reads held gradients: the dot product, or the read-out of a slot (R150, R151, R651). -/
def State.heldResidue (s : State) (l : List Held) (u : Upset) (job gen : Nat) : State :=
  let b := unitBed (s.heldBed l)
  ((s.logUnit 0x06 (if u == .readout then 3 else 4) 2 b (logDetail (some job) none gen 0)).addPoints b 64).bump

/-- A record of another part's partial sums fails its residue check in the XP decoder of a bed, whose health count rises (R144, R151, R651).
DESIGN CHOICE: assumption 37. -/
def State.partFault (s : State) (job gen : Nat) : State :=
  let l := s.bedsActive
  let b := unitBed (l.getD (Config.faultBed s.freeCtr % max 1 l.length) 0)
  ((s.logUnit 0x06 2 2 b (logDetail (some job) none gen 0)).addPoints b 64).bump

/-- NORM: its checks, what it finds of the gradients, and its first pass (R274, R275); it waits for a slice of
what it reads (R642). -/
def execNorm (c : Ref) (upset : Upset) (s : State) : Res :=
  s.issue c 0x08 (fun x =>
    let j := s.ringJob c.ring
    let l := s.gradsOf j (x.p 48 48) ((s.job j).working (x.p 0 24) (x.p 24 24))
    match s.normCheck j (x.p 0 24) (x.p 24 24) (x.p 48 48) with
    | some st => s.rejectChecked c j (x.p 48 48) st (((s.job j).working (x.p 0 24) (x.p 24 24)).flatMap (fun e => recordSectors j e.1))
    | none =>
      if s.sliced ((l.filter (fun h => h.spill.isSome)).flatMap Held.sectors) then s
      else match l.find? (fun h => s.lostGrad h || upset == .ecc) with
      | some h => s.gradLost c h
      | none =>
        if upset == .residue || upset == .readout then (s.heldResidue l upset j (x.p 48 48)).endCmd c stArithFault
        else s.normStart x)

/-! ## Messages and the deadline -/

/-- A NORM message is kept, one for each peer and pass, and every NORM of the job goes on. DEDUCED: assumption 30. -/
def State.normTake (s : State) (p : Packet) (m : NormMsg) : State :=
  let j := pget p Ph.job
  let keep (x : NormMsg) : Bool := !(x.src == m.src && x.tensor == m.tensor && x.gen == m.gen && x.second == m.second)
  let s := s.modJob j (fun b => { b with normMsgs := b.normMsgs.filter keep ++ [m] })
  s.each (s.norms.filter (fun r => r.job == j && r.first == m.tensor && r.gen == m.gen)) (fun s r => s.normGo r.ring r.idx)

/-- NORM_MAX: a peer's MAXREC and count; with the last of them the second pass begins, whose dot product is checked (R150, R275). -/
def execNormMax (port : Nat) (c : Checked) (s : State) : Res :=
  let p := c.p
  let upset := c.upset
  s.act (pget p Ph.type == ptControl && pget p Ph.subtype == 4)
    (s.arrive port { p with bad := p.bad || upset == .ecc } (fun s =>
       let v := numAt p.payload 0 16
       let m : NormMsg := ⟨pkgOf p, pget p Ph.tensor, pget p Ph.gen, false, BitVec.ofNat 32 v, nbits v 32 40, 0, Slot.empty⟩
       let t := s.normTake p m
       let began := (s.normRuns p).filter (fun x => !x.second && !(t.norms.any (fun y => y.ring == x.ring && y.idx == x.idx && !y.second)))
       if (upset == .residue || upset == .readout) && !began.isEmpty then
         began.foldl (fun (s : State) x => (s.heldResidue (s.normGrads x) upset x.job x.gen).failNorm x stArithFault) s
       else t))

/-- NORM_SUM: a peer's record, checked as an XP record is (R144, R275). -/
def execNormSum (port : Nat) (p : Packet) (upset : Upset) (s : State) : Res :=
  s.act (pget p Ph.type == ptControl && pget p Ph.subtype == 5)
    (s.arrive port { p with bad := p.bad || upset == .ecc } (fun s =>
       let r := xpParse p.payload
       let runs := s.normRuns p
       let fail (st : Nat) : State := s.each runs (fun s x => s.failNorm x st)
       if r.stripe ≠ 0 ∨ r.nelem ≠ 1 then fail stXpCheck
       else if upset = .residue ∨ upset = .readout ∨ xpResOk r = false then
         (s.partFault (pget p Ph.job) (pget p Ph.gen)).each runs (fun s x => s.failNorm x stXpCheck)
       else s.normTake p ⟨pkgOf p, pget p Ph.tensor, pget p Ph.gen, true, maxrecNone, 0, r.anchor, r.slots.getD 0 Slot.empty⟩))

/-- NORM_DEADLINE: at the deadline a NORM that still lacks a message aborts with TIMEOUT (R275). -/
def execNormDeadline (c : Ref) (s : State) : Res :=
  match s.norms.find? (fun r => r.ring == c.ring && r.idx == c.idx) with
  | none => .next s
  | some r =>
    let due := match r.deadline with
      | some d => decide (d ≤ s.now)
      | none => false
    let b := s.job r.job
    s.act (due && (decide ((r.msgs b false).length < r.owners - 1) || decide ((r.msgs b true).length < r.owners - 1)))
      (s.failNorm r stTimeout)

end Sys2Proof.Machine
end

