-- ==== Sys2Proof/Machine/Update.lean ====
section
/-! DEFINITION. STEP: the fused update unit, factored statistics, interruption and resumption, and the release of gradients. -/
namespace Sys2Proof.Machine

/-! ## Groups and programs (R169 to R171, R180, R181) -/

abbrev G.prog : Bits := ⟨0, 4⟩
abbrev G.round : Bits := ⟨4, 2⟩
abbrev G.sat : Bits := ⟨6, 1⟩
abbrev G.k (n : Nat) : Bits := ⟨32 + 32 * n, 32⟩
abbrev G.beta1 : Bits := ⟨416, 32⟩
abbrev G.beta2 : Bits := ⟨448, 32⟩
abbrev G.tcount : Bits := ⟨480, 48⟩

def Job.group (b : Job) (g : Nat) : BitVec 1024 := tget 0 b.groups g
/-- A microprogram slot entry (R171). -/
def Job.slotEntry (b : Job) (p : Nat) : BitVec 2048 := tget 0 b.progs p

/-- A tensor that is one row or one column keeps no factored statistics (R171, R181). -/
def isVector (r : Rec) : Bool := bget T.cols r == 1 || bget T.nelem r == bget T.cols r

/-- The program that updates a tensor (R181). -/
def Job.progOf (b : Job) (r : Rec) : Nat :=
  let p := bget G.prog (b.group (bget T.group r))
  if p = 3 ∧ isVector r then 1 else p

/-- The program exists: built in, or in a slot that is present (R170). -/
def Job.progThere (b : Job) (p : Nat) : Bool := decide (p ≤ 3) || (decide (p ≤ 7) && bflag ⟨0, 1⟩ (b.slotEntry p))

/-- The instructions of a program. -/
def Job.progText (b : Job) (p : Nat) : List Word32 :=
  if p ≤ 3 then builtin p
  else let e := b.slotEntry p
    (List.range (bget ⟨4, 6⟩ e)).map (fun n => BitVec.ofNat 32 (bget ⟨32 * n + 64, 32⟩ e))

/-- The arrays that a tensor's program keeps: first moment, second moment, factored statistics (R171, R180). -/
def Job.keeps (b : Job) (r : Rec) : Bool × Bool × Bool :=
  match b.progOf r with
  | 0 => (true, false, false)
  | 1 => (true, true, false)
  | 2 => (true, false, false)
  | 3 => (true, false, true)
  | p => let e := b.slotEntry p
    (bflag ⟨1, 1⟩ e, bflag ⟨2, 1⟩ e, bflag ⟨3, 1⟩ e && !isVector r)

def Job.shard (b : Job) (t : Nat) : Shard := tget Shard.empty b.shards t
def Job.setShard (b : Job) (t : Nat) (x : Shard) : Job := { b with shards := tput b.shards t x }

/-- A stored value widened exactly to FP32 (R172). -/
def widen (fmt code : Nat) : Nat := rne32 (decodeNum fmt code)

/-- Bytes of a moment, and of a factored statistic (R160). -/
def momentBytes (r : Rec) : Nat := if bget T.momentFmt r = 0 then 4 else 2

/-- A write-back: FP32 unrounded, else once by ROUND under SAT (R177). -/
def writeBack (fmt : Nat) (g : BitVec 1024) (draw : Nat) (v : Nat) : Nat × Cnt :=
  if fmt = 0 then (v, ⟨0, 0, 0, 0⟩) else encodeNum fmt (bget G.round g) (bflag G.sat g) draw (f32 v)

/-! ## Factored statistics (R182) -/

/-- Rows of a tensor seen as a matrix. -/
def rowsOf (r : Rec) : Nat := bget T.nelem r / bget T.cols r

/-- A range of elements holds an element of a row, or of a column. -/
def touchesRow (cols base len i : Nat) : Bool := decide (0 < len ∧ i * cols < base + len ∧ base < (i + 1) * cols)
def touchesCol (cols base len j : Nat) : Bool := decide ((j + cols - base % cols) % cols < len)

/-- The rows or the columns that a shard touches. -/
def touched (r : Rec) (base len : Nat) (byCol : Bool) : List Nat :=
  let c := bget T.cols r
  if byCol then (List.range c).filter (touchesCol c base len)
  else if len = 0 then [] else rangeFrom (base / c) ((base + len - 1) / c - base / c + 1)

/-- The groups of 256 rows or columns that a shard touches. -/
def touchedGroups (r : Rec) (base len : Nat) (byCol : Bool) : List Nat :=
  ((touched r base len byCol).map (· / 256)).eraseDups

/-- The other shards of a tensor that touch a group of rows or columns. -/
def othersTouching (r : Rec) (byCol : Bool) (g : Nat) : Nat :=
  ((List.range (bget T.owners r)).filter (fun k =>
    k != bget T.shardIndex r
      && (let (b, n) := shareOf (bget T.nelem r) (bget T.owners r) k
          (touchedGroups r b n byCol).contains g))).length

/-- What the update of one tensor works with. -/
structure Upd where
  gen : Nat
  t : Nat
  r : Rec
  g : BitVec 1024
  key : Nat
  scale : Nat
  lr : Nat
  grads : List Held
  anchor : Int
  head : Nat

def Upd.base (u : Upd) : Nat := bget T.shardBase u.r
def Upd.len (u : Upd) : Nat := bget T.shardLen u.r

/-- The gradient of an element, by its index within the tensor. -/
def Upd.grad (u : Upd) (e : Nat) : Nat :=
  match u.grads.find? (fun h => decide (h.base ≤ e ∧ e < h.base + h.nelem)) with
  | some h => h.grad (e - h.base)
  | none => 0

/-- g' = rne32(g × s). -/
def Upd.scaled (u : Upd) (e : Nat) : Nat := rne32 ((f32 (u.grad e)).mul (f32 u.scale))

/-- The part's own partial sum of squares of a row or column. -/
def Upd.partialSum (u : Upd) (byCol : Bool) (i : Nat) : Slot :=
  let c := bget T.cols u.r
  let es := if byCol then
      ((List.range (rowsOf u.r)).map (fun k => k * c + i)).filter (fun e => decide (u.base ≤ e ∧ e < u.base + u.len))
    else (rangeFrom u.base u.len).filter (fun e => e / c == i)
  es.foldl (fun acc e => (dotTerm u.anchor u.head acc (f32 (u.scaled e)) (f32 (u.scaled e))).1) Slot.empty

/-- The sum of a row or column over all the owners. -/
def Upd.fullSum (u : Upd) (b : Job) (byCol : Bool) (i : Nat) : Slot :=
  (b.stats.filter (fun x => x.tensor == u.t && x.gen == u.gen && x.cols == byCol && x.stripe == i / 256)).foldl
    (fun a x => a.join (x.slots.getD (i % 256) Slot.empty)) (u.partialSum byCol i)

/-- A new row or column statistic with its write-back counters: fma(rne32(S ÷ n) + K6, K3, rne32(K2 × old)), stored by ROUND under SAT. -/
def Upd.stat (u : Upd) (s : Slot) (n draw old : Nat) : Nat × Cnt :=
  let k (i : Nat) := bget (G.k i) u.g
  let fmt := bget T.momentFmt u.r
  let m := rne32 ((readSlot u.anchor s).div (.fin false n))
  let a := rne32 ((f32 m).add (f32 (k 6)))
  let o := rne32 ((f32 (k 2)).mul (f32 (widen fmt old)))
  writeBack fmt u.g draw (rne32 (((f32 a).mul (f32 (k 3))).add (f32 o)))

/-- One array of statistics, each entry updated once for the generation: the values, their generations, the counters. -/
def Upd.statArray (u : Upd) (b : Job) (byCol : Bool) (vals gens : Tab Nat) : Tab Nat × Tab Nat × Cnt :=
  let c := bget T.cols u.r
  (touched u.r u.base u.len byCol).foldl (fun (a : Tab Nat × Tab Nat × Cnt) i =>
    if tget 0 a.2.1 i = u.gen + 1 then a
    else
      let (v, k) := u.stat (u.fullSum b byCol i) (if byCol then rowsOf u.r else c)
        (seedDraw u.key u.gen u.t (if byCol then i else i * c) 2) (tget 0 a.1 i)
      (tset 0 a.1 i v, tset 0 a.2.1 i (u.gen + 1), a.2.2.add k)) (vals, gens, ⟨0, 0, 0, 0⟩)

/-- The statistics of a shard, updated once for the generation, with their write-back counters (R87, R182). -/
def Upd.stats (u : Upd) (b : Job) (x : Shard) : Shard × Cnt :=
  let (rows, rowGen, k1) := u.statArray b false x.rows x.rowGen
  let (cols, colGen, k2) := u.statArray b true x.cols x.colGen
  ({ x with rows := rows, rowGen := rowGen, cols := cols, colGen := colGen }, k1.add k2)

/-- Every statistic of a shard has been updated for a generation. -/
def Shard.statsDone (x : Shard) (r : Rec) (gen : Nat) : Bool :=
  let mine := touched r (bget T.shardBase r) (bget T.shardLen r)
  (mine false).all (fun i => tget 0 x.rowGen i == gen + 1) && (mine true).all (fun i => tget 0 x.colGen i == gen + 1)

/-- The stored statistic of a row that the shard does not touch, as its owner sent it. DESIGN CHOICE: assumption 73. -/
def Job.peerRow (b : Job) (t gen mb i : Nat) : Option Nat :=
  (b.rowRecs.find? (fun k => k.tensor == t && k.gen == gen && decide (k.first ≤ i ∧ i < k.first + k.data.length / mb))).map
    (fun k => numAt k.data (mb * (i - k.first)) mb)

/-- The rows of a tensor that a shard does not touch. -/
def otherRows (r : Rec) : List Nat :=
  let mine := touched r (bget T.shardBase r) (bget T.shardLen r) false
  (List.range (rowsOf r)).filter (fun i => !mine.contains i)

/-- The mean of the stored row statistics over all the rows, rounded once (R182). -/
def Upd.meanRow (u : Upd) (b : Job) (x : Shard) : Nat :=
  let fmt := bget T.momentFmt u.r
  let mine := touched u.r u.base u.len false
  let row (i : Nat) := if mine.contains i then tget 0 x.rows i else (b.peerRow u.t u.gen (momentBytes u.r) i).getD 0
  let sum := (List.range (rowsOf u.r)).foldl (fun (a : Num) i => a.add (decodeNum fmt (row i))) (Num.fin false 0)
  rne32 (sum.div (.fin false (rowsOf u.r)))

/-! ## One element (R172, R177, R178) -/

/-- The operand file at the start of the program. -/
def Upd.file (u : Upd) (b : Job) (x : Shard) (mean e : Nat) : FuuFile :=
  let i := e - u.base
  let c := bget T.cols u.r
  let mf := bget T.momentFmt u.r
  let (k1, k2, kf) := b.keeps u.r
  let one := 0x3F800000
  let sub (p : Nat) := rne32 ((f32 one).add (f32 p).neg)
  let f := tset 0 (tset 0 [] 0 (u.grad e)) 1 (widen (bget T.masterFmt u.r) (tget 0 x.weights i))
  let f := if k1 then tset 0 f 2 (widen mf (tget 0 x.m1 i)) else f
  let f := if k2 then tset 0 f 3 (widen mf (tget 0 x.m2 i)) else f
  let f := if kf then
      tset 0 (tset 0 f 4 (widen mf (tget 0 x.rows (e / c)))) 5
        (rne32 ((f32 (widen mf (tget 0 x.cols (e % c)))).div (f32 mean)))
    else f
  let f := (List.range 12).foldl (fun f n => tset 0 f (16 + n) (bget (G.k n) u.g)) f
  tset 0 (tset 0 (tset 0 (tset 0 f 28 u.scale) 29 (sub (bget G.beta1 u.g))) 30 (sub (bget G.beta2 u.g))) 31 u.lr

/-- The new shard after one element's update, with the write-back counters. -/
def Upd.element (u : Upd) (b : Job) (x : Shard) (mean e : Nat) : Shard × Cnt :=
  let i := e - u.base
  let f := microRun (b.progText (b.progOf u.r)) (u.file b x mean e)
  let d (k : Nat) := seedDraw u.key u.gen u.t e k
  let (k1, k2, _) := b.keeps u.r
  let mf := bget T.momentFmt u.r
  let (w, c0) := writeBack (bget T.masterFmt u.r) u.g (d 0) (tget 0 f 1)
  let x := { x with weights := tset 0 x.weights i w }
  let (x, c1) := if k1 then
      let (v, c) := writeBack mf u.g (d 1) (tget 0 f 2)
      ({ x with m1 := tset 0 x.m1 i v }, c)
    else (x, ⟨0, 0, 0, 0⟩)
  let (x, c2) := if k2 then
      let (v, c) := writeBack mf u.g (d 2) (tget 0 f 3)
      ({ x with m2 := tset 0 x.m2 i v }, c)
    else (x, ⟨0, 0, 0, 0⟩)
  (x, (c0.add c1).add c2)

/-- The run of a STEP over its tensors: elements left until an upset and its kind, elements written, counters, maximum, the status that
stopped it, and the tensor and the element range where it stopped. -/
structure StepRun where
  left : Option (Nat × Upset)
  n : Nat
  cnt : Cnt
  maxrec : Word32
  stop : Option Nat
  tensor : Nat
  first : Nat
  count : Nat

def StepRun.start (fault : Option (Nat × Upset)) : StepRun := ⟨fault, 0, ⟨0, 0, 0, 0⟩, maxrecNone, none, 0, 0, 0⟩

/-- A STEP stops at elements of a tensor. -/
def StepRun.halt (r : StepRun) (st t first count : Nat) : StepRun :=
  { r with stop := some st, tensor := t, first := first, count := count }

/-- The status with which an upset that is due stops a STEP (R151, R196, R651). -/
def StepRun.due (r : StepRun) : Option Nat :=
  match r.left with
  | some (0, .residue) | some (0, .readout) => some stArithFault
  | some (0, .ecc) => some stGradLost
  | _ => none

/-- An element cannot be read: STORE_LOST or GRAD_LOST (R196). -/
def State.lostStep (s : State) (j : Nat) (u : Upd) (k1 k2 : Bool) (e : Nat) : Option Nat :=
  if s.shed.lost.isEmpty then
    (if u.grads.any (fun h => h.lost && decide (h.base ≤ e ∧ e < h.base + h.nelem)) then some stGradLost else none)
  else
    let at' (reg i : Nat) := s.lostElem reg j u.t i
    if at' 0 e || (k1 && at' 1 e) || (k2 && at' 2 e) then some stStoreLost
    else if u.grads.any (fun h => (h.lost || (h.spill.isSome && at' 5 e)) && decide (h.base ≤ e ∧ e < h.base + h.nelem)) then
      some stGradLost
    else none

/-- The sectors of the row and the column statistic of an element. -/
def statSectors (j t : Nat) (r : Rec) (e : Nat) : List Nat :=
  [Config.sectorOf 3 j t (e / bget T.cols r), Config.sectorOf 4 j t (e % bget T.cols r)]

/-- The row or the column statistic of an element lies in a lost sector (R654). -/
def State.lostStat (s : State) (j t : Nat) (r : Rec) (e : Nat) : Bool := s.anyLost && (statSectors j t r e).any s.lostSector

/-- Elements of one tensor, in order from its DONE, until one stops the STEP. -/
def State.stepElems (s : State) (j : Nat) (u : Upd) (b : Job) (mean : Nat) : List Nat → StepRun × Shard → StepRun × Shard
  | [], a => a
  | e :: l, (r, x) =>
    let (k1, k2, _) := b.keeps u.r
    match r.due with
    | some st => (r.halt st u.t e 1, x)
    | none =>
      match s.lostStep j u k1 k2 e with
      | some st => (r.halt st u.t e (1 + (l.takeWhile (fun i => s.lostStep j u k1 k2 i == some st)).length), x)
      | none =>
        let (x, c) := u.element b x mean e
        s.stepElems j u b mean l
          ({ r with left := r.left.map (fun p => (p.1 - 1, p.2)), n := r.n + 1, cnt := r.cnt.add c }, x)

/-! ## Tensors (R190, R191, R194, R195) -/

/-- The tensor's generation ends: GEN_STEP, DONE, and its history where the set of maxima is complete (R106, R107, R191). -/
def Job.stepped (b : Job) (t gen : Nat) (r : Rec) : Job :=
  let m := b.runMax t gen
  let r := bset T.done (bset T.genStep r gen) 0
  let r := if m.complete then advanceHistory r gen m.maxrec else r
  (b.setRecord t r).dropRunMax t gen

/-- WMAX over the shard's master weights (R179). -/
def shardMax (r : Rec) (x : Shard) : Word32 :=
  (List.range (bget T.shardLen r)).foldl (fun m i => maxrecAdd m (decodeNum (bget T.masterFmt r) (tget 0 x.weights i))) maxrecNone

/-- A NORM result as STEP uses it. -/
def NormRes.sum (n : NormRes) : Rat := normSumVal n.anchor ⟨n.acc, n.flags⟩

/-- The largest finite FP32 value in place of an infinity. DEDUCED: assumption 30. -/
def finite32 (c : Nat) : Nat := if c % 2 ^ 31 = 0x7F800000 then c - 1 else c

/-- MAXREC of |g'| over what a NORM covers (R146, R182): from the gradients themselves where the part alone covers them, and else from the
job-wide MAXREC of |g|, which is all that the parts have told each other. DEDUCED: assumption 30. -/
def NormRes.scaledMax (n : NormRes) (sc : Nat) : Word32 :=
  let g' (g : Num) : Nat := rne32 (g.mul (f32 sc))
  match n.own with
  | some l => l.foldl (fun m c => maxrecAdd m (f32 (g' (f32 c)))) maxrecNone
  | none => maxrecAdd maxrecNone (f32 (finite32 (g' (Num.fin false (maxrecVal n.maxrec)))))

/-- What the update of a tensor works with, in a state whose groups have been advanced; the anchor of its statistics follows from the
largest |g'| (R146, R182). -/
def State.upd (s : State) (x : Ctx) (n : NormRes) (e : Nat × Rec) : Upd :=
  let j := s.ringJob x.ring
  let b := s.job j
  let sc := (stepScale (x.p 128 32) (x.p 160 32) (b.sgn J.lsExp) n.sum).1
  let mx := maxrecExp (n.scaledMax sc)
  ⟨x.p 48 48, e.1, e.2, b.group (bget T.group e.2), b.get J.key, sc, x.p 96 32, s.heldOf j e.1 (x.p 48 48),
    normAnchor mx (headroom n.n), headroom n.n⟩

/-- The elements that a lost statistic of a tensor covers: the first run of them, where there is one (R196). -/
def State.statRange (s : State) (j : Nat) (u : Upd) : Option (Nat × Nat) :=
  if s.shed.lost.isEmpty then none
  else
    let bad (e : Nat) := s.lostStat j u.t u.r e
    match (rangeFrom u.base u.len).dropWhile (fun e => !bad e) with
    | [] => none
    | e :: l => some (e, 1 + (l.takeWhile bad).length)

/-- One tensor of an updating STEP. -/
def State.stepTensor (x : Ctx) (n : NormRes) (a : State × StepRun) (e : Nat × Rec) : State × StepRun :=
  let (s, r) := a
  let j := s.ringJob x.ring
  let u := s.upd x n e
  let b := s.job j
  let kf := (b.keeps u.r).2.2
  match r.stop, (if kf then s.statRange j u else none) with
  | some _, _ => a
  | none, some (first, count) => (s, r.halt stStoreLost u.t first count)
  | none, none =>
    let (sh, k) := if kf then u.stats b (b.shard u.t) else (b.shard u.t, ⟨0, 0, 0, 0⟩)
    let mean := if kf then u.meanRow b sh else 0
    let done := bget T.done u.r
    let redo := sh.redo
    let next := done + redo.length
    let (r', sh') := s.stepElems j u b mean (redo.map (u.base + ·) ++ rangeFrom (u.base + next) (u.len - next))
      ({ r with cnt := r.cnt.add k }, sh)
    let s := s.setJob j (b.setShard u.t { sh' with redo := redo.drop (r'.n - r.n) })
    match r'.stop with
    | some _ => (s.modJob j (fun b => b.setRecord u.t (bset T.done u.r (done + (r'.n - r.n)))), r')
    | none =>
      let m := shardMax u.r sh'
      let s := s.modJob j (fun b => b.stepped u.t u.gen (bset T.wmax u.r m.toNat))
      (s.releaseGrads j u.t u.gen, { r' with maxrec := maxrecMax r'.maxrec m })

/-- A tensor that STEP passes over as FROZEN, or that a SKIPPED outcome covers (R190, R191). -/
def State.passTensor (gen job : Nat) (s : State) (e : Nat × Rec) : State :=
  (s.modJob job (fun b => b.stepped e.1 gen e.2)).releaseGrads job e.1 gen

/-- The powers of a group advance once in a generation (R189). -/
def Job.advanceGroup (b : Job) (gen g : Nat) : Job :=
  if tget 0 b.groupGen g = gen + 1 then b
  else
    let w := b.group g
    let mulp (f : Bits) (k : Nat) := rne32 ((f32 (bget f w)).mul (f32 (bget (G.k k) w)))
    let w' := bset G.tcount (bset G.beta2 (bset G.beta1 w (mulp G.beta1 0)) (mulp G.beta2 2)) (bget G.tcount w + 1)
    { b with groups := tput b.groups g w', groupGen := tset 0 b.groupGen g (gen + 1) }

/-! ## Checks and waits (R170, R184 to R187, R197, R222, R251) -/

/-- The shards of a STEP's range. -/
def Job.withShard (b : Job) (first count : Nat) : List (Nat × Rec) :=
  (b.inRange first count).filter (fun e => !bflag T.scaleOnly e.2)

/-- The NORM result that a STEP uses (R185). -/
def Job.normFor (b : Job) (gen : Nat) (l : List (Nat × Rec)) : Option NormRes :=
  b.norms.find? (fun n => n.gen == gen && l.all (fun e => decide (n.first ≤ e.1 ∧ e.1 < n.first + n.count)))

/-- The tensors that a STEP has still to update. -/
def Job.toStep (b : Job) (first count gen : Nat) : List (Nat × Rec) :=
  (b.working first count).filter (fun e => bget T.genStep e.2 != gen)

/-- The sectors of a record, of its group and of its program. -/
def Job.tableSectors (b : Job) (j : Nat) (e : Nat × Rec) : List Nat :=
  let p := b.progOf e.2
  recordSectors j e.1 ++ (List.range 2).map (Config.sectorOf 7 j (2 ^ 24 + bget T.group e.2))
    ++ (if 4 ≤ p then (List.range 4).map (Config.sectorOf 7 j (2 ^ 25 + p)) else [])

/-- A record, its group or its program lies in a lost sector (R657). -/
def State.lostTables (s : State) (j : Nat) (e : Nat × Rec) : Bool :=
  s.anyLost && ((s.job j).tableSectors j e).any s.lostSector

/-- The checks of STEP: the status of the first failure. DEDUCED: assumption 68. A TENSOR_COUNT of 0 covers nothing. DESIGN CHOICE: assumption
81. -/
def State.stepCheck (s : State) (x : Ctx) : Option Nat :=
  let j := s.ringJob x.ring
  let b := s.job j
  let gen := x.p 48 48
  let l := b.toStep (x.p 0 24) (x.p 24 24) gen
  if s.seedling then some stSeedling
  else if x.p 192 2 = 3 then some stBadField
  else if gen ≠ b.get J.nextGen then some stGenMismatch
  else match b.normFor gen (b.withShard (x.p 0 24) (x.p 24 24)) with
    | none => some stNoNorm
    | some _ =>
      if l.any (fun e => s.lostTables j e) then some stStoreLost
      else if l.any (fun e => !b.progThere (b.progOf e.2)) then some stBadProgram
      else if (b.withShard (x.p 0 24) (x.p 24 24)).any (fun e => decide (bget T.covered e.2 < bget T.shardLen e.2)) then
        some stIncompleteRestore
      else if !l.all (s.gradsHeld j gen) then some stMissingGradient
      else none

/-- Fields that give the tensor range of a command that works on shards (R197). -/
def Ctx.tensors (x : Ctx) : Nat × Nat := (x.p 0 24, x.p 24 24)

/-- Of two commands the one that is free of its waits first, then the one of the lower-numbered ring, then the earlier descriptor (R197). -/
def Ctx.freedBefore (y x : Ctx) : Bool :=
  decide (y.freeTick < x.freeTick ∨ y.freeTick = x.freeTick ∧ (y.ring < x.ring ∨ y.ring = x.ring ∧ earlier y.idx x.idx))

/-- STEP and RESTORE: they let no other command work on their shards (R197). -/
def writesShard (op : Nat) : Bool := op == 0x09 || op == 0x0E

/-- The commands that work on the shards of a range of tensors (R197). -/
def usesShards (op : Nat) : Bool := writesShard op || op == 0x0A || op == 0x0D

/-- GEN_STEP of a tensor against a generation: all ones is below every one (R204). -/
def stepBelow (r : Rec) (gen : Nat) : Bool := bget T.genStep r == 2 ^ 48 - 1 || decide (bget T.genStep r < gen)
def stepAbove (r : Rec) (gen : Nat) : Bool := bget T.genStep r != 2 ^ 48 - 1 && decide (gen < bget T.genStep r)

/-- A PUBLISH waits for a STEP of one of its tensors (R204). -/
def State.pubWaits (s : State) (y : Ctx) : Bool :=
  y.opcode == 0x0A && !y.begun
    && ((s.job (s.ringJob y.ring)).withShard (y.p 0 24) (y.p 24 24)).any (fun e => stepBelow e.2 (y.p 48 48))

/-- A command is ahead of another at a shard: it works there already and has not completed, or it was freed first and waits for no STEP
(R197). -/
def State.ahead (s : State) (y x : Ctx) : Bool :=
  (y.phase == .ended && !y.rejected) || (y.phase == .run && (y.opcode != 0x0A || y.begun))
    || ((y.phase == .run || y.phase == .free) && y.freedBefore x && !s.pubWaits y)

/-- Buffers that are shards of a range of tensors (R325). -/
def shardBufs (first count : Nat) (l : List VyBuf) : Bool := l.any (fun b => b.kind == 2 && decide (first ≤ b.addr ∧ b.addr < first + count))

/-- A SIEVE_RUN that runs, or that is queued and was freed first, reads a shard of a command's range (R197). -/
def State.sieveAhead (s : State) (x : Ctx) : Bool :=
  let j := s.ringJob x.ring
  s.vy.any (fun p => p.job == j && shardBufs x.tensors.1 x.tensors.2 p.bufs)
    || s.sieves.any (fun r => s.ringJob r.ring == j && shardBufs x.tensors.1 x.tensors.2 (pbBufs r.block)
        && (s.ctx ⟨r.ring, r.idx⟩).any (fun y => y.freedBefore x))

/-- The sectors of the tables, arrays and gradients of the tensors of a command's range, and of their statistics. -/
def Job.rangeSectors (b : Job) (j : Nat) (x : Ctx) : List Nat :=
  (b.inRange x.tensors.1 x.tensors.2).flatMap (fun e =>
    b.tableSectors j e ++ (rangeFrom (bget T.shardBase e.2) (bget T.shardLen e.2)).flatMap (fun i =>
      [0, 1, 2, 5].map (fun g => Config.sectorOf g j e.1 i) ++ statSectors j e.1 e.2 i))

/-- An earlier command of the job works on a tensor of the range, and one of the two is STEP or RESTORE (R197); or a slice runs on a
pseudo-channel that holds what the command accesses (R642). -/
def State.shardBusy (s : State) (x : Ctx) : Bool :=
  s.host.ctxs.any (fun y => !Ctx.is x.ref y && s.ringJob y.ring == s.ringJob x.ring && usesShards y.opcode
    && (writesShard x.opcode || writesShard y.opcode) && rangesMeet x.tensors.1 x.tensors.2 y.tensors.1 y.tensors.2 && s.ahead y x)
    || (writesShard x.opcode && s.sieveAhead x) || s.sliced ((s.job (s.ringJob x.ring)).rangeSectors (s.ringJob x.ring) x)

/-- The sets of maxima of the tensors that a STEP waits for are complete (R251). -/
def Job.setsComplete (b : Job) (gen : Nat) (l : List (Nat × Rec)) : Bool := l.all (fun e => (b.runMax e.1 gen).complete)

/-- The update needs partial sums from other owners, and lacks some (R182). -/
def State.needsStats (s : State) (j gen : Nat) (e : Nat × Rec) : Bool :=
  let b := s.job j
  let (_, _, kf) := b.keeps e.2
  kf && !(b.shard e.1).statsDone e.2 gen && [false, true].any (fun byCol =>
    (touchedGroups e.2 (bget T.shardBase e.2) (bget T.shardLen e.2) byCol).any (fun g =>
      decide ((b.stats.filter (fun x => x.tensor == e.1 && x.gen == gen && x.cols == byCol && x.stripe == g)).length
        < othersTouching e.2 byCol g)))

/-- The part's partial sums of a factored tensor go to the other owners, one XP record a packet (R182, R514). -/
def State.sendStats (x : Ctx) (n : NormRes) (s : State) (e : Nat × Rec) : State :=
  let u := s.upd x n e
  let j := s.ringJob x.ring
  let b := s.job j
  let sh := b.shard u.t
  if sh.statSent = u.gen + 1 then s
  else
    let peers := match b.ownerPath with
      | some m => s.maskParts m
      | none => []
    let total (byCol : Bool) := if byCol then bget T.cols u.r else rowsOf u.r
    let s := s.setJob j (b.setShard u.t { sh with statSent := u.gen + 1 })
    s.each [false, true] (fun s byCol => s.each (touchedGroups u.r u.base u.len byCol) (fun s g =>
      let slots := (rangeFrom (256 * g) (min 256 (total byCol - 256 * g))).map (u.partialSum byCol)
      let rec1 := xpBytes ⟨g, u.anchor, slots.length, residue (slots.map (·.n.toInt)), 1, noMember, maxrecNone, ⟨0, 0, 0, 0⟩, slots⟩
      s.each peers (fun s d => s.send (s.mkPacket ptControl 0 1 d 0 j 0 0
        (partFields u.t u.gen (if byCol then 1 else 0) 8) 1 rec1))))

/-- The rows of a tensor whose first element lies in the shard: the first of them, and how many. -/
def ownRows (r : Rec) : Nat × Nat :=
  let c := bget T.cols r
  let first := ceilDiv (bget T.shardBase r) c
  (first, ceilDiv (bget T.shardBase r + bget T.shardLen r) c - first)

/-- The row statistics that a part sends to the other owners, for the mean over all the rows (R182). DESIGN CHOICE: assumption 73. -/
def State.sendRows (x : Ctx) (n : NormRes) (s : State) (e : Nat × Rec) : State :=
  let u := s.upd x n e
  let j := s.ringJob x.ring
  let b := s.job j
  let sh := b.shard u.t
  if sh.rowsSent = u.gen + 1 then s
  else
    let peers := match b.ownerPath with
      | some m => s.maskParts m
      | none => []
    let rows := (u.stats b sh).1.rows
    let (first, count) := ownRows u.r
    let s := s.setJob j (b.setShard u.t { sh with rowsSent := u.gen + 1 })
    s.each (List.range (ceilDiv count 256)) (fun s k =>
      let i0 := first + 256 * k
      let m := min 256 (count - 256 * k)
      let pl := leBytes 7 (i0 % 2 ^ 40 + 2 ^ 40 * m) ++ (rangeFrom i0 m).flatMap (fun i => leBytes (momentBytes u.r) (tget 0 rows i))
      s.each peers (fun s d => s.send (s.mkPacket ptControl 0 1 d 0 j 0 0 (partFields u.t u.gen 2 8) 1 pl)))

/-- A row statistic of another owner has not come yet (R182). -/
def State.needsRows (s : State) (j gen : Nat) (e : Nat × Rec) : Bool :=
  let b := s.job j
  (b.keeps e.2).2.2 && (otherRows e.2).any (fun i => (b.peerRow e.1 gen (momentBytes e.2) i).isNone)

/-! ## The STEP itself -/

/-- What the report of a STEP holds beside the fields of R440: NORM_VALUE (R193), and after STORE_LOST the tensor and the element range
(R196). DESIGN CHOICE: assumption 74. -/
def stepReport (r : StepRun) (norm : Nat) : BitVec 2048 :=
  let v := bset ⟨384, 32⟩ (smallReport r.n r.cnt r.maxrec 0 noMember) norm
  if r.stop = some stStoreLost then bset ⟨480, 32⟩ (bset ⟨440, 40⟩ (bset ⟨416, 24⟩ v r.tensor) r.first) (min r.count (2 ^ 32 - 1)) else v

/-- RESULT and report of a STEP (R193, R438, R440). -/
def State.stepEnd (s : State) (x : Ctx) (n : NormRes) (st outcome : Nat) (sc clip : Nat) (r : StepRun) : State :=
  s.modCtx x.ref (fun c => { c.finish st with
    result := BitVec.ofNat 96 (outcome + 2 ^ 11 * sc + 2 ^ 43 * clip)
    report := stepReport r (norm32 n.sum) })

/-- The shard elements in lost sectors are no longer covered (R656). -/
def State.uncoverLost (s : State) (j : Nat) (e : Nat × Rec) : State :=
  let b := s.job j
  match b.record e.1 with
  | none => s
  | some r =>
    let base := bget T.shardBase r
    let sh := b.shard e.1
    let kf := (b.keeps r).2.2
    let lost (i : Nat) := [0, 1, 2].any (fun g => s.lostElem g j e.1 (base + i)) || (kf && s.lostStat j e.1 r (base + i))
    let ok := (List.range (bget T.shardLen r)).filter (fun i => !lost i && sh.loaded.any (fun x => decide (x.1 ≤ i ∧ i < x.1 + x.2)))
    s.setJob j ((b.setShard e.1 { sh with loaded := ok.map (fun i => (i, 1)) }).setRecord e.1 (bset T.covered r ok.length))

/-- A bed whose FUU updates an element: one of the beds in use on the compute die that holds it (R46, R165); none of this package where
the die is one of the other's (R568). DESIGN CHOICE: assumption 37. -/
def State.fuuBed (s : State) (j t e : Nat) (r : Rec) (sh : Shard) : Option Nat :=
  let die := sh.dies.getD ((Config.dealStart j t + (e - bget T.shardBase r) / 4096) % max 1 sh.dies.length) 0
  let beds := s.bedsActive.filter (fun b => b / 34 == die % 8)
  if die / 8 = s.pkgNo then some (beds.getD (Config.faultBed s.freeCtr % max 1 beds.length) (34 * (die % 8))) else none

/-- The entry of a STEP that stops on an error (R196, R651). -/
def State.stepFault (s : State) (j gen st : Nat) (r : StepRun) : State :=
  let b := s.job j
  let tr := (b.record r.tensor).getD 0
  let hit := (s.heldOf j r.tensor gen).filter (fun h => decide (h.base ≤ r.first ∧ r.first < h.base + h.nelem))
  let slots := hit.filter (fun h => h.spill.isNone)
  match r.left with
  | some (0, .readout) => s.heldResidue slots .readout j gen
  | some (0, .ecc) => (s.slotLost (s.heldBed slots) j gen).bump
  | _ =>
    if st = stArithFault then
      match s.fuuBed j r.tensor r.first tr (b.shard r.tensor) with
      | some bed => ((s.logUnit 0x06 5 2 (unitBed bed) (logDetail (some j) none gen 0)).addPoints (unitBed bed) 64).bump
      | none => s.bump
    else if st = stStoreLost then
      s.logHbm 1 j gen ([0, 1, 2].map (fun g => Config.sectorOf g j r.tensor r.first) ++ statSectors j r.tensor tr r.first)
    else if slots.isEmpty then s.logHbm 2 j gen [Config.sectorOf 5 j r.tensor r.first]
    else s.slotLost ((slots.flatMap Held.place).headD 0) j gen

/-- What a STEP does once its checks and waits are behind it (R187 to R196). -/
def State.stepRun (s : State) (x : Ctx) (n : NormRes) (fault : Option (Nat × Upset)) : State :=
  let j := s.ringJob x.ring
  let b := s.job j
  let gen := x.p 48 48
  let todo := b.toStep (x.p 0 24) (x.p 24 24) gen
  let frozen := (b.withShard (x.p 0 24) (x.p 24 24)).filter (fun e => bflag T.frozen e.2 && bget T.genStep e.2 != gen)
  let flagged := n.flags &&& 0x1F ≠ 0
  let (sc, clip) := stepScale (x.p 128 32) (x.p 160 32) (b.sgn J.lsExp) n.sum
  if flagged ∧ x.p 192 2 = 0 then
    (s.each (todo ++ frozen) (State.passTensor gen j)).stepEnd x n stOk 1 sc clip (StepRun.start none)
  else
    let s := s.modJob j (fun b => todo.foldl (fun b e => b.advanceGroup gen (bget T.group e.2)) b)
    let (s, r) := todo.foldl (State.stepTensor x n) (s, StepRun.start fault)
    match r.stop with
    | none => (s.each frozen (State.passTensor gen j)).stepEnd x n stOk (if flagged then 2 else 0) sc clip r
    | some st =>
      let s := s.stepFault j gen st r
      let s := if st = stStoreLost then s.each todo (fun s e => s.uncoverLost j e) else s
      let s := if st = stGradLost then s.releaseGrads j r.tensor gen else s
      s.stepEnd x n st 0 sc clip r

/-- The sets of maxima of a STEP's tensors are complete, and no slice runs on a bed or on a pseudo-channel that holds what it reads (R251, R641,
R642). -/
def State.stepReady (s : State) (j gen : Nat) (todo : List (Nat × Rec)) : Bool :=
  let slicing (b : Nat) : Bool := s.shed.slices.any (fun r => r.unit == unitBed b && r.stage == .running)
  let sectors := todo.flatMap (fun e => (rangeFrom (bget T.shardBase e.2) (bget T.shardLen e.2)).flatMap (fun i =>
    [0, 1, 2, 5].map (fun g => Config.sectorOf g j e.1 i) ++ statSectors j e.1 e.2 i))
  !s.sliced sectors && (s.job j).setsComplete gen todo && !s.held.any (fun h =>
    h.job == j && h.gen == gen && h.spill.isNone && todo.any (fun e => e.1 == h.tensor) && h.place.any slicing)

/-- A STEP that is free of its waits, or that waits for maxima, partial sums or row statistics, goes as far as it can. -/
def State.stepGo (s : State) (x : Ctx) (fault : Option (Nat × Upset)) : State :=
  let j := s.ringJob x.ring
  let b := s.job j
  let gen := x.p 48 48
  match s.stepCheck x with
  | some st => s.rejectChecked x.ref j gen st ((b.toStep (x.p 0 24) (x.p 24 24) gen).flatMap (b.tableSectors j))
  | none =>
    match b.normFor gen (b.withShard (x.p 0 24) (x.p 24 24)) with
    | none => s
    | some n =>
      let todo := b.toStep (x.p 0 24) (x.p 24 24) gen
      let ready := s.stepReady j gen todo
      let s := if x.phase == .run then s else s.modCtx x.ref (Ctx.start s.now)
      if !ready then s
      else if n.flags &&& 0x1F ≠ 0 ∧ x.p 192 2 = 2 then
        let (sc, clip) := stepScale (x.p 128 32) (x.p 160 32) (b.sgn J.lsExp) n.sum
        s.stepEnd x n stFlagged 0 sc clip (StepRun.start none)
      else if n.flags &&& 0x1F ≠ 0 ∧ x.p 192 2 = 0 then s.stepRun x n fault
      else
        let crossing := todo.filter (fun e => (b.keeps e.2).2.2 && decide (1 < bget T.owners e.2))
        let s := s.each crossing (State.sendStats x n)
        let s := s.each (crossing.filter (fun e => !s.needsStats j gen e)) (State.sendRows x n)
        if crossing.any (fun e => s.needsStats j gen e || s.needsRows j gen e) then s else s.stepRun x n fault

/-- STEP (R183 to R196). -/
def execStep (c : Ref) (fault : Option (Nat × Upset)) (s : State) : Res :=
  s.issue c 0x09 (fun x => if s.shardBusy x then s else s.stepGo x fault)

/-- STEP_START: a STEP that waited starts its update (R251). -/
def execStepStart (c : Ref) (fault : Option (Nat × Upset)) (s : State) : Res :=
  match s.ctx c with
  | none => .next s
  | some x => s.act (x.phase == .run && x.opcode == 0x09) (s.stepGo x fault)

/-- STATS: partial sums, or row statistics, of another owner are kept for the STEP of their generation (R182). A record whose RES does not
fit is logged and dropped; its place and its anchor are not checked. DESIGN CHOICE: assumption 82. -/
def execStats (port : Nat) (p : Packet) (s : State) : Res :=
  s.act (pget p Ph.type == ptControl && pget p Ph.subtype == 8)
    (s.arrive port p (fun s =>
       let j := pget p Ph.job
       if pget p Ph.tseq = 2 then
         let h := numAt p.payload 0 7
         let k : BlockRec := ⟨pkgOf p, pget p Ph.tensor, pget p Ph.gen, nbits h 0 40, p.payload.drop 7⟩
         let other (y : BlockRec) : Bool := !(y.src == k.src && y.tensor == k.tensor && y.gen == k.gen && y.first == k.first)
         s.modJob j (fun b => { b with rowRecs := b.rowRecs.filter other ++ [k] })
       else
         let r := xpParse p.payload
         let byCol := pget p Ph.tseq == 1
         let x : StatsRec := ⟨pkgOf p, pget p Ph.tensor, pget p Ph.gen, byCol, r.stripe, r.slots⟩
         if !xpResOk r then s.partFault j (pget p Ph.gen)
         else
           let other (y : StatsRec) : Bool := !(y.src == x.src && y.tensor == x.tensor && y.gen == x.gen && y.cols == byCol && y.stripe == x.stripe)
           s.modJob j (fun b => { b with stats := b.stats.filter other ++ [x] })))

end Sys2Proof.Machine
end

