-- ==== Sys2Proof/Machine/Publish.lean ====
section
/-! DEFINITION. PUBLISH: the exchange of T_PUB and of straddling blocks, conversion, and the published packets. -/
namespace Sys2Proof.Machine

/-- The target format of a tensor's publication (R114). -/
def pubTarget (x : Ctx) (r : Rec) : Nat := if x.p 112 1 = 1 then bget T.pubFmt r else x.p 108 4

/-- Elements of the tensor that this part encodes: whole MX blocks whose first element it owns (R206). -/
def pubRange (fmt : Nat) (r : Rec) : Nat × Nat :=
  let a := bget T.shardBase r
  let z := a + bget T.shardLen r
  if isMx fmt then
    let first := ceilDiv a 32 * 32
    if first < z then (first, min (bget T.nelem r) (ceilDiv z 32 * 32) - first) else (first, 0)
  else (a, z - a)

/-- The elements at the start of a shard that belong to a block of another owner (R206). -/
def pubLead (fmt : Nat) (r : Rec) : Nat :=
  let a := bget T.shardBase r
  if isMx fmt then min (bget T.shardLen r) (ceilDiv a 32 * 32 - a) else 0

/-- The T_PUB exchange of a tensor takes messages from the other owners (R114). -/
def pubExchanges (fmt : Nat) (r : Rec) : Bool := !plainWire fmt && decide (1 < bget T.owners r)

/-- Master weight of an element: the part's own, or from a BLOCK packet. -/
def Job.weightAt (b : Job) (t gen : Nat) (r : Rec) (e : Nat) : Option Nat :=
  let a := bget T.shardBase r
  if a ≤ e ∧ e < a + bget T.shardLen r then some (tget 0 (b.shard t).weights (e - a))
  else (b.blocks.find? (fun k => k.tensor == t && k.gen == gen && decide (k.first ≤ e ∧ e < k.first + k.data.length / 2))).map
    (fun k => numAt k.data (2 * (e - k.first)) 2)

/-- The WMAX messages of a tensor and generation. -/
def Job.pubMsgs (b : Job) (t gen : Nat) : List PubMaxRec := b.pubMax.filter (fun m => m.tensor == t && m.gen == gen)

/-- A tensor can be converted: every owner's WMAX is here, and every weight of its blocks. -/
def Job.pubReady (b : Job) (x : Ctx) (gen : Nat) (e : Nat × Rec) : Bool :=
  let f := pubTarget x e.2
  let (a, n) := pubRange f e.2
  (!pubExchanges f e.2 || decide (bget T.owners e.2 - 1 ≤ (b.pubMsgs e.1 gen).length))
    && (List.range (min n 64)).all (fun i => (b.weightAt e.1 gen e.2 (a + n - 1 - i)).isSome)

/-- What a part tells the other owners before it converts (R114, R206), in packets of class 1. DESIGN CHOICE: assumption 84. -/
def State.pubTell (s : State) (x : Ctx) (gen : Nat) (e : Nat × Rec) : State :=
  let j := s.ringJob x.ring
  let b := s.job j
  let f := pubTarget x e.2
  let peers := match b.ownerPath with
    | some m => s.maskParts m
    | none => []
  let a := bget T.shardBase e.2
  let n := pubLead f e.2
  let tell (sub : Nat) (pl : Bytes) (s : State) (d : Nat) : State :=
    s.send (s.mkPacket ptControl 0 1 d 0 j 0 0 (partFields e.1 gen 0xFFFF sub) 1 pl)
  let s := if pubExchanges f e.2 then s.each peers (tell 6 (leBytes 8 (bget T.wmax e.2))) else s
  if n = 0 then s
  else
    let w := (List.range n).flatMap (fun i => leBytes 2 (tget 0 (b.shard e.1).weights i))
    s.each peers (tell 7 (leBytes 7 (a % 2 ^ 40 + 2 ^ 40 * n) ++ w))

/-- What a PUBLISH has sent. -/
structure PubRun where
  n : Nat
  cnt : Cnt
  maxrec : Word32

/-- The packets of one tensor: T_PUB, conversion and header (R205, R207). -/
def State.pubTensor (x : Ctx) (gen : Nat) (a : State × PubRun) (e : Nat × Rec) : State × PubRun :=
  let (s, r) := a
  let j := s.ringJob x.ring
  let b := s.job j
  let f := pubTarget x e.2
  let (e0, n) := pubRange f e.2
  let wmax := (b.pubMsgs e.1 gen).foldl (fun m y => maxrecMax m y.maxrec) (BitVec.ofNat 32 (bget T.wmax e.2))
  let t := if plainWire f then 0 else pubScale e.2 f wmax
  let s := s.setJob j (b.setRecord e.1 (bset T.tPub e.2 (toTwos 8 t)))
  let val (i : Nat) : Num := decodeNum (bget T.masterFmt e.2) ((b.weightAt e.1 gen e.2 i).getD 0)
  let mode := x.p 113 2
  let draw (i : Nat) : Nat := if mode = 2 then seedDraw (b.get J.key) gen e.1 i 3 else 0
  let pieces := if n = 0 then [] else resultPieces e0 n
  pieces.foldl (fun a p =>
    let (s, r) := a
    let (bytes, c) := encodeElems f mode (x.p 115 1 == 1) ((rangeFrom p.1 p.2).map (fun i => (Num.scale (-t) (val i), draw i)))
    let h := resultHeader e.1 j f t gen p.1 p.2 (decide (p.1 + p.2 = e0 + n))
    let s := s.sendUnit (s.mkPacket ptResult 1 0 0 (x.p 96 12) j 0 0 (partFields e.1 gen 0xFFFF 0) (x.p 116 2) (h ++ bytes)) (unitOf f).2
    (s, ⟨r.n + p.2, r.cnt.add c, (rangeFrom p.1 p.2).foldl (fun m i => maxrecAdd m (val i)) r.maxrec⟩)) (s, r)

/-- The tensors of a PUBLISH. -/
def Job.published (b : Job) (x : Ctx) : List (Nat × Rec) := b.withShard (x.p 0 24) (x.p 24 24)

/-- The sectors of the master weights of a tensor's shard. -/
def weightSectors (j : Nat) (e : Nat × Rec) : List Nat :=
  (rangeFrom (bget T.shardBase e.2) (bget T.shardLen e.2)).map (Config.sectorOf 0 j e.1)

/-- A master weight that the part converts lies in a lost sector (R651). -/
def State.pubLost (s : State) (j : Nat) (e : Nat × Rec) : Bool := s.anyLost && (weightSectors j e).any s.lostSector

/-- A PUBLISH whose tensors have stepped: it sends once every message of the exchange is here and no slice holds its weights (R206,
R642). -/
def State.pubGo (s : State) (x : Ctx) : State :=
  let j := s.ringJob x.ring
  let b := s.job j
  let gen := x.p 48 48
  let l := b.published x
  if l.any (fun e => s.lostRecord j e.1) then
    (s.logHbm 4 j gen (l.flatMap (fun e => recordSectors j e.1))).endCmd x.ref stStoreLost
  else if l.any (fun e => s.pubLost j e) then
    (s.logHbm 1 j gen (l.flatMap (weightSectors j))).endCmd x.ref stStoreLost
  else if !l.all (b.pubReady x gen) || s.sliced (l.flatMap (weightSectors j)) then s
  else
    let (s, r) := l.foldl (State.pubTensor x gen) (s, ⟨0, ⟨0, 0, 0, 0⟩, maxrecNone⟩)
    s.modCtx x.ref (fun c => { c.finish stOk with
      result := BitVec.ofNat 96 (r.n % 2 ^ 40)
      report := smallReport r.n r.cnt r.maxrec 0 noMember })

/-- A PUBLISH begins, waits for GEN_STEP, or fails (R204). DEDUCED: assumption 31. -/
def State.pubBegin (s : State) (x : Ctx) : State :=
  let j := s.ringJob x.ring
  let l := (s.job j).published x
  let gen := x.p 48 48
  if l.any (fun e => stepAbove e.2 gen) then s.rejectCmd x.ref stGenMismatch
  else if l.any (fun e => stepBelow e.2 gen) then s.modCtx x.ref (Ctx.start s.now)
  else
    let s := s.modCtx x.ref (fun c => { c.start s.now with begun := true })
    (s.each l (fun s e => s.pubTell x gen e)).pubGo x

/-- A format that no PUBLISH can target: integer or reserved (R61, R203). -/
def badTarget (f : Nat) : Bool := isInt f || f == 0xF

/-- PUBLISH (R202 to R208). -/
def execPublish (c : Ref) (s : State) : Res :=
  s.issue c 0x0A (fun x =>
    let j := s.ringJob c.ring
    if s.seedling then s.rejectCmd c stSeedling
    else if x.p 108 4 = 0xF ∨ (x.p 112 1 = 0 ∧ badTarget (x.p 108 4)) ∨ x.p 113 2 = 3
        ∨ ((s.job j).published x).any (fun e => badTarget (pubTarget x e.2)) then s.rejectCmd c stBadFormat
    else if s.shardBusy x && !((s.job j).published x).any (fun e => stepBelow e.2 (x.p 48 48)) then s
    else s.pubBegin x)

/-- PUBLISH_START: a PUBLISH that waited for GEN_STEP begins, once no STEP or RESTORE works on its tensors, and one that waited for a slice goes on
(R197, R204, R642). -/
def execPublishStart (c : Ref) (s : State) : Res :=
  match s.ctx c with
  | none => .next s
  | some x =>
    s.act (x.phase == .run && x.opcode == 0x0A)
      (if x.begun then s.pubGo x else if s.shardBusy x then s else s.pubBegin x)

/-- Every PUBLISH of a job that has begun goes on. -/
def State.pubAll (s : State) (j : Nat) : State :=
  s.each (s.host.ctxs.filter (fun x => x.opcode == 0x0A && x.phase == .run && x.begun && s.ringJob x.ring == j))
    State.pubGo

/-- PUB_MAX: another owner's WMAX (R114). -/
def execPubMax (port : Nat) (p : Packet) (s : State) : Res :=
  s.act (pget p Ph.type == ptControl && pget p Ph.subtype == 6)
    (s.arrive port p (fun s =>
       let j := pget p Ph.job
       let m : PubMaxRec := ⟨pkgOf p, pget p Ph.tensor, pget p Ph.gen, BitVec.ofNat 32 (numAt p.payload 0 4)⟩
       let other (y : PubMaxRec) : Bool := !(y.src == m.src && y.tensor == m.tensor && y.gen == m.gen)
       (s.modJob j (fun b => { b with pubMax := b.pubMax.filter other ++ [m] })).pubAll j))

/-- BLOCK: weights of a straddling block are taken by the owner of its first element, and discarded by every other part (R206). -/
def execBlock (port : Nat) (p : Packet) (s : State) : Res :=
  s.act (pget p Ph.type == ptControl && pget p Ph.subtype == 7)
    (s.arrive port p (fun s =>
       let j := pget p Ph.job
       let h := numAt p.payload 0 7
       let first := nbits h 0 40
       let mine := match (s.job j).record (pget p Ph.tensor) with
         | none => false
         | some r => !bflag T.scaleOnly r && decide (bget T.shardBase r ≤ first / 32 * 32
             ∧ first / 32 * 32 < bget T.shardBase r + bget T.shardLen r)
       if mine then
         let k : BlockRec := ⟨pkgOf p, pget p Ph.tensor, pget p Ph.gen, first, bytesAt p.payload 7 (2 * nbits h 40 9)⟩
         let other (y : BlockRec) : Bool := !(y.src == k.src && y.tensor == k.tensor && y.gen == k.gen && y.first == k.first)
         (s.modJob j (fun b => { b with blocks := b.blocks.filter other ++ [k] })).pubAll j
       else s))

end Sys2Proof.Machine
end

