-- ==== Sys2Proof/Machine/Cold.lean ====
section
/-! DEFINITION. The cold frame: PARK, FETCH and the bytes of a PARK. -/
namespace Sys2Proof.Machine

/-- Cold-frame pages of the reserve that all jobs use, and pages of the usable store that they use for cold frames (R209). -/
def State.reserveUsed (s : State) : Nat :=
  s.jobs.foldl (fun n e => e.2.handles.foldl (fun n h => n + (h.pages - h.storePages)) n) 0
def State.coldStoreUsed (s : State) : Nat := s.jobs.foldl (fun n e => e.2.handles.foldl (fun n h => n + h.storePages) n) 0

/-- Format and element count in which a PARK stores (R214). -/
def parkStored (x : Ctx) : Nat × Nat :=
  let sf := x.p 95 4
  let n := x.p 32 40 / (unitOf sf).2 * (unitOf sf).1
  if x.p 106 1 = 1 then (x.p 99 4, n) else (sf, n)

/-- Bytes that a PARK stores. -/
def parkBytes (x : Ctx) : Nat :=
  let (f, n) := parkStored x
  if x.p 106 1 = 1 then bytesFor f n else x.p 32 40

/-- Most pages of the usable store that cold frames take: 60 % of those of a package, or of a pair (R209, R568). -/
def State.coldLimit (s : State) : Nat := if s.grafted then 452198 else 226099

/-- A PARK's pages: the reserve first, then the usable store, where the budgets and the store allow (R158, R209, R213, R568, R676).
DEDUCED: assumption 20. -/
def State.parkPages (s : State) (b : Job) (bytes : Nat) : Option (Nat × Nat) :=
  let n := ceilDiv bytes (2 ^ 21)
  let fromStore := n - min n (512 * s.shareDies.length - s.reserveUsed)
  if b.get J.coldBudget < b.get J.coldUsed + n ∨ b.get J.storeBudget < b.get J.storeUsed + fromStore ∧ fromStore ≠ 0
      ∨ s.coldLimit < s.coldStoreUsed + fromStore ∨ s.storeRoom < fromStore then none
  else some (n, fromStore)

/-- All the bytes of a PARK are here: they are stored, converted where CONVERT is 1 whatever the two formats are (R93, R211, R212).
DEDUCED: assumption 31. DESIGN CHOICE: assumption 75. -/
def State.parkDone (s : State) (x : Ctx) (h : Handle) : State :=
  let j := s.ringJob x.ring
  let key := (s.job j).get J.key
  let raw := (List.range h.bytes).map (fun i => tget 0 h.data i)
  let sf := x.p 95 4
  let (f, n) := parkStored x
  let conv := x.p 106 1 == 1
  let mode := x.p 103 2
  let t := x.ps 160 8
  let vals := (List.range n).map (elemAt sf 0 raw)
  let draw (i : Nat) : Nat := if mode = 2 then seedDraw key (x.p 112 48) (x.p 0 24) i 3 else 0
  let (out, c) := if conv then
      encodeElems f mode (x.p 105 1 == 1) ((List.range n).map (fun i => (Num.scale (-t) (vals.getD i .nan), draw i)))
    else (raw, ⟨0, 0, 0, 0⟩)
  let data := (List.range out.length).foldl (fun t i => tset 0 t i (out.getD i 0)) ([] : Tab Byte)
  let m := if conv then vals.foldl maxrecAdd maxrecNone else maxrecNone
  let h' := { h with fmt := f, elems := n, bytes := out.length, data := data, done := true }
  let s := s.modJob j (fun b => b.setHandle h')
  let count := if conv then n else h.bytes
  s.modCtx x.ref (fun y => { y.finish stOk with
    result := BitVec.ofNat 96 count
    report := smallReport count c m 0 noMember })

/-- PARK (R209 to R213); one beyond a budget completes with COLD_FULL (R161, R213), and one of a handle whose PARK has not completed with
HANDLE_IN_USE. It is charged for the larger of what it takes and what it stores. DESIGN CHOICE: assumptions 75 and 83. -/
def execPark (c : Ref) (s : State) : Res :=
  s.issue c 0x0B (fun x =>
    let j := s.ringJob c.ring
    let b := s.job j
    if s.seedling then s.rejectCmd c stSeedling
    else if x.p 95 4 = 0xF ∨ x.p 99 4 = 0xF ∨ x.p 103 2 = 3 then s.rejectCmd c stBadFormat
    else if (b.handle (x.p 0 32)).isSome then s.rejectCmd c stHandleInUse
    else if s.sliced ((List.range (parkStored x).2).map (Config.sectorOf 6 j (x.p 0 32))) then s
    else match s.parkPages b (max (parkBytes x) (x.p 32 40)) with
      | none => s.rejectCmd c stColdFull
      | some (n, k) =>
        let h : Handle := ⟨x.p 0 32, c.ring, c.idx, x.p 72 23, (parkStored x).1, 0, x.p 32 40, n, k, [], 0, false, false⟩
        let b := (b.put J.coldUsed (b.get J.coldUsed + n)).put J.storeUsed (b.get J.storeUsed + k)
        let s := s.setJob j { b with handles := b.handles ++ [h] }
        let s := s.modCtx c (Ctx.start s.now)
        if x.p 32 40 = 0 then s.parkDone x h else s)

/-- PARK_DATA: bytes from SOURCE are stored at their offset; the last of them completes the PARK (R211). -/
def execParkData (port : Nat) (p : Packet) (s : State) : Res :=
  s.act (pget p Ph.type == ptData && pget p Ph.dataSub == dsPark)
    (s.arrive port p (fun s =>
       let j := pget p Ph.job
       let off := pget p Ph.byteOffset
       match (s.job j).handles.find? (fun h => !h.done && h.source == pget p Ph.src && decide (off + p.payload.length ≤ h.bytes)) with
       | none => s
       | some h =>
         let n := p.payload.length
         let data := (List.range n).foldl (fun t i => tset 0 t (off + i) (p.payload.getD i 0)) h.data
         let h' := { h with data := data, got := h.got + n }
         let s := s.modJob j (fun b => b.setHandle h')
         match s.ctx ⟨h.ring, h.idx⟩ with
         | none => s
         | some x => if h'.bytes ≤ h'.got then s.parkDone x h' else s))

/-- A command finds its handle: it exists from the completion of its PARK (R213). -/
def State.handleThere (s : State) (j h : Nat) : Option Handle :=
  ((s.job j).handle h).filter Handle.live

/-- The stored bytes of a handle. -/
def Handle.stored (h : Handle) : Bytes := (List.range h.bytes).map (fun i => tget 0 h.data i)

/-- Elements `a` to `a + n - 1` of a handle with their bits unchanged: of an MX format the whole blocks that hold them (R73, R93, R211).
DESIGN CHOICE: assumption 75. -/
def Handle.bits (h : Handle) (a n : Nat) : Bytes :=
  if isMx h.fmt then bytesAt h.stored (a / 32 * (unitOf h.fmt).2) ((ceilDiv (a + n) 32 - a / 32) * (unitOf h.fmt).2)
  else packScalar h.fmt ((rangeFrom a n).map (codeAt h.fmt h.stored))

/-- A SIEVE_RUN with a HANDLE buffer of the handle runs, or waits to start (R325). -/
def State.handleInRun (s : State) (j h : Nat) : Bool :=
  let reads (l : List VyBuf) : Bool := l.any (fun b => b.kind == 1 && b.addr == h)
  s.vy.any (fun p => p.job == j && reads p.bufs) || s.sieves.any (fun r => s.ringJob r.ring == j && reads (pbBufs r.block))

/-- FETCH (R210 to R214), which converts where CONVERT is 1 whatever the two formats are (DESIGN CHOICE: assumption 75); one with RELEASE waits for a program that reads its handle (R325), and any for a slice of
what it reads (R642). -/
def execFetch (c : Ref) (s : State) : Res :=
  s.issue c 0x0C (fun x =>
    let j := s.ringJob c.ring
    let conv := x.p 142 1 == 1
    if s.seedling then s.rejectCmd c stSeedling
    else if x.p 135 4 = 0xF ∨ x.p 139 2 = 3 then s.rejectCmd c stBadFormat
    else if x.p 143 1 == 1 && s.handleInRun j (x.p 0 32) then s
    else match s.handleThere j (x.p 0 32) with
      | none => s.rejectCmd c stNoHandle
      | some h =>
        let a := x.p 32 40
        let n := if x.p 72 40 = 0 then h.elems - a else x.p 72 40
        if h.elems ≤ a ∨ h.elems < a + n then s.rejectCmd c stBadField
        else if s.sliced ((rangeFrom a n).map (Config.sectorOf 6 j h.handle)) then s
        else
          let s := s.modCtx c (fun y => { y.start s.now with park := some h.handle })
          if (rangeFrom a n).any (fun i => s.lostElem 6 j h.handle i) then
            (s.logHbm 3 j (x.p 168 48) ((rangeFrom a n).map (Config.sectorOf 6 j h.handle))).endCmd c stDataLost
          else
            let mode := x.p 139 2
            let t := x.ps 160 8
            let key := (s.job j).get J.key
            let draw (i : Nat) : Nat := if mode = 2 then seedDraw key (x.p 168 48) (x.p 0 24) i 3 else 0
            let val (i : Nat) : Num := elemAt h.fmt 0 h.stored i
            let (out, k) := if conv then
                encodeElems (x.p 135 4) mode (x.p 141 1 == 1) ((rangeFrom a n).map (fun i => (Num.scale t (val i), draw i)))
              else (h.bits a n, ⟨0, 0, 0, 0⟩)
            let s := s.each (dataPieces 0 out) (fun s y =>
              s.sendUnit (s.mkPacket ptData 0 0 (x.p 112 23) 0 j 0 0 (dataFields y.1 noMember dsFetch) 2 y.2)
                (if conv then (unitOf (x.p 135 4)).2 else (unitOf h.fmt).2))
            let m := if conv then (rangeFrom a n).foldl (fun m i => maxrecAdd m (val i)) maxrecNone else maxrecNone
            let count := if conv then n else out.length
            s.modCtx c (fun y => { y.finish stOk with
              result := BitVec.ofNat 96 count
              report := smallReport count k m 0 noMember }))

end Sys2Proof.Machine
end

