-- ==== Sys2Proof/Machine/Image.lean ====
section
/-! DEFINITION. CHECKPOINT and RESTORE: images, their checks and their three rounds. -/
namespace Sys2Proof.Machine

/-! ## The layout of a shard in the store (R158 to R165, R182, R676) -/

/-- Elements of a shard on one of the dies over which its blocks of 4,096 were dealt, in turn from the die numbered `start` of them (R165,
R676). -/
def dieElems (dies : List Nat) (start len d : Nat) : Nat :=
  (List.range (ceilDiv len 4096)).foldl (fun n b =>
    if dies.getD ((start + b) % max 1 dies.length) 16 = d then n + min 4096 (len - 4096 * b) else n) 0

/-- Bytes of an array on line boundaries (R160). -/
def lineBytes (n : Nat) : Nat := ceilDiv n 512 * 512

/-- Bytes of one tensor's arrays on a die. -/
def Job.dieBytes (b : Job) (job d : Nat) (e : Nat × Rec) : Nat :=
  if bflag T.scaleOnly e.2 then 0
  else
    let start := Config.dealStart job e.1
    let dies := (b.shard e.1).dies
    let n := dieElems dies start (bget T.shardLen e.2) d
    let (k1, k2, kf) := b.keeps e.2
    let mb := momentBytes e.2
    let base := bget T.shardBase e.2
    let len := bget T.shardLen e.2
    lineBytes (2 * n) + (if k1 then lineBytes (mb * n) else 0) + (if k2 then lineBytes (mb * n) else 0)
      + (if kf && dies.getD (start % max 1 dies.length) 16 == d then
          lineBytes (mb * (touched e.2 base len false).length) + lineBytes (mb * (touched e.2 base len true).length)
        else 0)

/-- Pages that a job's arrays take on a die (R160). -/
def Job.diePages (b : Job) (job d : Nat) : Nat := ceilDiv (b.records.foldl (fun m e => m + b.dieBytes job d e) 0) (2 ^ 21)

/-- Store pages of a job's arrays, in whole pages per die (R160). -/
def Job.arrayPages (b : Job) (job : Nat) : Nat := (List.range 16).foldl (fun n d => n + b.diePages job d) 0

/-- Bytes that a job's records, groups and microprograms take in the tables (R157, R166, R169, R171). -/
def Job.tableBytes (b : Job) : Nat := 256 * b.records.length + 128 * b.groups.length + 256 * b.progs.length

/-! ## Images (R219, R220) -/

def imageMagic : Nat := 0x54504B434F494C50

def pad64 (b : Bytes) : Bytes := padTo 64 b

/-- A section: its header with the digest of its body, and its body. -/
def sectionBytes (t base len kind : Nat) (body : Bytes) : Bytes :=
  leBytes 32 (t % 2 ^ 24 + 2 ^ 24 * (base % 2 ^ 40) + 2 ^ 64 * (len % 2 ^ 40) + 2 ^ 104 * (body.length % 2 ^ 40) + 2 ^ 144 * kind)
    ++ shake256 body 32 ++ body

/-- The reset value of an optimizer group (R169). -/
def groupReset : BitVec 1024 := BitVec.ofNat 1024 (0x61 + 2 ^ 416 * 0x3F800000 + 2 ^ 448 * 0x3F800000)

/-- The body of a KIND 1 section. -/
def Job.groupBody (b : Job) : Bytes :=
  (List.range 64).flatMap (fun g => leBytes 128 ((tfind b.groups g).getD groupReset).toNat)

/-- The body of a KIND 2 section. -/
def Job.progBody (b : Job) : Bytes := (List.range 4).flatMap (fun p => leBytes 256 (b.slotEntry (4 + p)).toNat)

/-- The arrays of a tensor's shard, in the order of R220, each padded to 64 B. -/
def Job.arrayBody (b : Job) (e : Nat × Rec) : Bytes :=
  let (k1, k2, kf) := b.keeps e.2
  let x := b.shard e.1
  let base := bget T.shardBase e.2
  let len := bget T.shardLen e.2
  let mb := momentBytes e.2
  let arr (w : Nat) (t : Tab Nat) (l : List Nat) : Bytes := pad64 (l.flatMap (fun i => leBytes w (tget 0 t i)))
  let all := List.range len
  arr 2 x.weights all ++ (if k1 then arr mb x.m1 all else []) ++ (if k2 then arr mb x.m2 all else [])
    ++ (if kf then arr mb x.rows (touched e.2 base len false) ++ arr mb x.cols (touched e.2 base len true) else [])

/-- The section of a tensor in a scope. -/
def Job.tensorSection (b : Job) (scope : Nat) (e : Nat × Rec) : Bytes :=
  let arrays := scope != 1 && !bflag T.scaleOnly e.2
  let r := if scope = 2 then [] else leBytes 256 e.2.toNat
  sectionBytes e.1 (if arrays then bget T.shardBase e.2 else 0) (if arrays then bget T.shardLen e.2 else 0) 0
    (r ++ (if arrays then b.arrayBody e else []))

/-- The tensors that a CHECKPOINT's scope covers: DATA passes over records without a shard (R168). -/
def Job.imaged (b : Job) (x : Ctx) : List (Nat × Rec) :=
  (b.inRange (x.p 0 24) (x.p 24 24)).filter (fun e => x.p 48 2 != 2 || !bflag T.scaleOnly e.2)

/-- The image that a CHECKPOINT writes. -/
def State.image (s : State) (x : Ctx) : Bytes :=
  let j := s.ringJob x.ring
  let b := s.job j
  let scope := x.p 48 2
  let l := b.imaged x
  let tables := if scope = 2 then [] else sectionBytes 0 0 0 2 b.progBody ++ sectionBytes 0 0 0 1 b.groupBody
  let count := l.length + (if scope = 2 then 0 else 2)
  let h := leBytes 96 (imageMagic + 2 ^ 64 + 2 ^ 80 * (j % 2 ^ 12) + 2 ^ 92 * b.get J.nextGen + 2 ^ 140 * b.get J.lsExp
    + 2 ^ 148 * b.get J.lsClean + 2 ^ 164 * b.get J.lsHist + 2 ^ 300 * b.get J.lsMin + 2 ^ 308 * b.get J.lsMax
    + 2 ^ 316 * b.get J.lsInterval + 2 ^ 332 * (count % 2 ^ 24) + 2 ^ 356 * scope)
  h ++ shake256 h 32 ++ tables ++ l.flatMap (b.tensorSection scope)

/-! ## CHECKPOINT (R215 to R218) -/

/-- A table that a CHECKPOINT reads lies in a lost sector (R651, R657). -/
def State.imageTables (s : State) (x : Ctx) : Bool :=
  let j := s.ringJob x.ring
  s.anyLost && x.p 48 2 != 2 && ((s.job j).imaged x).any (fun e => s.lostTables j e)

/-- The sectors of a tensor's arrays, and of its statistics where it keeps them. -/
def Job.arraySectors (b : Job) (j : Nat) (e : Nat × Rec) : List Nat :=
  (rangeFrom (bget T.shardBase e.2) (bget T.shardLen e.2)).flatMap (fun i =>
    [0, 1, 2].map (fun g => Config.sectorOf g j e.1 i) ++ (if (b.keeps e.2).2.2 then statSectors j e.1 e.2 i else []))

/-- An array element, or a statistic, that a CHECKPOINT reads lies in a lost sector (R651). -/
def State.imageLost (s : State) (x : Ctx) : Bool :=
  let j := s.ringJob x.ring
  s.anyLost && x.p 48 2 != 1 && ((s.job j).imaged x).any (fun e => ((s.job j).arraySectors j e).any s.lostSector)

/-- A CHECKPOINT writes its image once the buckets that were open at its start have completed, and Taproot is up where the image goes to
host memory (R217, R401). DEDUCED: assumption 31. -/
def State.checkpointGo (s : State) (x : Ctx) (startTick : Nat) : State :=
  let j := s.ringJob x.ring
  if s.ops.any (fun o => o.job == j && o.isRed && decide (o.admTick ≤ startTick)) || (x.p 51 1 == 0 && !s.linkUp (s.ringCard x.ring)) then s
  else
    if s.imageTables x then (s.logHbm 4 j 0 (((s.job j).imaged x).flatMap ((s.job j).tableSectors j))).endCmd x.ref stStoreLost
    else if s.imageLost x then (s.logHbm 1 j 0 (((s.job j).imaged x).flatMap ((s.job j).arraySectors j))).endCmd x.ref stStoreLost
    else
      let img := s.image x
      let n := img.length
      let fits := decide (n ≤ x.p 139 40)
      let s := if !fits then s
        else if x.p 51 1 = 0 then s.emit (.hostWrite (x.p 52 64) img)
        else s.each (dataPieces (x.p 52 64) img) (fun s y =>
          s.send (s.mkPacket ptData 0 0 (x.p 116 23) 0 j 0 0 (dataFields y.1 noMember dsImage) 2 y.2))
      s.modCtx x.ref (fun c => { c.finish (if fits then stOk else stBudget) with
        result := BitVec.ofNat 96 (n % 2 ^ 40), report := smallReport n ⟨0, 0, 0, 0⟩ maxrecNone 0 noMember })

/-- CHECKPOINT. -/
def execCheckpoint (c : Ref) (s : State) : Res :=
  s.issue c 0x0D (fun x =>
    let j := s.ringJob c.ring
    if s.seedling then s.rejectCmd c stSeedling
    else if x.p 48 2 = 3 then s.rejectCmd c stBadField
    else if s.shardBusy x then s
    else
      let s := s.modCtx c (fun y => { y.start s.now with begun := true })
      let s := s.modJob j (fun b => { b with checkpoint := b.checkpoint + 1 })
      let s := if x.p 50 1 = 1 then
          (s.each (s.ops.filter (fun o => o.live && o.job == j && o.isRed)) (fun s o => s.abortOwn o stCancelled)).each
            (s.held.filter (fun h => h.job == j)) State.dropHeld
        else s
      s.checkpointGo x s.now)

/-- CHECKPOINT_START: the drained buckets have completed, and the image is written (R217). -/
def execCheckpointStart (c : Ref) (s : State) : Res :=
  match s.ctx c with
  | none => .next s
  | some x => s.act (x.phase == .run && x.opcode == 0x0D) (s.checkpointGo x x.startTick)

/-! ## Checks of an image (R706) -/

/-- A section of an image: its header and its body. -/
structure Section where
  h : Nat
  body : Bytes
  digest : Bytes

def Section.tensor (x : Section) : Nat := nbits x.h 0 24
def Section.base (x : Section) : Nat := nbits x.h 24 40
def Section.len (x : Section) : Nat := nbits x.h 64 40
def Section.kind (x : Section) : Nat := nbits x.h 144 2
def Section.ok (x : Section) : Bool := shake256 x.body 32 == x.digest

/-- The chain of sections from a byte position, none where a check of R706 fails. -/
def sectionsFrom (img : Bytes) : Nat → Nat → Option (List Section)
  | 0, _ => some []
  | n + 1, pos =>
    if img.length < pos + 64 then none
    else
      let h := numAt img pos 32
      let len := nbits h 104 40
      if img.length < pos + 64 + len ∨ nbits h 144 2 = 3 ∨ nbits h 146 110 ≠ 0 then none
      else (sectionsFrom img n (pos + 64 + len)).map
        (⟨h, bytesAt img (pos + 64) len, bytesAt img (pos + 32) 32⟩ :: ·)

/-- The checks of an image header and of its sections: a status, or the header and the sections. -/
def imageCheck (scope : Nat) (img : Bytes) : Nat ⊕ (Nat × List Section) :=
  let h := numAt img 0 96
  if nbits h 0 64 ≠ imageMagic ∨ nbits h 64 16 ≠ 1 ∨ nbits h 358 410 ≠ 0 then .inl stBadField
  else if shake256 (bytesAt img 0 96) 32 ≠ bytesAt img 96 32 then .inl stImageDigest
  else if nbits h 356 2 = 3 ∨ (nbits h 356 2 ≠ 0 ∧ nbits h 356 2 ≠ scope) then .inl stBadField
  else match sectionsFrom img (nbits h 332 24) 128 with
    | none => .inl stBadField
    | some l => .inr (h, l)

/-! ## The three rounds (R170, R171, R216, R707) -/

/-- A job under restoration: the first problem's status, the elements loaded, and what has been written, as Config.sectorOf names it. -/
structure RestoreAcc where
  b : Job
  st : Nat
  n : Nat
  wrote : List (Nat × Nat × Nat)

def RestoreAcc.note (a : RestoreAcc) (st : Nat) : RestoreAcc := if a.st = stOk then { a with st := st } else a

/-- A microprogram slot entry breaks R171: of one that empties its slot the reserved bits alone are judged, and of a program the instructions
beyond NINSTR too, which are 0. DESIGN CHOICE: assumption 81. -/
def badSlot (e : BitVec 2048) : Bool :=
  let n := bget ⟨4, 6⟩ e
  bget ⟨10, 54⟩ e != 0 || bget ⟨1600, 448⟩ e != 0
    || (bflag ⟨0, 1⟩ e && ((bflag ⟨2, 1⟩ e && bflag ⟨3, 1⟩ e) || n == 0 || decide (48 < n)
      || (List.range 48).any (fun i =>
          let w := BitVec.ofNat 32 (bget ⟨32 * i + 64, 32⟩ e)
          if i < n then !microOk w else w != 0)))

/-- A KIND 2 section (R171); one shorter than its entries is a BAD_FIELD. DESIGN CHOICE: assumption 81. -/
def RestoreAcc.progs (a : RestoreAcc) (x : Section) : RestoreAcc :=
  let es := (List.range 4).map (fun k => (4 + k, BitVec.ofNat 2048 (numAt x.body (256 * k) 256)))
  if !x.ok then a.note stImageDigest
  else if x.body.length < 1024 then a.note stBadField
  else if es.any (fun e => badSlot e.2) then a.note stBadProgram
  else { a with
    b := { a.b with progs := es.foldl (fun t e => tset 0 t e.1 (if bflag ⟨0, 1⟩ e.2 then e.2 else 0)) a.b.progs }
    wrote := a.wrote ++ es.flatMap (fun e => (List.range 4).map (fun i => (7, 2 ^ 25 + e.1, i))) }

/-- A KIND 1 section: a group that breaks R170 is not loaded (R170, R171). What the image holds of the RO fields is taken with the group,
and its reserved bits are not; a group that is loaded advances again for the generation (R189, R195). A section shorter than its groups is a
BAD_FIELD. DESIGN CHOICE: assumptions 76 and 81. -/
def RestoreAcc.groups (a : RestoreAcc) (x : Section) : RestoreAcc :=
  if !x.ok then a.note stImageDigest
  else if x.body.length < 8192 then a.note stBadField
  else (List.range 64).foldl (fun a g =>
    let w : BitVec 1024 := bset ⟨528, 496⟩ (bset ⟨7, 25⟩ (BitVec.ofNat 1024 (numAt x.body (128 * g) 128)) 0) 0
    if bget G.round w = 3 ∨ !a.b.progThere (bget G.prog w) then a.note stBadProgram
    else { a with b := { a.b with groups := tput a.b.groups g w, groupGen := tset 0 a.b.groupGen g 0 }, wrote := a.wrote ++ [(7, 2 ^ 24 + g, 0), (7, 2 ^ 24 + g, 1)] }) a

/-- A tensor record breaks R167. -/
def Job.badRecord (b : Job) (r : Rec) : Bool :=
  let f := bget T.pubFmt r
  bget T.nelem r == 0 || bget T.wireFmt r == 0xF || badTarget f
    || (!bflag T.scaleOnly r
      && (!(bget T.masterFmt r == 1 || bget T.masterFmt r == 2) || !(bget T.momentFmt r == 0 || bget T.momentFmt r == 1)
        || bget T.owners r == 0 || decide (bget T.owners r ≤ bget T.shardIndex r) || bget T.cols r == 0
        || bget T.nelem r % bget T.cols r != 0 || (tfind b.groups (bget T.group r)).isNone))

/-- A record as it is created (R105, R166). -/
def recordReset : Rec :=
  let hist := (List.range 16).foldl (fun v n => v + 0x80000000 * 2 ^ (32 * n)) 0
  let ones := [T.marginWire, T.marginPub, T.wireFmt, T.pubFmt, T.masterFmt, T.momentFmt, T.cols, T.owners].foldl (fun v f => v + 2 ^ f.lo) 0
  BitVec.ofNat 2048 (hist + ones + 2 ^ 868 * 0x80000000 + 2 ^ 900 * (2 ^ 48 - 1))

/-- The RW fields of a record (R105, R166). -/
def recordRw : List Bits :=
  [T.marginWire, T.marginPub, T.wireFmt, T.pubFmt, T.fixedWire, T.fixedPub, T.tWireInit, T.tPubInit, T.nelem, T.id, T.group,
    T.frozen, T.scaleOnly, T.masterFmt, T.momentFmt, T.cols, T.owners, T.shardIndex]

/-- The record of a tensor section is written, and T_WIRE follows at once; a new shard is dealt over the dies that have a store (R110, R111,
R164 to R166, R168, R216, R676). DESIGN CHOICE: assumption 76. -/
def Job.writeRecord (b : Job) (dies : List Nat) (job t : Nat) (new : Rec) : Job :=
  let old := (b.record t).getD recordReset
  let r := recordRw.foldl (fun r f => bset f r (bget f new)) old
  let r := bset T.job r job
  let (base, len) := if bflag T.scaleOnly r then (0, 0) else shareOf (bget T.nelem r) (bget T.owners r) (bget T.shardIndex r)
  let r := bset T.covered (bset T.shardLen (bset T.shardBase r base) len) 0
  let r := bset T.tWire r (toTwos 8 (wireScale r))
  let same := bget T.shardBase old == base && bget T.shardLen old == len && bget T.masterFmt old == bget T.masterFmt r
    && bget T.momentFmt old == bget T.momentFmt r
  let sh := if same then { b.shard t with loaded := [] } else { Shard.empty with dies := dies }
  let r := if same then r else bset T.done r 0
  (b.setRecord t r).setShard t sh

/-- Codes of `w` bytes each put into an array at the keys of a list. -/
def loadCodes (t : Tab Nat) (w : Nat) (body : Bytes) (pos : Nat) (keys : List (Nat × Nat)) : Tab Nat :=
  keys.foldl (fun t k => tset 0 t k.2 (numAt body (pos + w * k.1) w)) t

/-- The arrays of a tensor section are loaded where they meet the shard, and what the STEP in progress had written of them is to be written
again; statistics that are loaded are updated again for a generation that
has not ended (R195, R196, R220, R222, R662). -/
def RestoreAcc.arrays (a : RestoreAcc) (x : Section) (pos : Nat) : RestoreAcc :=
  match a.b.record x.tensor with
  | none => a
  | some r =>
    if bflag T.scaleOnly r then a
    else
      let (k1, k2, kf) := a.b.keeps r
      let mb := momentBytes r
      let up (n : Nat) := ceilDiv n 64 * 64
      let rows := touched r x.base x.len false
      let cols := touched r x.base x.len true
      let p1 := pos + up (2 * x.len)
      let p2 := p1 + (if k1 then up (mb * x.len) else 0)
      let p3 := p2 + (if k2 then up (mb * x.len) else 0)
      let p4 := p3 + (if kf then up (mb * rows.length) else 0)
      let p5 := p4 + (if kf then up (mb * cols.length) else 0)
      let base := bget T.shardBase r
      let lo := max x.base base
      let hi := min (x.base + x.len) (base + bget T.shardLen r)
      let sh := a.b.shard x.tensor
      if x.body.length < p5 then a.note stBadField
      else if hi ≤ lo then a
      else if sh.loaded.any (fun q => rangesMeet (lo - base) (hi - lo) q.1 q.2) then a.note stOverlap
      else
        let keys := (List.range (hi - lo)).map (fun i => (lo - x.base + i, lo - base + i))
        let stat (l : List Nat) (mine : List Nat) := (l.zipIdx.map (fun k => (k.2, k.1))).filter (fun k => mine.contains k.2)
        let myRows := if kf then stat rows (touched r base (bget T.shardLen r) false) else []
        let myCols := if kf then stat cols (touched r base (bget T.shardLen r) true) else []
        let clear (t : Tab Nat) (l : List (Nat × Nat)) := l.foldl (fun t k => tset 0 t k.2 0) t
        let cells (g : Nat) (l : List (Nat × Nat)) (base : Nat) := l.map (fun k => (g, x.tensor, base + k.2))
        let next := bget T.done r + sh.redo.length
        let redo := (List.range next).filter (fun i => sh.redo.contains i || decide (lo - base ≤ i ∧ i < hi - base))
        let sh := { sh with
          weights := loadCodes sh.weights 2 x.body pos keys
          m1 := if k1 then loadCodes sh.m1 mb x.body p1 keys else sh.m1
          m2 := if k2 then loadCodes sh.m2 mb x.body p2 keys else sh.m2
          rows := loadCodes sh.rows mb x.body p3 myRows
          cols := loadCodes sh.cols mb x.body p4 myCols
          rowGen := clear sh.rowGen myRows
          colGen := clear sh.colGen myCols
          redo := redo, loaded := (lo - base, hi - lo) :: sh.loaded }
        let r := bset T.done (bset T.covered r (bget T.covered r + (hi - lo))) (next - redo.length)
        { a with
          b := (a.b.setRecord x.tensor r).setShard x.tensor sh
          n := a.n + (hi - lo)
          wrote := a.wrote ++ cells 0 keys base ++ (if k1 then cells 1 keys base else []) ++ (if k2 then cells 2 keys base else [])
            ++ cells 3 myRows 0 ++ cells 4 myCols 0 }

/-- A tensor section of an image of scope `iscope` under a RESTORE of scope `scope`; a record that names another tensor than its section is
rejected (R167), and a section too short for its parts is a BAD_FIELD (R707). DESIGN CHOICE: assumptions 76 and 81. -/
def RestoreAcc.tensor (dies : List Nat) (job scope iscope : Nat) (a : RestoreAcc) (x : Section) : RestoreAcc :=
  let new : Rec := BitVec.ofNat 2048 (numAt x.body 0 256)
  let pos := if iscope = 2 then 0 else 256
  let arrays := scope != 1 && iscope != 1
  if !x.ok then a.note stImageDigest
  else if x.body.length < pos then a.note stBadField
  else if scope = 2 ∨ iscope = 2 then (if arrays then a.arrays x pos else a)
  else if a.b.badRecord new ∨ bget T.id new ≠ x.tensor then a.note stBadRecord
  else
    let a := { a with b := a.b.writeRecord dies job x.tensor new, wrote := a.wrote ++ (List.range 4).map (fun i => (7, x.tensor, i)) }
    if arrays then a.arrays x pos else a

/-- The job state of an image header (R216, R219). -/
def Job.fromHeader (b : Job) (h : Nat) : Job :=
  let b := ((((((b.put J.nextGen (nbits h 92 48)).put J.lsExp (nbits h 140 8)).put J.lsClean (nbits h 148 16)).put J.lsHist
    (nbits h 164 136)).put J.lsMin (nbits h 300 8)).put J.lsMax (nbits h 308 8)).put J.lsInterval (nbits h 316 16)
  let low := (List.range 17).foldl (fun m n => min m (ofTwos 8 (nbits h (164 + 8 * n) 8))) 127
  b.put J.lsLow (toTwos 8 low)

/-- A RESTORE on its image: its checks, its rounds, and its charge (R161, R706, R707). -/
def Job.restore (b : Job) (dies : List Nat) (job scope first count : Nat) (img : Bytes) : Nat ⊕ RestoreAcc :=
  match imageCheck scope img with
  | .inl st => .inl st
  | .inr (h, l) =>
    let a : RestoreAcc := ⟨if scope = 0 then b.fromHeader h else b, stOk, 0, []⟩
    let of (k : Nat) := l.filter (fun x => x.kind == k)
    let a := if scope = 2 then a else (of 1).foldl RestoreAcc.groups ((of 2).foldl RestoreAcc.progs a)
    let mine := (of 0).filter (fun x => decide (first ≤ x.tensor ∧ x.tensor < first + count))
    .inr (mine.foldl (RestoreAcc.tensor dies job scope (nbits h 356 2)) a)

/-- Sectors that a RESTORE has written leave the lost-line list (R655 to R657). -/
def State.mend (s : State) (j : Nat) (wrote : List (Nat × Nat × Nat)) : State :=
  if s.shed.lost.isEmpty then s
  else wrote.foldl (fun s c =>
    let sec := Config.sectorOf c.1 j c.2.1 c.2.2
    let m := tget 0 s.shed.lost (sec / 8)
    let m' := if m / 2 ^ (sec % 8) % 2 = 1 then m - 2 ^ (sec % 8) else m
    s.setLost (tset 0 s.shed.lost (sec / 8) m')) s

/-- The tables have room for a job's records, groups and microprograms beside those of the other jobs: 2 GiB on each compute die that has a
store (R8, R157). DESIGN CHOICE: assumption 76. -/
def State.tablesFit (s : State) (j : Nat) (b : Job) : Bool :=
  decide (s.jobs.foldl (fun n e => if e.1 = j then n else n + e.2.tableBytes) b.tableBytes ≤ 2 ^ 31 * s.shareDies.length)

/-- No die has more of the jobs' arrays than its 47,104 pages of the usable store, with a job as given (R157, R158). -/
def State.diesFit (s : State) (j : Nat) (b : Job) : Bool :=
  (List.range 16).all (fun d =>
    decide (s.jobs.foldl (fun n e => if e.1 = j then n else n + e.2.diePages e.1 d) (b.diePages j d) ≤ 47104))

/-- A RESTORE whose image is here (R158, R161, R706, R707). DEDUCED: assumption 31. -/
def State.restoreGo (s : State) (x : Ctx) (img : Bytes) : State :=
  let j := s.ringJob x.ring
  let b := s.job j
  match b.restore s.shareDies j (x.p 48 2) (x.p 0 24) (x.p 24 24) (bytesAt img 0 (x.p 139 40)) with
  | .inl st => s.endCmd x.ref st
  | .inr a =>
    let old := b.arrayPages j
    let new := a.b.arrayPages j
    let used := b.get J.storeUsed - old + new
    if (old < new ∧ (b.get J.storeBudget < used ∨ s.storeRoom < new - old ∨ s.diesFit j a.b = false))
        ∨ (b.tableBytes < a.b.tableBytes ∧ s.tablesFit j a.b = false) then s.endCmd x.ref stBudget
    else
      ((s.setJob j (a.b.put J.storeUsed used)).mend j a.wrote).modCtx x.ref (fun c =>
        { c.finish a.st with report := smallReport a.n ⟨0, 0, 0, 0⟩ maxrecNone 0 noMember })

/-- RESTORE: from host memory at once, from a Runner endpoint as its bytes arrive; an image of no bytes is checked at once (R215, R706). -/
def execRestore (c : Ref) (image : Option Bytes) (s : State) : Res :=
  s.issue c 0x0E (fun x =>
    let j := s.ringJob c.ring
    if s.seedling then s.rejectCmd c stSeedling
    else if x.p 48 2 = 3 then s.rejectCmd c stBadField
    else if s.shardBusy x then s
    else if x.p 51 1 = 1 then
      let s := s.modCtx c (Ctx.start s.now)
      if x.p 139 40 = 0 then s.restoreGo x []
      else { s with restores := s.restores ++ [⟨c.ring, c.idx, j, x.p 116 23, x.p 52 64 % 2 ^ 40, x.p 139 40, [], 0⟩] }
    else if !s.linkUp (s.ringCard c.ring) then s
    else
      let s := (s.modCtx c (Ctx.start s.now)).hostRead (s.ringCard c.ring) (x.p 52 64) (x.p 139 40)
      match image with
      | none => (s.hostReadErr (s.ringCard c.ring) c.ring (some j)).endCmd c stHostFault
      | some b => s.restoreGo x b)

/-- IMAGE_DATA: bytes of an image from its Runner endpoint; the last of them runs the RESTORE (R215). -/
def execImageData (port : Nat) (p : Packet) (s : State) : Res :=
  s.act (pget p Ph.type == ptData && pget p Ph.dataSub == dsImage)
    (s.arrive port p (fun s =>
       let off := pget p Ph.byteOffset
       let n := p.payload.length
       match s.restores.find? (fun r => r.job == pget p Ph.job && r.coord == pget p Ph.src
         && decide (r.base ≤ off ∧ off + n ≤ r.base + r.len)) with
       | none => s
       | some r =>
         let data := (List.range n).foldl (fun t i => tset 0 t (off - r.base + i) (p.payload.getD i 0)) r.data
         let r' := { r with data := data, got := r.got + n }
         let ref : Ref := ⟨r.ring, r.idx⟩
         if r'.len ≤ r'.got then
           let s : State := { s with restores := s.restores.erase r }
           match s.ctx ref with
           | none => s
           | some x => s.restoreGo x ((List.range r.len).map (tget 0 data))
         else { s with restores := s.restores.map (fun y => if y = r then r' else y) }))

end Sys2Proof.Machine
end

