-- ==== Sys2Proof/Machine/Operands.lean ====
section
/-! DEFINITION. Vyush threads: operands and their checks, faults, windows, the write log, barriers and the end of a program. -/
namespace Sys2Proof.Machine

/-! ## Threads and registers (R288, R290) -/

/-- A thread before its first instruction. -/
def VyThread.fresh (entry : Nat) : VyThread := ⟨[], [], 0, entry, [], .run, 0⟩

/-- Threads are held at key 512 × tile + thread. -/
def threadKey (tile tid : Nat) : Nat := 512 * tile + tid

def VyProg.thread (p : VyProg) (tile tid : Nat) : VyThread :=
  (tfind p.ts (threadKey tile tid)).getD (VyThread.fresh p.entry)

def VyProg.setThread (p : VyProg) (tile tid : Nat) (t : VyThread) : VyProg :=
  { p with ts := tput p.ts (threadKey tile tid) t }

/-- G0 reads as 0 and discards writes (R290). -/
def VyThread.gget (t : VyThread) (r : Nat) : Word64 := if r = 0 then 0 else tget 0 t.g r
def VyThread.gset (t : VyThread) (r : Nat) (v : Word64) : VyThread := if r = 0 then t else { t with g := tset 0 t.g r v }
/-- Q0 reads as 1 and discards writes (R290). -/
def VyThread.qget (t : VyThread) (r : Nat) : Bool := r % 8 == 0 || t.q.toNat / 2 ^ (r % 8) % 2 == 1
def VyThread.qset (t : VyThread) (r : Nat) (v : Bool) : VyThread :=
  if r % 8 = 0 then t else { t with q := bset ⟨r % 8, 1⟩ t.q (if v then 1 else 0) }
def VyThread.wget (t : VyThread) (r : Nat) : WAcc := tget WAcc.zero t.w r
def VyThread.wset (t : VyThread) (r : Nat) (v : WAcc) : VyThread := { t with w := tset WAcc.zero t.w r v }

/-! ## Counting threads -/

/-- Threads of a tile, or of the whole program, in one of some states. -/
def VyProg.countTile (p : VyProg) (tile : Nat) (f : TStat → Bool) : Nat :=
  (p.ts.filter (fun e => e.1 / 512 == tile && f e.2.stat)).length
def VyProg.countAll (p : VyProg) (f : TStat → Bool) : Nat := (p.ts.filter (fun e => f e.2.stat)).length
def VyProg.total (p : VyProg) : Nat := p.ntiles * p.threads

def atT : TStat → Bool
  | .barT | .halt => true
  | _ => false
def atG : TStat → Bool
  | .barG | .halt => true
  | _ => false
def isHalt : TStat → Bool
  | .halt => true
  | _ => false
def isRun : TStat → Bool
  | .run => true
  | _ => false

/-! ## Windows and the write log (R287, R303 to R309, R311) -/

def windowSize (balanced : Bool) : Nat := if balanced then 0x1C0000 else 0xC0000
def winKey (tile off : Nat) : Nat := 2 ^ 21 * tile + off

def VyProg.byte (p : VyProg) (tile off : Nat) : Byte := tget 0 p.win (winKey tile off)

/-- `n` bytes of a window as a number. -/
def VyProg.winNum (p : VyProg) (tile off n : Nat) : Nat := ofLe ((List.range n).map (fun i => p.byte tile (off + i)))

/-- Bytes written into a window. DESIGN CHOICE: assumption 64. -/
def putBytes (w : Tab Byte) (tile off : Nat) (b : Bytes) : Tab Byte :=
  (List.range b.length).foldl (fun w i => tset 0 w (winKey tile (off + i)) (b.getD i 0)) w

/-- What the writer's own latest logged store to a byte left, if there is one (R307). -/
def VyProg.ownByte (p : VyProg) (tile tid target off : Nat) : Option Byte :=
  p.log.foldl (fun r e =>
    if e.tile == tile && e.tid == tid && e.op == .store && e.target == target && decide (e.off ≤ off ∧ off < e.off + e.size)
    then some (BitVec.ofNat 8 (e.value.toNat / 2 ^ (8 * (off - e.off)))) else r) none

/-- The byte that a thread sees but for its own writes: in deterministic mode that of another tile as the last BAR.G left it, and that of
its own tile as the last BAR.T or BAR.G left it (R306, R307, R311). -/
def VyProg.seenByte (p : VyProg) (tile target off : Nat) : Byte :=
  if p.balanced || tile == target then p.byte target off else tget 0 p.snap (winKey target off)

/-- A thread's load (R304, R307, R311). -/
def VyProg.load (p : VyProg) (tile tid target off n : Nat) : Nat :=
  ofLe ((List.range n).map (fun i => (p.ownByte tile tid target (off + i)).getD (p.seenByte tile target (off + i))))

/-- The value that an atomic leaves, from the old value (R294). -/
def atomicResult (op : VyStore) (size : Nat) (old value other : Nat) : Nat :=
  let w := 8 * size
  let v := value % 2 ^ w
  match op with
  | .store => v
  | .add => (old + v) % 2 ^ w
  | .min => if ofTwos w v < ofTwos w old then v else old
  | .max => if ofTwos w old < ofTwos w v then v else old
  | .minu => min old v
  | .maxu => max old v
  | .and => old &&& v
  | .or => old ||| v
  | .swap => v
  | .cas => if old = other % 2 ^ w then v else old

/-- A write applied to its location; an atomic writes the old value into its destination register (R308). -/
def VyProg.apply (p : VyProg) (e : VyWrite) : VyProg :=
  let old := p.winNum e.target e.off e.size
  let p := { p with win := putBytes p.win e.target e.off (leBytes e.size (atomicResult e.op e.size old e.value.toNat e.other.toNat)) }
  if e.op == .store then p
  else p.setThread e.tile e.tid ((p.thread e.tile e.tid).gset e.dest (BitVec.ofNat 64 old))

/-- An element put in its place: ascending tile, then thread, later ones after earlier ones (R308). -/
def orderInsert {α : Type} (k : α → Nat) (e : α) : List α → List α
  | [] => [e]
  | x :: r => if k e < k x then e :: x :: r else x :: orderInsert k e r

/-- A list in the order of R308. -/
def inOrder {α : Type} (k : α → Nat) (l : List α) : List α := l.foldl (fun r e => orderInsert k e r) []

def VyWrite.key (e : VyWrite) : Nat := threadKey e.tile e.tid
def VyXfer.key (e : VyXfer) : Nat := threadKey e.tile e.tid

/-! ## Results of an instruction -/

/-- What an instruction does: it completes with a new program and thread, it faults, or it must wait.
A fault that names no thread carries its tile. -/
inductive VyRes where
  | done (p : VyProg) (t : VyThread)
  | fault (kind addr : Nat) (tile : Option Nat)
  | wait

/-- Kinds of R351. -/
abbrev vkBadOpcode : Nat := 0x01
abbrev vkMisaligned : Nat := 0x02
abbrev vkWindow : Nat := 0x03
abbrev vkPeer : Nat := 0x04
abbrev vkBufRange : Nat := 0x05
abbrev vkBufAccess : Nat := 0x06
abbrev vkScratch : Nat := 0x07
abbrev vkAccLimit : Nat := 0x08
abbrev vkAnchor : Nat := 0x09
abbrev vkLogFull : Nat := 0x0A
abbrev vkStack : Nat := 0x0B
abbrev vkPc : Nat := 0x0C

/-! ## The end of a program (R328 to R330, R351 to R354) -/

/-- The result block (R330). -/
def resultBlock (st lib : Nat) (balanced : Bool) (start stop ntiles : Nat) (cnt : Cnt) (aovf gzero : Nat) (f : Option VyFault)
    (lib2 : Nat) : BitVec 2048 :=
  let flt := match f with
    | none => 0
    | some x => 2 ^ 352 * (x.kind % 2 ^ 8) + 2 ^ 360 * (x.tile % 2 ^ 8) + 2 ^ 368 * (x.tid.getD 0x3FF) + 2 ^ 378 * (x.pc % 2 ^ 14)
        + 2 ^ 392 * (x.addr % 2 ^ 64) + 2 ^ 456 * (if balanced then 0 else x.step % 2 ^ 32)
  BitVec.ofNat 2048 (st + 2 ^ 16 * lib + (if balanced then 2 ^ 20 else 0) + 2 ^ 32 * (start % 2 ^ 64) + 2 ^ 96 * (stop % 2 ^ 64)
    + 2 ^ 160 * (ntiles % 2 ^ 16) + 2 ^ 192 * cap32 cnt.ovr + 2 ^ 224 * cap32 cnt.nan + 2 ^ 256 * cap32 cnt.inf
    + 2 ^ 288 * cap32 aovf + 2 ^ 320 * cap32 gzero + flt + lib2)

/-- The fault that the result block reports: lowest tile, then thread, those that name no thread last; of these, one of a stripe comes
before one of a log, and the lower stripe first (R352). DEDUCED: assumption 34. -/
def reportedFault (l : List VyFault) : Option VyFault :=
  let key (f : VyFault) : Nat := match f.tid with
    | some t => threadKey f.tile t
    | none => 2 ^ 32 * (2 ^ 32 * (2 ^ 8 * f.tile + f.kind) + f.addr + 1)
  l.foldl (fun m f => match m with
    | none => some f
    | some x => if key f < key x then some f else some x) none

/-- A fault that names no thread is noted once (R309, R317): the threads run on until the superstep is over (R352).
DEDUCED: assumption 34. -/
def VyProg.note (p : VyProg) (kind tile addr : Nat) : VyProg :=
  let f : VyFault := ⟨p.step, tile, none, kind, 0, addr⟩
  if p.faults.contains f then p else { p with faults := p.faults ++ [f] }

/-- A program ends with a status: its slots are free, and its command completes. A program whose threads have all halted ended at the
last HALT (R330). -/
def State.vyEnd (s : State) (p : VyProg) (st : Nat) (f : Option VyFault) (lib2 : Nat) : State :=
  let s : State := { s with vy := none }
  let s := s.modJob p.job (fun b => b.put J.slotsUsed (b.get J.slotsUsed - p.place.length))
  s.modCtx ⟨p.ring, p.idx⟩ (fun c => { c.finish st with
    result := match f with
      | none => 0
      | some x => BitVec.ofNat 96 x.kind
    report := resultBlock st p.lib p.balanced p.start (if st = stOk ∧ p.lib = 0 then p.halted else s.now) p.ntiles p.cnt p.aovf p.gzero f lib2 })

/-! ## Transfers (R318 to R320, R325, R329) -/

/-- Bytes of a transfer or a library program go to an output buffer. -/
def State.toBuffer (s : State) (job : Nat) (b : VyBuf) (off : Nat) (data : Bytes) : State :=
  if b.kind = 0 then s.emit (.hostWrite (b.addr + off) data)
  else if b.kind = 3 then
    s.each (dataPieces off data) (fun s x =>
      s.send (s.mkPacket ptData 0 0 b.addr 0 job 0 0 (dataFields x.1 noMember dsEndpoint) 2 x.2))
  else s

def VyProg.buf (p : VyProg) (i : Nat) : VyBuf := p.bufs.getD i ⟨0, false, 0, 0, 0, 0, 0, 0⟩

/-- Bytes that the part itself presents in a HANDLE or SHARD buffer (R325). -/
def State.ownBuffer (s : State) (job : Nat) (b : VyBuf) (off len : Nat) : Bytes :=
  if b.kind = 1 then
    match (s.job job).handle b.addr with
    | some h => bytesAt h.stored (b.offset + off) len
    | none => List.replicate len 0
  else
    let x := (s.job job).shard b.addr
    (List.range len).map (fun i =>
      let k := b.offset + off + i
      BitVec.ofNat 8 (tget 0 x.weights (k / 2) / 2 ^ (8 * (k % 2))))

/-- The sectors of the store that hold bytes of a buffer. -/
def State.bufferSectors (s : State) (job : Nat) (b : VyBuf) (off len : Nat) : List Nat :=
  if b.kind = 2 then
    let base := match (s.job job).record b.addr with
      | some r => bget T.shardBase r
      | none => 0
    (rangeFrom ((b.offset + off) / 2) (ceilDiv len 2 + 1)).map (fun i => Config.sectorOf 0 job b.addr (base + i))
  else if b.kind = 1 then (rangeFrom (b.offset + off) len).map (Config.sectorOf 6 job b.addr)
  else []

/-- Bytes of a buffer lie in a lost sector (R354). -/
def State.bufferLost (s : State) (job : Nat) (b : VyBuf) (off len : Nat) : Bool :=
  s.anyLost && (s.bufferSectors job b off len).any s.lostSector

/-- The entry of a program that reads a lost sector of a buffer: STORE for a shard, COLD for a handle (R651). -/
def State.logBuffer (s : State) (p : VyProg) (b : VyBuf) (off len : Nat) : State :=
  s.logHbm (if b.kind = 2 then 1 else 3) p.job p.gen (s.bufferSectors p.job b off len)

/-! ## Barriers (R305 to R310, R316, R320) -/

/-- BAR.T of a tile is complete: its threads' writes to their own window become visible, and they go on. DEDUCED: assumption 34. -/
def VyProg.passT (p : VyProg) (tile : Nat) : VyProg :=
  let own (e : VyWrite) : Bool := e.tile == tile && e.target == tile
  let p := (inOrder VyWrite.key (p.log.filter own)).foldl VyProg.apply { p with log := p.log.filter (fun e => !own e) }
  { p with ts := p.ts.map (fun e => if e.1 / 512 = tile ∧ e.2.stat = .barT then (e.1, { e.2 with stat := .run }) else e) }

/-- The tiles whose BAR.T is complete. -/
def VyProg.readyT (p : VyProg) : List Nat :=
  ((p.ts.filter (fun e => e.2.stat == .barT)).map (fun e => e.1 / 512)).eraseDups.filter (fun t => p.countTile t atT == p.threads)

/-- SACC requests that become visible (R316); AOVF_COUNT and GZERO_COUNT count WACC and WDOT alone (R301). -/
def VyProg.showAdds (p : VyProg) (f : VyAdd → Bool) : VyProg :=
  let l := p.adds.filter f
  let p := l.foldl (fun (p : VyProg) a =>
    { p with slots := tset Slot.empty p.slots a.slot (accumulate slotLimit p.anchor (tget Slot.empty p.slots a.slot) a.value).1
             seen := tset 0 p.seen (a.slot / 256) (tget 0 p.seen (a.slot / 256) + 1) }) p
  { p with adds := p.adds.filter (fun a => !f a) }

/-- A BAR.G, or the end of the program: transfers in, then the log, then the scratch adds, and a new superstep. DEDUCED: assumption 34. -/
def VyProg.passG (p : VyProg) : VyProg :=
  if p.balanced then
    let p := p.showAdds (fun _ => true)
    { p with ts := p.ts.map (fun e => if e.2.stat = .barG then (e.1, { e.2 with stat := .run }) else e) }
  else
  let ins := inOrder VyXfer.key (p.xfers.filter (fun x => !x.out))
  let p := ins.foldl (fun (p : VyProg) x => { p with win := putBytes p.win x.tile x.woff x.data }) p
  let p := (inOrder VyWrite.key p.log).foldl VyProg.apply { p with log := [] }
  let p := p.showAdds (fun _ => true)
  { p with snap := p.win, logCount := [], xfers := [], step := p.step + 1,
           ts := p.ts.map (fun e => if e.2.stat = .barG then (e.1, { e.2 with stat := .run }) else e) }

/-- The BXFER.O transfers of a superstep reach their buffers in the order of R308. -/
def State.outTransfers (s : State) (p : VyProg) : State :=
  s.each (inOrder VyXfer.key (p.xfers.filter (·.out))) (fun s x => s.toBuffer p.job (p.buf x.buf) x.boff x.data)

/-- The bytes of a superstep may go to host memory: no transfer goes there, or the link is up (R401). -/
def State.outsReady (s : State) (p : VyProg) : Bool :=
  s.linkUp (s.ringCard p.ring) || !p.xfers.any (fun x => x.out && (p.buf x.buf).kind == 0)

/-- After an instruction or a transfer: barriers that are complete let their threads go on, and a program whose threads
have all halted, or whose faulting superstep is over, ends (R305, R328, R352). In balanced mode a program that has faulted ends with its
tick. DEDUCED: assumption 34. -/
def State.vySettle (s : State) (p : VyProg) : State :=
  let p := p.readyT.foldl VyProg.passT p
  let moved := p.xfers.all (·.done)
  if p.balanced then
    if !p.faults.isEmpty then { s with vy := some p }
    else if p.countAll isHalt == p.total && moved then s.vyEnd p stOk none 0
    else if p.countAll atG == p.total && p.countAll isHalt != p.total then { s with vy := some p.passG }
    else { s with vy := some p }
  else
    let running := p.ts.length < p.total || p.ts.any (fun e => isRun e.2.stat)
    if !p.faults.isEmpty then
      if running then { s with vy := some p } else s.vyEnd p stProgFault (reportedFault p.faults) 0
    else if p.countAll atG == p.total && moved && s.outsReady p then
      let t := s.outTransfers p
      if p.countAll isHalt == p.total then t.vyEnd p.passG stOk none 0 else { t with vy := some p.passG }
    else { s with vy := some p }

/-- The end of a tick: a balanced program that has faulted in it stops, with the fault of the lowest tile and thread (R352). -/
def State.vyTick (s : State) : State :=
  match s.vy with
  | none => s
  | some p => if p.balanced && !p.faults.isEmpty then s.vyEnd p stProgFault (reportedFault p.faults) 0 else s

/-- A program that waited for Taproot goes on (R401). -/
def State.vyResume (s : State) : State :=
  match s.vy with
  | none => s
  | some p => if p.lib == 0 then s.vySettle p else s

/-! ## The instruction at the PC (R292, R294) -/

/-- An instruction of a thread, with the fields of its word: `guard` is PRED, `gneg` is PNEG, `imm` is the immediate word where EXT is 1,
and `peer` is OP bit 5 of an atomic. -/
structure VyIns where
  tile : Nat
  tid : Nat
  d : Nat
  a : Nat
  b : Nat
  guard : Nat
  gneg : Bool
  imm : Option Word32
  mod : Nat
  peer : Bool

/-- The fields of the word at a PC (R292). -/
def VyProg.fields (p : VyProg) (tile tid pc : Nat) : VyIns :=
  let w := (p.text.getD pc 0).toNat
  ⟨tile, tid, nbits w 17 5, nbits w 12 5, nbits w 7 5, nbits w 4 3, nbits w 3 1 == 1,
    if nbits w 2 1 = 1 then some (p.text.getD (pc + 1) 0) else none, nbits w 0 2, nbits w 28 4 == 7 && nbits w 27 1 == 1⟩

/-- The operation that CLASS and OP name, by its place in its class, or by its code in the floating class (R294); none where either is
reserved (R295). DESIGN CHOICE: assumption 32. -/
def State.vyPlace (s : State) (cls op : Nat) : Option Nat :=
  if cls = 2 then (if (1 ≤ op ∧ op ≤ 13) ∨ (16 ≤ op ∧ op ≤ 18) then some op else none)
  else if 0xA < cls then none
  else match tget 0 s.vyOps (64 * cls + (if cls = 7 then op % 32 else op)) with
    | 0 => none
    | k + 1 => some k

/-- The class and the operation of the word at a PC. -/
def State.vyDecode (s : State) (p : VyProg) (pc : Nat) : Option (Nat × Nat) :=
  let w := (p.text.getD pc 0).toNat
  (s.vyPlace (nbits w 28 4) (nbits w 22 6)).map (fun k => (nbits w 28 4, k))

/-! ## Issue (R292 to R295) -/

/-- How an operation uses the fields of its word: the bounds of D, A, B and MOD (1 where unused), and EXT: 0 unused,
1 in place of B, 2 beside B, 3 needed beside B. -/
structure VyUse where
  d : Nat
  a : Nat
  b : Nat
  mods : Nat
  ext : Nat

/-- The word breaks R295. DESIGN CHOICE: assumption 32. -/
def VyUse.bad (u : VyUse) (v : VyIns) (atomic : Bool) : Bool :=
  !(decide (v.d < u.d) && decide (v.a < u.a) && decide (v.mod < u.mods) && decide (v.guard < 8))
    || (v.imm.isSome && (u.ext == 0 || (u.ext == 1 && v.b != 0))) || (v.imm.isNone && u.ext == 3)
    || !decide (v.b < u.b) || (v.peer && !atomic) || (atomic && decide (v.mod < 2))

/-- Operand B: G[B], or the immediate sign-extended (R292). -/
def opB (v : VyIns) (t : VyThread) : Word64 :=
  match v.imm with
  | some w => w.signExtend 64
  | none => t.gget v.b

/-- Words that the instruction takes. -/
def opWords (v : VyIns) : Nat := if v.imm.isSome then 2 else 1

/-- A program stops on an error that the checks of a bed's cores find: the bed of the thread's tile (R353, R354, R651). -/
def State.vyUpset (s : State) (p : VyProg) (tile : Nat) (u : Upset) : State :=
  let bed := unitBed (p.beds.getD tile 0)
  let d := logDetail (some p.job) none p.gen 0
  if u == .ecc then ((s.logUnit 0x07 2 2 bed d).addPoints bed 128).vyEnd p stDataLost none 0
  else ((s.logUnit 0x06 6 2 bed d).addPoints bed 64).vyEnd p stArithFault none 0

/-- A thread faults (R351, R352). -/
def State.vyFault (s : State) (p : VyProg) (v : VyIns) (pc kind addr : Nat) (tile : Option Nat) : State :=
  let f : VyFault := ⟨p.step, v.tile, some v.tid, kind, pc, addr⟩
  let p := match tile with
    | none => { p with faults := p.faults ++ [f] }
    | some x => p.note kind x addr
  s.vySettle (p.setThread v.tile v.tid { p.thread v.tile v.tid with stat := .fault })

/-- The row of an operation is what a thread does next: its PC stands at the operation, at the end of the text, or at a word that names none.
DESIGN CHOICE: assumption 32. -/
def State.vyTakes (s : State) (p : VyProg) (pc cls place : Nat) : Bool :=
  decide (p.text.length ≤ pc) || (match s.vyDecode p pc with
    | none => true
    | some k => k == (cls, place))

/-- A thread issues the instruction at its PC: its checks, its guard, and its effect with the PC past it. DESIGN CHOICE: assumption 32. -/
def State.vyIssue (s : State) (o : VOp) (cls place : Nat) (u : VyUse) (f : State → VyIns → VyProg → VyThread → VyRes) : Res :=
  match s.vy with
  | none => .next s
  | some p =>
    let t := p.thread o.tile o.tid
    let v := p.fields o.tile o.tid t.pc
    s.act (decide (o.tile < p.ntiles) && decide (o.tid < p.threads) && t.stat == .run && p.lib == 0
        && (o.upset != .clean || s.vyTakes p t.pc cls place))
      (if o.upset != .clean then s.vyUpset p o.tile o.upset
       else if p.text.length ≤ t.pc then s.vyFault p v t.pc vkPc 0 none
       else if (s.vyDecode p t.pc).isNone then s.vyFault p v t.pc vkBadOpcode (p.text.getD t.pc 0).toNat none
       else if p.text.length < t.pc + opWords v then s.vyFault p v t.pc vkPc 0 none
       else if u.bad v (cls == 7) then s.vyFault p v t.pc vkBadOpcode (p.text.getD t.pc 0).toNat none
       else
         let t' := { t with pc := t.pc + opWords v }
         if t.qget v.guard == v.gneg then s.vySettle (p.setThread v.tile v.tid t')
         else match f s v p t' with
           | .done p' t'' => s.vySettle (p'.setThread v.tile v.tid t'')
           | .fault k a tile => s.vyFault p v t.pc k (if k = vkBadOpcode then (p.text.getD t.pc 0).toNat else a) tile
           | .wait => s)

end Sys2Proof.Machine
end

