-- ==== Sys2Proof/Machine/Library.lean ====
section
/-! DEFINITION. The library programs of SIEVE_RUN: their checks, their results and their end. -/
namespace Sys2Proof.Machine

/-! ## Keys (R335) -/

/-- The total order of keys: NaN above all. -/
def keyLt : Num → Num → Bool
  | .nan, _ => false
  | _, .nan => true
  | x, y => x.lt y

def numAbs : Num → Num
  | .nan => .nan
  | .inf _ => .inf false
  | .over _ => .over false
  | .fin _ q => .fin false q

/-- The formats of keys. -/
def keyFormat (f : Nat) : Bool := decide (f ≤ 4) || decide (0xB ≤ f ∧ f ≤ 0xE)

/-- Bytes of a key. -/
def keyWidth (f : Nat) : Nat := elemBits f / 8

/-! ## The library's own checks (R336 to R350) -/

def argOf (l : List Word32) (i : Nat) : Nat := (l.getD i 0).toNat

/-- Keys that a SORT reads and writes (R337). -/
def sortCounts (args : List Word32) (b : List VyBuf) : Nat × Nat :=
  let n := (b.getD 0 ⟨0, false, 0, 0, 0, 0, 0, 0⟩).length / max 1 (keyWidth (b.getD 0 ⟨0, false, 0, 0, 0, 0, 0, 0⟩).fmt)
  (n, if argOf args 1 = 0 then n else min (argOf args 1) n)

def noBuf : VyBuf := ⟨0, false, 0, 0, 0, 0, 0, 0⟩

/-- An output that a library program needs: it exists, is writable and holds `n` bytes. -/
def outputFits (b : List VyBuf) (i n : Nat) : Bool :=
  decide (i < b.length) && (b.getD i noBuf).writable && decide (n ≤ (b.getD i noBuf).length)

/-- The buffers that a library program reads (R336, R339, R342, R345, R349). -/
def libInputs (lib : Nat) (args : List Word32) : List Nat :=
  let a0 := argOf args 0
  match lib with
  | 1 => if nbits a0 8 8 = 0 then [0] else [0, 1]
  | 3 => [0, 1]
  | 4 => if nbits a0 0 1 = 1 then [0, 1] else [0]
  | _ => [0]

/-- The checks of a library program: the status of the first failure. An ENDPOINT buffer, which is write-only, is no input of one (R325).
DESIGN CHOICE: assumption 36. -/
def libCheck (lib : Nat) (args : List Word32) (b : List VyBuf) : Option Nat :=
  let buf (i : Nat) := b.getD i noBuf
  let a0 := argOf args 0
  if lib != 0 && (libInputs lib args).any (fun i => (buf i).kind == 3) then some stBadField
  else match lib with
  | 1 =>
    let pay := nbits a0 8 8
    let (n, k) := sortCounts args b
    let w := keyWidth (buf 0).fmt
    let third := if nbits a0 1 1 = 1 then 8 * k else pay * k
    if b.length < 3 then some stBadField
    else if !keyFormat (buf 0).fmt then some stBadFormat
    else if 64 < pay ∨ (pay ≠ 0 ∧ (buf 1).length < pay * n) then some stBadField
    else if 2 ^ 27 < n * (w + pay + 8) then some stTooLarge
    else if !outputFits b 2 (w * k) || (third != 0 && !outputFits b 3 third) then some stBadField
    else none
  | 2 =>
    if b.length < 3 then some stBadField
    else if !keyFormat (buf 0).fmt then some stBadFormat
    else if ((buf 1).length != 0 && !(buf 1).writable) || ((buf 2).length != 0 && !(buf 2).writable) then some stBadField
    else none
  | 3 =>
    let eb := argOf args 1
    let n := (buf 1).length / (if nbits a0 0 1 = 1 then 8 else 4)
    if b.length < 3 ∨ eb = 0 ∨ 4096 < eb ∨ outputFits b 2 (n * eb) = false then some stBadField else none
  | 4 =>
    let n (i : Nat) := (buf i).length / (unitOf (buf i).fmt).2 * (unitOf (buf i).fmt).1
    if b.length < 1 ∨ (nbits a0 0 1 = 1 ∧ (b.length < 2 ∨ n 0 ≠ n 1)) ∨ 2 ^ 40 < n 0 then some stBadField else none
  | 5 => if b.length < 1 then some stBadField else if a0 % 16 = 15 then some stBadFormat else none
  | _ => none

/-! ## The library programs -/

/-- Keys in order with their input indices: equal ranks keep ascending index (R337). -/
def sortKeys (desc : Bool) (l : List (Nat × Num)) : List (Nat × Num) :=
  let before (x y : Nat × Num) : Bool := if desc then keyLt y.2 x.2 else keyLt x.2 y.2
  let rec put (e : Nat × Num) : List (Nat × Num) → List (Nat × Num)
    | [] => [e]
    | x :: r => if before e x then e :: x :: r else x :: put e r
  l.foldl (fun r e => put e r) []

/-- The outcome of a library program: status, bytes for its buffers, and its fields of the result block. -/
structure LibOut where
  st : Nat
  out : List (Nat × Bytes)
  fields : Nat

/-- SORT (R336, R337). -/
def libSort (args : List Word32) (bufs : List VyBuf) (data : Nat → Bytes) : LibOut :=
  let a0 := argOf args 0
  let f := (bufs.getD 0 noBuf).fmt
  let w := keyWidth f
  let (n, k) := sortCounts args bufs
  let pay := nbits a0 8 8
  let keys := (List.range n).map (fun i => (i, decodeNum f (numAt (data 0) (w * i) w)))
  let l := (sortKeys (nbits a0 0 1 == 1) keys).take k
  let ks := l.flatMap (fun e => bytesAt (data 0) (w * e.1) w)
  let third := if nbits a0 1 1 = 1 then l.flatMap (fun e => leBytes 8 e.1) else l.flatMap (fun e => bytesAt (data 1) (pay * e.1) pay)
  ⟨stOk, (2, ks) :: (if third.isEmpty then [] else [(3, third)]), 2 ^ 512 * (k % 2 ^ 40)⟩

/-- Whether FILTER selects an element (R340). -/
def selects (op : Nat) (x t : Num) : Bool :=
  match op with
  | 0 => keyLt x t
  | 1 => !keyLt t x
  | 2 => keyLt t x
  | 3 => !keyLt x t
  | 4 => !keyLt x t && !keyLt t x
  | 5 => keyLt x t || keyLt t x
  | 6 => keyLt (numAbs t) (numAbs x)
  | _ => !keyLt (numAbs x) (numAbs t)

/-- FILTER (R339 to R341). -/
def libFilter (args : List Word32) (bufs : List VyBuf) (data : Nat → Bytes) : LibOut :=
  let buf (i : Nat) := bufs.getD i noBuf
  let f := (buf 0).fmt
  let w := keyWidth f
  let t := decodeNum f ((argOf args 1 + 2 ^ 32 * argOf args 2) % 2 ^ elemBits f)
  let sel := (List.range ((buf 0).length / w)).filter (fun i => selects (argOf args 0 % 8) (decodeNum f (numAt (data 0) (w * i) w)) t)
  let cap1 := (buf 1).length / w
  let cap2 := (buf 2).length / 8
  let cap := if (buf 1).length = 0 then (if (buf 2).length = 0 then 0 else cap2)
    else if (buf 2).length = 0 then cap1 else min cap1 cap2
  let l := sel.take cap
  let o1 := if (buf 1).length = 0 then [] else [(1, l.flatMap (fun i => bytesAt (data 0) (w * i) w))]
  let o2 := if (buf 2).length = 0 then [] else [(2, l.flatMap (fun i => leBytes 8 i))]
  ⟨if l.length < sel.length then stOutFull else stOk, o1 ++ o2, 2 ^ 512 * (sel.length % 2 ^ 40) + 2 ^ 552 * (l.length % 2 ^ 40)⟩

/-- GATHER (R342 to R344). -/
def libGather (args : List Word32) (bufs : List VyBuf) (data : Nat → Bytes) : LibOut :=
  let buf (i : Nat) := bufs.getD i noBuf
  let iw := if argOf args 0 % 2 = 1 then 8 else 4
  let eb := argOf args 1
  let n := (buf 1).length / iw
  let m := (buf 0).length / eb
  let idx (i : Nat) := numAt (data 1) (iw * i) iw
  let out := (List.range n).flatMap (fun i => if idx i < m then bytesAt (data 0) (eb * idx i) eb else List.replicate eb 0)
  let bad := ((List.range n).filter (fun i => !decide (idx i < m))).length
  ⟨stOk, [(2, out)], 2 ^ 512 * (n % 2 ^ 40) + 2 ^ 552 * (bad % 2 ^ 40)⟩

/-- The elements of a buffer, decoded with its T (R92). -/
def bufElems (b : VyBuf) (d : Bytes) : List Num := decodeElems b.fmt b.t d (elemCount b.fmt (bytesAt d 0 b.length))

/-- NORM of the library (R345 to R347). -/
def libNorm (args : List Word32) (bufs : List VyBuf) (data : Nat → Bytes) : LibOut :=
  let dot := argOf args 0 % 2 == 1
  let xs := bufElems (bufs.getD 0 noBuf) (data 0)
  let ys := if dot then bufElems (bufs.getD 1 noBuf) (data 1) else xs
  let mx := xs.foldl maxrecAdd maxrecNone
  let my := ys.foldl maxrecAdd maxrecNone
  let h := headroom xs.length
  let a := max (-512) (min 511 (maxrecExp mx + maxrecExp my + h - 17))
  let acc := dotExact a h (xs.zip ys)
  let v := readSlot a acc
  let f0 := rne32 v
  let f1 := if dot then 0 else match v with
    | .fin s q => if q = 0 then rne32 (.fin s 0) else sqrt32 q
    | .inf false | .over false => 0x7F800000
    | _ => 0x7FC00000
  ⟨stOk, [], 2 ^ 592 * f0 + 2 ^ 624 * f1 + 2 ^ 656 * acc.flags.toNat + 2 ^ 664 * mx.toNat⟩

/-- SCALE (R349, R350). -/
def libScale (args : List Word32) (bufs : List VyBuf) (data : Nat → Bytes) : LibOut :=
  let a0 := argOf args 0
  let mx := (bufElems (bufs.getD 0 noBuf) (data 0)).foldl maxrecAdd maxrecNone
  let e := maxrecExp mx
  let t := if e = -512 then ofTwos 8 (nbits a0 8 8) else max (-128) (min 127 (e - eMax (a0 % 16) + nbits a0 4 4))
  ⟨stOk, [], 2 ^ 624 * toTwos 8 t + 2 ^ 664 * mx.toNat⟩

def libRun (lib : Nat) (args : List Word32) (bufs : List VyBuf) (data : Nat → Bytes) : LibOut :=
  match lib with
  | 1 => libSort args bufs data
  | 2 => libFilter args bufs data
  | 3 => libGather args bufs data
  | 4 => libNorm args bufs data
  | _ => libScale args bufs data

/-- A library program ends with its results: bytes to its outputs, and its fields of the result block. -/
def State.runLibrary (s : State) (p : VyProg) : State :=
  let data (i : Nat) : Bytes :=
    let b := p.buf i
    if b.kind = 0 then bytesAt (p.host.getD i []) 0 b.length else s.ownBuffer p.job b 0 b.length
  let r := libRun p.lib p.args p.bufs data
  (s.each r.out (fun s e => s.toBuffer p.job (p.buf e.1) 0 e.2)).vyEnd p r.st none r.fields

/-- An input of a library program in a lost sector: the program stops (R354, R651). -/
def State.libraryLost (s : State) (p : VyProg) : Option Nat :=
  (libInputs p.lib p.args).find? (fun i => s.bufferLost p.job (p.buf i) 0 (p.buf i).length)

/-- HALT in a library program: its threads have done their work, and its outputs are written (R328, R329); the outputs to host memory wait
for Taproot (R401). DESIGN CHOICE: assumption 36. -/
def State.libraryHalt (s : State) (v : VOp) : Res :=
  match s.vy with
  | none => .next s
  | some p =>
    s.act (decide (v.tile < p.ntiles) && decide (v.tid < p.threads)
        && (s.linkUp (s.ringCard p.ring) || !p.bufs.any (fun b => b.kind == 0 && b.writable)))
      (if v.upset != .clean then s.vyUpset p v.tile v.upset
       else match s.libraryLost p with
         | some i => (s.logBuffer p (p.buf i) 0 (p.buf i).length).vyEnd p stDataLost none 0
         | none => s.runLibrary p)

end Sys2Proof.Machine
end

