-- ==== Sys2Proof/Machine/Sieve.lean ====
section
/-! DEFINITION. SIEVE_RUN: its checks, and the start and the deadline of a program. -/
namespace Sys2Proof.Machine

/-! ## Checks of SIEVE_RUN (R326) -/

/-- A buffer reaches past its handle or its shard, or names a tensor without a record. -/
def State.bufferBad (s : State) (j : Nat) (b : VyBuf) : Bool :=
  if b.kind = 1 then
    match s.handleThere j b.addr with
    | some h => decide (h.bytes < b.offset + b.length)
    | none => false
  else if b.kind = 2 then
    match (s.job j).record b.addr with
    | some r => decide (2 * bget T.shardLen r < b.offset + b.length)
    | none => true
  else false

/-- The checks of a SIEVE_RUN whose parameter block has been read, in the order of R326's table; SCRATCH_STRIPES beyond its range is
BAD_FIELD (R322). DESIGN CHOICE: assumption 36. -/
def State.sieveCheck (s : State) (x : Ctx) (b : Bytes) : Option Nat :=
  let j := s.ringJob x.ring
  let h := pbHeader b
  let bufs := pbBufs b
  let lib := x.p 133 4
  let units := x.p 128 5
  let len := pbProgLen b
  if nbits h 0 16 ≠ 1 ∨ nbits h 22 10 ≠ 0 ∨ nbits h 42 22 ≠ 0 ∨ nbits h 145 15 ≠ 0 ∨ nbits h 176 336 ≠ 0 ∨ 32 < pbNbuf b
      ∨ (List.range (pbNbuf b)).any (fun i => badEntry (pbEntryRaw b i)) = true then some stBadField
  else if units < 2 + ceilDiv (pbNbuf b) 2 ∨ 18 < units ∨ x.p 0 64 % 64 ≠ 0 ∨ x.p 64 64 % 64 ≠ 0 ∨ 65536 < x.p 186 17 then some stBadField
  else if 5 < lib ∨ (lib = 0 ∧ (len < 4 ∨ 65536 < len ∨ len % 4 ≠ 0 ∨ len / 4 ≤ pbEntry b)) ∨ (lib ≠ 0 ∧ len ≠ 0) then some stBadField
  else if pbThreads b = 0 ∨ 512 < pbThreads b then some stBadField
  else if bufs.any (fun y => ((y.kind == 1 || y.kind == 2) && y.writable) || (y.kind == 3 && !y.writable)) then some stBadField
  else if bufs.any (s.bufferBad j) then some stBadField
  else if bufs.any (fun y => y.fmt == 0xF) then some stBadFormat
  else if bufs.any (fun y => y.kind == 1 && (s.handleThere j y.addr).isNone) then some stNoHandle
  else if (s.job j).get J.slotBudget < x.p 186 17 then some stBudget
  else if (libCheck lib (pbArgs b) bufs).isSome then libCheck lib (pbArgs b) bufs
  else if x.p 137 1 = 0 ∧ s.bedsActive.length < 128 then some stTilesShort
  else if s.seedling then some stSeedling
  else none

/-- A SIEVE_RUN that does not run still writes its result block (R329, R428). DESIGN CHOICE: assumption 36. -/
def State.sieveReject (s : State) (x : Ctx) (st : Nat) : State :=
  s.modCtx x.ref (fun c => { c.reject st with
    report := resultBlock st (x.p 133 4) (x.p 137 1 == 1) 0 s.now 0 ⟨0, 0, 0, 0⟩ 0 0 none 0 })

/-- SIEVE_RUN: the parameter block is read and checked, and the run waits for its start (R322 to R327). -/
def execSieveRun (c : Ref) (block : Option Bytes) (s : State) : Res :=
  s.issue c 0x0F (fun x =>
    if !s.linkUp (s.ringCard c.ring) then s
    else
      let s := s.hostRead (s.ringCard c.ring) (x.p 0 64) (64 * x.p 128 5)
      match block with
      | none => (s.hostReadErr (s.ringCard c.ring) c.ring (some (s.ringJob c.ring))).sieveReject x stHostFault
      | some b =>
        let b := bytesAt b 0 (64 * x.p 128 5)
        match s.sieveCheck x b with
        | some st => s.sieveReject x st
        | none =>
          let s : State := { s with sieves := s.sieves ++ [⟨c.ring, c.idx, b, if x.stripes = 0 then some x.freeTick else none, []⟩] }
          s.modCtx c (fun y => { y with phase := .queued }))

/-! ## PROGRAM_START and PROGRAM_DEADLINE (R285, R314, R327, R328) -/

/-- The text of a program, in words. -/
def textWords (b : Bytes) (len : Nat) : List Word32 := (List.range (len / 4)).map (fun i => BitVec.ofNat 32 (numAt b (4 * i) 4))

/-- A STEP or RESTORE is ahead of a SIEVE_RUN at the shard of a SHARD buffer (R197, R325). -/
def State.sieveBlocked (s : State) (x : Ctx) (bufs : List VyBuf) : Bool :=
  s.host.ctxs.any (fun y => writesShard y.opcode && s.ringJob y.ring == s.ringJob x.ring && shardBufs y.tensors.1 y.tensors.2 bufs
    && (y.phase == .run || (y.phase == .free && y.freedBefore x)))

/-- The beds on which the tiles of a program are placed: at most two tiles of a deterministic program on a bed; a balanced program has a
tile on every active bed, and one whose bed is out for a slice shares another's (R283, R285). -/
def State.tileBeds (s : State) (balanced : Bool) : List Nat :=
  let l := s.bedsIn
  let pick (i : Nat) := l.getD ((Config.rotation s.freeCtr + i) % max 1 l.length) 0
  if balanced then s.bedsActive.zipIdx.map (fun e => if l.contains e.1 then e.1 else pick e.2) else (List.range 256).map pick

/-- A program as it starts. -/
def State.newProg (s : State) (x : Ctx) (b : Bytes) (text : List Word32) (host : List Bytes) (place : List Nat) : VyProg :=
  let bal := x.p 137 1 == 1
  let t := x.p 213 21
  let beds := s.tileBeds bal
  { ring := x.ring, idx := x.idx, job := s.ringJob x.ring, lib := x.p 133 4, host := host, balanced := bal, gen := x.p 138 48,
    stripes := x.p 186 17, anchor := x.ps 203 10, place := place, beds := beds, start := s.now,
    deadline := if t = 0 then none else some (s.now + 64 * t), halted := s.now, ntiles := beds.length,
    threads := pbThreads b, entry := pbEntry b, text := text, args := pbArgs b, bufs := pbBufs b, ts := [], win := [], snap := [],
    log := [], logCount := [], xfers := [], step := 0, faults := [], slots := [], adds := [], reqs := [], seen := [], nextItem := 0,
    cnt := ⟨0, 0, 0, 0⟩, aovf := 0, gzero := 0 }

/-- The request of a SIEVE_RUN leaves the queue. -/
def State.dropSieve (s : State) (c : Ref) : State := { s with sieves := s.sieves.filter (fun y => !(y.ring == c.ring && y.idx == c.idx)) }

/-- What a program reads from host memory as it starts: its text at PROG_ADDR, or the HOST inputs of a library program (R288, R323, R325). -/
def State.progReads (s : State) (x : Ctx) (b : Bytes) : State :=
  let card := s.ringCard x.ring
  if x.p 133 4 = 0 then s.hostRead card (nbits (pbHeader b) 64 64) (pbProgLen b)
  else s.each ((libInputs (x.p 133 4) (pbArgs b)).filterMap (fun i => ((pbBufs b)[i]?).filter (fun y => y.kind == 0)))
    (fun s y => s.hostRead card y.addr y.length)

/-- A program starts: its text, and for a library program the bytes of its HOST inputs, are read (R288, R325, R328, R442). -/
def State.startProg (s : State) (x : Ctx) (r : SieveReq) (text : Option Bytes) (bufs : List Bytes) : State :=
  let s := ((s.dropSieve x.ref).modCtx x.ref (Ctx.start s.now)).bump
  let lib := x.p 133 4
  let s := s.progReads x r.block
  let p := s.newProg x r.block (if lib = 0 then textWords (text.getD []) (pbProgLen r.block) else []) bufs r.place
  if (lib = 0 && text.isNone) || (lib != 0 && (libInputs lib p.args).any (fun i => (p.buf i).kind == 0 && decide (bufs.length ≤ i))) then
    (s.hostReadErr (s.ringCard x.ring) x.ring (some p.job)).vyEnd p stHostFault none 0
  else { s with vy := some p }

/-- TILES_SHORT at the start of a deterministic SIEVE_RUN: nothing runs, and its slots are free (R285). -/
def State.tilesShort (s : State) (x : Ctx) (r : SieveReq) : State :=
  ((s.dropSieve x.ref).modJob (s.ringJob x.ring) (fun b => b.put J.slotsUsed (b.get J.slotsUsed - r.place.length))).sieveReject x stTilesShort

/-- A SIEVE_RUN is the next to start: it is eligible, no other became so before it, and none that has been free of its waits for as long
has its parameter block still to be read (R327). -/
def State.firstSieve (s : State) (x : Ctx) (r : SieveReq) : Bool :=
  let e := r.elig.getD 0
  let ahead (t ring idx : Nat) : Bool := decide (t < e ∨ t = e ∧ (ring < r.ring ∨ ring = r.ring ∧ earlier idx r.idx))
  r.elig.isSome && !s.sieves.any (fun y => y.elig.any (fun t => ahead t y.ring y.idx))
    && !s.host.ctxs.any (fun y => y.opcode == 0x0F && y.phase == .free && y.stripes == 0 && !Ctx.is x.ref y && ahead y.freeTick y.ring y.idx)

/-- PROGRAM_START: the next eligible SIEVE_RUN starts, where the package runs none; a deterministic one waits for beds that are out for
a slice, and ends with TILES_SHORT where too few beds are active (R285, R327). -/
def execProgramStart (c : Ref) (text : Option Bytes) (bufs : List Bytes) (s : State) : Res :=
  match s.ctx c, s.sieveOf c with
  | some x, some r =>
    let det := x.p 137 1 == 0
    let short := det && decide (s.bedsActive.length < 128)
    s.act (x.phase == .queued && s.vy.isNone && s.firstSieve x r
        && (short || ((!det || decide (128 ≤ s.bedsIn.length)) && s.linkUp (s.ringCard c.ring) && !s.sieveBlocked x (pbBufs r.block))))
      (if short then s.tilesShort x r else s.startProg x r text bufs)
  | _, _ => .next s

/-- PROGRAM_DEADLINE: a program whose threads have not all halted at its deadline stops with TIMEOUT (R328). -/
def execProgramDeadline (c : Ref) (s : State) : Res :=
  match s.vy with
  | none => .next s
  | some p =>
    let due := match p.deadline with
      | some d => decide (d ≤ s.now)
      | none => false
    s.act (due && p.ring == c.ring && p.idx == c.idx && p.countAll isHalt != p.total) (s.vyEnd p stTimeout none 0)

end Sys2Proof.Machine
end

