-- ==== Sys2Proof/Machine/Jobs.lean ====
section
/-! DEFINITION. Jobs: enabling, disabling and ending a job, and the commit of staged layouts. -/
namespace Sys2Proof.Machine

/-- Events of the logical switch (R430). -/
def eventTotal : Nat := 65536

/-! ## JOB_ENABLE (R431, R448) -/

/-- Another job that is ACTIVE or ENDING holds an event of the range; an empty range holds none (R448). -/
def State.eventsTaken (s : State) (j base n : Nat) : Bool :=
  n != 0 && s.jobs.any (fun e => e.1 != j && (e.2.get J.state == jobActive || e.2.get J.state == jobEnding)
    && e.2.get J.eventCount != 0 && rangesMeet base n (e.2.get J.eventBase) (e.2.get J.eventCount))

/-- The entry of a job that becomes ACTIVE (R448). -/
def Job.activate (b : Job) : Job :=
  let i := b.get J.lsInit
  let hist := (List.range 17).foldl (fun v n => v + i * 2 ^ (8 * n)) 0
  let b := ((((b.put J.enable 1).put J.state jobActive).put J.refuse 0).put J.nextGen 0).put J.epoch 0
  let b := (((b.put J.lsClean 0).put J.lsExp i).put J.lsLow i).put J.lsHist hist
  let b := ((b.put J.stale 0).put J.strayCells 0).put J.late 0
  let b := (((b.put J.slotsUsed 0).put J.storeUsed 0).put J.coldUsed 0).put J.ringsUsed 0
  { b with stray := 0 }

/-- A job becomes ACTIVE: its events take COUNT 0 and TARGET 1 (R431). -/
def State.activate (s : State) (j : Nat) : State :=
  let s := s.modJob j Job.activate
  let b := s.job j
  s.each (rangeFrom (b.get J.eventBase) (b.get J.eventCount)) (fun s e => s.setEvent e ⟨0, 1⟩)

/-- JOB_ENABLE: ENABLE written as 1; no job becomes ACTIVE in BLANK, in RETIRED or after a SHUTDOWN (R448, R632, R638). DEDUCED: assumption 38. -/
def execJobEnable (m : Master) (job : Nat) (s : State) : Res :=
  s.act (decide (job < 4096))
    (let b := s.job job
     let st := b.get J.state
     if !s.owns m job then s.notOwner m
     else if !s.serves then s
     else if st == jobActive then s.modJob job (fun b => b.put J.enable 1)
     else if st == jobEnding then s.modJob job (fun b => (b.put J.enable 1).put J.refuse 3)
     else
      let n := b.get J.eventCount
      let base := b.get J.eventBase
      if eventTotal < base + n ∨ s.eventsTaken job base n then
        s.modJob job (fun b => ((b.put J.enable 1).put J.state jobRefused).put J.refuse 1)
      else s.activate job)

/-- VALID and MEMBERS show the layout that LAYOUT_SEL selects (R451, R453). DEDUCED: assumption 39. -/
def State.layoutShow (s : State) : State :=
  let b := s.job (s.fget Reg.layoutSel F.layoutSel_jobId)
  let k := s.fget Reg.layoutSel F.layoutSel_layout
  (s.fset Reg.layoutStatus F.layoutStatus_valid (bget ⟨J.layoutValid.lo + k, 1⟩ b.entry)).fset
    Reg.layoutStatus F.layoutStatus_members (layoutCount (b.layout k))

/-! ## JOB_DISABLE (R450) -/

/-- The accepted commands of a job. -/
def State.jobCtxs (s : State) (j : Nat) : List Ctx := s.host.ctxs.filter (fun c => s.ringJob c.ring == j)

/-- The rings of a job halt with CAUSE JOB_ENDED, all that are not IDLE (R450). -/
def State.haltJobRings (s : State) (j : Nat) : State :=
  s.each (s.ringsListed.filter (fun n => s.ringJob n == j && s.ringState n != ringIdle)) (fun s n => s.haltRing n 4)

/-- What the job table and the part keep of a job that is ending: its registers, and its use of rings (R450). -/
def Job.released (b : Job) : Job :=
  let b := (((b.put J.slotsUsed 0).put J.storeUsed 0).put J.coldUsed 0).put J.layoutValid 0
  { Job.fresh with entry := b.entry }

/-- The sectors of the store that a job's tensors, handles and gradients take (R158 to R160). -/
def Job.sectors (b : Job) (j : Nat) : List Nat :=
  b.records.flatMap (fun e =>
    let cells := rangeFrom (bget T.shardBase e.2) (bget T.shardLen e.2)
    let stats (byCol : Bool) := if (b.keeps e.2).2.2 then touched e.2 (bget T.shardBase e.2) (bget T.shardLen e.2) byCol else []
    (List.range 4).map (Config.sectorOf 7 j e.1) ++ [0, 1, 2, 5].flatMap (fun g => cells.map (Config.sectorOf g j e.1))
      ++ (stats false).map (Config.sectorOf 3 j e.1) ++ (stats true).map (Config.sectorOf 4 j e.1))
    ++ b.handles.flatMap (fun h => (List.range h.elems).map (Config.sectorOf 6 j h.handle))

/-- The line lies in a page of the job. -/
def Job.hasLine (b : Job) (j line : Nat) : Bool := (b.sectors j).any (fun x => x / 8 == line)

/-- The job to which a line of the store belongs (R659). -/
def State.lineJob (s : State) (line : Nat) : Option Nat :=
  (s.jobs.find? (fun e => e.2.get J.state == jobActive && e.2.hasLine e.1 line)).map (·.1)

/-- A job ends with its pages wiped: the masks of their lines are empty (R655). -/
def State.wipePages (s : State) (j : Nat) : State :=
  if s.shed.lost.isEmpty then s
  else
    let b := s.job j
    s.setLost (s.shed.lost.filter (fun e => !b.hasLine j e.1))

/-- A SURVEY and a ROUTE_STAGE of some commands stop. -/
def State.dropWaits (s : State) (mine : Ref → Bool) : State :=
  let s := match s.host.survey with
    | some v => if v.cmd.any mine then
        ({ s with host := { s.host with survey := none } } : State).fset Reg.surveyStatus F.surveyStatus_busy 0 else s
    | none => s
  match s.xb.staged with
  | some r => if mine ⟨r.ring, r.idx⟩ then { s with xb := { s.xb with staged := none } } else s
  | none => s

/-- A SURVEY and a ROUTE_STAGE of an ending job stop (R450). -/
def State.dropJobWaits (s : State) (j : Nat) : State := s.dropWaits (fun r => s.ringJob r.ring == j)

/-- A job becomes ENDING: its commands, those too whose packets have not left, and its operations are cancelled, its rings halt and what it holds is released (R450). DEDUCED: assumption 38. -/
def State.endJob (s : State) (j : Nat) : State :=
  let s := (s.wipePages j).modJob j (fun b => (b.put J.enable 0).put J.state jobEnding)
  let s := s.each (s.ops.filter (fun o => o.job == j && o.live)) (fun s o =>
    match s.findOp j o.tag with
    | some o => if o.live then s.abortOwn o stCancelled else s
    | none => s)
  let s := match s.vy with
    | some p => if p.job = j then s.vyEnd p stCancelled none 0 else s
    | none => s
  let s := s.each ((s.jobCtxs j).filter (fun c => c.phase != .ended || !s.allOut c)) (fun s c =>
    ((s.opOf c.ref).elim s s.withdraw).endCmd c.ref stCancelled)
  let s := s.countLaunches
  let s := s.dropJobWaits j
  let s : State := { s with
    norms := s.norms.filter (fun r => r.job != j)
    restores := s.restores.filter (fun r => r.job != j)
    sieves := s.sieves.filter (fun r => s.ringJob r.ring != j)
    held := s.held.filter (fun h => h.job != j)
    bedQ := s.bedQ.filter (fun v => v.job != j)
    fences := s.fences.filter (fun f => f.job != j) }
  ((s.haltJobRings j).modJob j Job.released).layoutShow

/-- JOB_DISABLE: ENABLE written as 0 (R448, R450). -/
def execJobDisable (m : Master) (job : Nat) (s : State) : Res :=
  s.act (decide (job < 4096))
    (let st := (s.job job).get J.state
     if !s.owns m job then s.notOwner m
     else if st == jobActive then s.endJob job
     else if st == jobEnding then s.modJob job (fun b => (b.put J.enable 0).put J.refuse 0)
     else s.modJob job (fun b => ((b.put J.enable 0).put J.state jobFree).put J.refuse 0))

/-! ## JOB_END_COMPLETE (R448, R450) -/

/-- JOB_END_COMPLETE: every command of an ENDING job has completed, and the job becomes FREE or REFUSED (R448). DEDUCED: assumption 38. -/
def execJobEndComplete (job : Nat) (s : State) : Res :=
  let b := s.job job
  s.act (b.get J.state == jobEnding && (s.jobCtxs job).isEmpty)
    (s.modJob job (fun b => b.put J.state (if b.get J.refuse = 3 then jobRefused else jobFree)))

/-! ## LAYOUT_COMMIT (R451 to R453) -/

/-- A staged run as its register holds it (R452). -/
def State.stagedRun (s : State) (r : Nat) : LayoutRun :=
  let f (b : Bits) := s.fget (Reg.layoutRun r) b
  ⟨f F.layoutRun_memberBase, f F.layoutRun_count, f F.layoutRun_package, f F.layoutRun_firstPort⟩

/-- The runs break no rule of R453, the next of them starting at a member. -/
def runsOk : Nat → List LayoutRun → Bool
  | _, [] => true
  | k, r :: l =>
    r.base == k && decide (1 ≤ r.count ∧ r.count ≤ 128 ∧ r.firstPort + r.count ≤ 128 ∧ k + r.count ≤ noMember)
      && runsOk (k + r.count) l

/-- An accepted or in-flight command of the job names the layout (R453). A command is accepted until it completes (R414). -/
def State.layoutBusy (s : State) (j k : Nat) : Bool :=
  (s.jobCtxs j).any (fun c => isTagged c.opcode && c.p 16 3 == k)

/-- A refused commit (R451). -/
def State.layoutRefused (s : State) (cause : Nat) : State :=
  (s.fset Reg.layoutStatus F.layoutStatus_refused 1).fset Reg.layoutStatus F.layoutStatus_cause cause

/-- The cause for which a commit is refused. DEDUCED: assumption 39. -/
def State.commitCheck (s : State) (m : Master) (j k n : Nat) : Option Nat :=
  if !s.owns m j then some 4
  else if !s.jobIs j jobActive then some 3
  else if n = 0 ∨ 512 < n ∨ !runsOk 0 ((List.range n).map s.stagedRun) then some 1
  else if s.layoutBusy j k then some 2
  else none

/-- LAYOUT_COMMIT: the staged runs become a layout of the selected job, or the commit is refused (R451, R453). DEDUCED: assumption 39. -/
def execLayoutCommit (m : Master) (value : Word32) (s : State) : Res :=
  s.act true
    (let j := s.fget Reg.layoutSel F.layoutSel_jobId
     let k := s.fget Reg.layoutSel F.layoutSel_layout
     let n := value.toNat % 2 ^ 10
     match s.commitCheck m j k n with
     | some c => let t := s.layoutRefused c
                 if c = 4 then t.notOwner m else t
     | none =>
       let l := (List.range n).map s.stagedRun
       let s := s.modJob j (fun b =>
         { b.put ⟨J.layoutValid.lo + k, 1⟩ 1 with layouts := tset [] b.layouts k l })
       (s.fset Reg.layoutStatus F.layoutStatus_cause 0).layoutShow)

end Sys2Proof.Machine
end

