-- ==== Sys2Proof/Machine/Memories.lean ====
section
/-! DEFINITION. The HBM stacks: training, post-package repair and mode registers. -/
namespace Sys2Proof.Machine

/-- Stacks of a package (R2). -/
def stackTotal : Nat := 24

/-- Values of STACK_STATUS.STATE (R700). -/
def stackTraining : Nat := 0
def stackReady : Nat := 1
def stackFailed : Nat := 2

/-- STATE of a unit's health score (R617). -/
def State.setUnitState (s : State) (u st : Nat) : State :=
  let v := tget 0 s.shed.scores u
  { s with shed := { s.shed with scores := tset 0 s.shed.scores u (v - 2 ^ 11 * nbits v 11 2 + 2 ^ 11 * (st % 4)) } }

/-- A compute die has a store: its three stacks are READY and nothing of it has FAILED (R676, R700). -/
def State.dieHasStore (s : State) (d : Nat) : Bool :=
  s.storeDies.contains d
    && (List.range 3).all (fun k => s.fget (Reg.stackStatus (3 * d + k)) F.stackStatus_state == stackReady)

/-- STORE_STATUS.STORE_DIES follows the dies that have a store (R700). -/
def State.showStore (s : State) : State :=
  s.fset Reg.storeStatus F.storeStatus_storeDies
    ((List.range 8).foldl (fun v d => if s.dieHasStore d then v + 2 ^ d else v) 0)

/-- STORE_READY rises when the wipe, the boot's tests and the training are over and a die has a store (R639, R677). -/
def State.tryStoreReady (s : State) : State :=
  let trained := (List.range stackTotal).all (fun k => s.fget (Reg.stackStatus k) F.stackStatus_state != stackTraining)
  if s.pwr.wiped && !s.shed.bootBist && !s.shed.checking && decide (2 ≤ s.fget Reg.shedStatus F.shedStatus_bootState) && trained
      && s.fget Reg.storeStatus F.storeStatus_storeDies != 0 then
    s.fset Reg.service F.service_storeReady 1
  else s

/-- STACK_TRAINING: a stack ends its training after a number of retries, READY or FAILED (R615, R651, R676, R700). -/
def execStackTraining (stack : Nat) (ok : Bool) (retries : Nat) (s : State) : Res :=
  s.act (decide (stack < stackTotal) && s.fget (Reg.stackStatus stack) F.stackStatus_state == stackTraining)
    (let s := s.fset (Reg.stackStatus stack) F.stackStatus_state (if ok then stackReady else stackFailed)
     let s := s.fadd (Reg.stackStatus stack) F.stackStatus_trainRetries retries
     let s := if retries = 0 then s else s.addPoints (unitStack stack) (16 * retries)
     (if ok then s
      else (s.setUnitState (unitStack stack) 3).logUnit 0x08 6 1 (unitStack stack) (logDetail none none 0 0)).showStore.tryStoreReady)

/-- STACK_PORT[s] of the resource-owner table and the user of post-package repair (R620). -/
def reStack (stack : Nat) : Nat := 13 + stack
def ruRepair : Nat := 14

/-- GO of a post-package repair (R621, R632, R648). DEDUCED: assumption 44. -/
def State.pprGo (s : State) (stack : Nat) (v : Word32) (hard : Bool) : State :=
  let c := Reg.pprCtrl stack
  let st := Reg.pprStatus stack
  if !s.gateOpen then s.denied
  else
    let s := (s.fset c F.pprCtrl_pc (bget F.pprCtrl_pc v)).fset c F.pprCtrl_hard (if hard then 1 else 0)
    let life := s.fget Reg.lifecycleReg F.lifecycleReg_state
    if s.flag st F.pprStatus_busy then s
    else if (hard && (life == 2 || life == 4)) || !s.resCanTake (reStack stack) ruRepair then s.fset st F.pprStatus_refused 1
    else
      let a := Reg.pprAddr stack
      let r : PprRun := ⟨stack, hard, bget F.pprCtrl_pc v, s.fget a F.pprAddr_bank, s.fget a F.pprAddr_bankGroup,
        s.fget a F.pprAddr_row⟩
      let s := (s.resTake (reStack stack) ruRepair).fset st F.pprStatus_busy 1
      { s with shed := { s.shed with ppr := s.shed.ppr ++ [r] } }

/-- HPPR: GO with HARD at 1 (R648). -/
def execHppr (_m : Master) (stack : Nat) (value : Word32) (s : State) : Res :=
  s.act (decide (stack < stackTotal)) (s.pprGo stack value true)

/-- SPPR: GO with HARD at 0 (R648). -/
def execSppr (_m : Master) (stack : Nat) (value : Word32) (s : State) : Res :=
  s.act (decide (stack < stackTotal)) (s.pprGo stack value false)

/-- The row of a repair as REMAP shows rows (R648). -/
def PprRun.rowAddr (r : PprRun) : Nat := r.bank % 2 ^ 4 + 2 ^ 4 * (r.bankGroup % 4) + 2 ^ 6 * (r.row % 2 ^ 16)

/-- PPR_COMPLETE: a repair ends; a hard one stays in the stack (R648). DEDUCED: assumption 44. -/
def execPprComplete (stack : Nat) (ok : Bool) (left : Nat) (s : State) : Res :=
  match s.shed.ppr.find? (fun r => r.stack == stack) with
  | none => .next s
  | some r =>
    s.act true
      (let st := Reg.pprStatus stack
       let s := (s.fset st F.pprStatus_busy 0).fset st F.pprStatus_done 1
       let s := (if ok then s else s.fset st F.pprStatus_fail 1).fset st F.pprStatus_left left
       let s := if s.resUser (reStack stack) = ruRepair then s.resFree (reStack stack) else s
       let s : State := { s with shed := { s.shed with ppr := s.shed.ppr.filter (fun x => x.stack != stack) } }
       if ok && r.hard then { s with nv := { s.nv with fusedRows := s.nv.fusedRows ++ [(stack, r.pc, r.rowAddr)] } } else s)

/-- MR_SEL: a write selects a mode register, whose value `data` the stack answers (R701). -/
def execMrSel (_m : Master) (stack : Nat) (value : Word32) (data : Nat) (s : State) : Res :=
  s.act (decide (stack < stackTotal))
    (if !s.gateOpen then s.denied
     else
      let s := (s.fset (Reg.mrSel stack) F.mrSel_channel (bget F.mrSel_channel value)).fset (Reg.mrSel stack) F.mrSel_mr
        (bget F.mrSel_mr value)
      (s.fset (Reg.mrData stack) F.mrData_value data).fset (Reg.mrData stack) F.mrData_valid 1)

end Sys2Proof.Machine
end

