-- ==== Sys2Proof/Machine/Repair.lean ====
section
/-! DEFINITION. Repair of beds and of rows: spares, retirement, the remap tables and the soft-repair list. -/
namespace Sys2Proof.Machine

/-! ## Bed states and counts (R407, R408) -/

def bedActive : Nat := 0
def bedSpare : Nat := 1
def bedFused : Nat := 2
def bedRetired : Nat := 3

/-- Where BED_MAP shows a bed of the package. -/
def bedMapReg (b : Nat) : Nat := if b < 256 then Reg.bedMapLo (b / 16) else Reg.bedMapSpare

/-- The state of a bed of the other package of a pair. -/
def State.peerBedState (s : State) (b : Nat) : Nat := s.fget (Reg.bedMapPeer (b / 16)) ⟨2 * (b % 16), 2⟩

/-- Beds of the logical switch in a state. -/
def State.bedsOf (s : State) (st : Nat) : Nat :=
  ((List.range 272).filter (fun b => s.bedState b == st)).length
    + (if s.flag Reg.partId F.partId_grafted then ((List.range 272).filter (fun b => s.peerBedState b == st)).length else 0)

/-- BED_COUNT follows BED_MAP (R407). -/
def State.countBeds (s : State) : State :=
  let a := Reg.bedCount
  let s := (s.fset a F.bedCount_active (s.bedsOf bedActive)).fset a F.bedCount_spare (s.bedsOf bedSpare)
  (s.fset a F.bedCount_fused (s.bedsOf bedFused)).fset a F.bedCount_retired (s.bedsOf bedRetired)

/-- BED_MAP takes a state for a bed. -/
def State.setBed (s : State) (b st : Nat) : State := s.fset (bedMapReg b) ⟨2 * (b % 16), 2⟩ st

/-- A failed bed out of service, with the spare that serves in its place where there is one: a soft repair (R5, R6, R647). -/
def State.mapBed (s : State) (r : Nat × Nat) : State :=
  let s := s.setBed r.1 bedRetired
  (if r.2 = r.1 then s else s.setBed r.2 bedActive).countBeds

/-- The spares of the package. -/
def State.spares (s : State) : List Nat := (List.range 272).filter (fun b => s.bedState b == bedSpare)

/-- Stripes on a bed move to another. -/
def moveBed (a b : Nat) (l : List Nat) : List Nat := l.map (fun x => if x = a then b else x)

/-- The reduced buckets that a failed bed holds go to its spare (R644). -/
def State.restoreTo (s : State) (bed spare : Nat) : State :=
  { s with
    held := s.held.map (fun h => { h with place := moveBed bed spare h.place })
    ops := s.ops.map (fun o => { o with place := moveBed bed spare o.place }) }

/-- Without a spare, the reduced buckets of the bed are spilled (R55, R644). -/
def State.spillBed (s : State) (bed : Nat) : State :=
  s.each (s.held.filter (fun h => h.spill.isNone && h.place.contains bed)) State.spill

/-- The entries for the thresholds that a unit's score rises through (R619). -/
def State.scoreRise (s : State) (u old new : Nat) : State :=
  let s := if old < 32 ∧ 32 ≤ new then s.logUnit 0x0E 1 0 u new else s
  if old < 128 ∧ 128 ≤ new then (s.logUnit 0x0E 2 0 u new).fset Reg.shedEvents F.shedEvents_healthAlert 1 else s

/-- A failed slice sets the unit's score to 255, with its marks and the score's entries (R615, R617, R619). -/
def State.failScore (s : State) (u : Nat) : State :=
  let v := tget 0 s.shed.scores u
  let w := 255 + 2 ^ 8 * nbits v 8 5 + 2 ^ 13 + 2 ^ 14 + 2 ^ 15
  ({ s with shed := { s.shed with scores := tset 0 s.shed.scores u w } } : State).scoreRise u (v % 256) 255

/-- A bed treated as failed: SCORE 255 with its marks and STATE, its score's entries, SLICE_FAIL and REPAIRED (R617, R619, R644). -/
def State.failBed (s : State) (u st : Nat) : State :=
  let s := (s.setUnitState u st).failScore u
  (s.fset Reg.shedEvents F.shedEvents_sliceFail 1).fset Reg.shedEvents F.shedEvents_repaired 1

/-- A failed bed is replaced by a spare, or is retired when none is left (R5, R6, R644). DEDUCED: assumption 45. -/
def State.repairBed (s : State) (bed : Nat) : State :=
  let u := unitBed bed
  let l := s.spares
  let (s, spare) := if l.isEmpty then (s.spillBed bed, bed)
    else
      let p := l.getD (Config.pickSpare s.freeCtr % l.length) 0
      (s.bump.restoreTo bed p, p)
  let s := (s.mapBed (bed, spare)).failBed u (if spare = bed then 3 else 2)
  let s : State := { s with nv := { s.nv with softBeds := s.nv.softBeds ++ [(bed, spare)] } }
  s.logUnit 0x0B (if spare = bed then 2 else 1) 1 u spare

/-! ## Remapped rows (R646) -/

/-- Entries of a remap table. -/
def remapSize : Nat := 1024

/-- The register of entry e of pseudo-channel p of a stack (R648). -/
def remapReg (stack p e : Nat) : Nat := Reg.remap (1024 * p + e) stack

/-- Entries in use of a pseudo-channel's table. -/
def State.remapUsed (s : State) (stack p : Nat) : Nat :=
  ((List.range remapSize).filter (fun e => s.flag (remapReg stack p e) F.remap_valid)).length

/-- A failed row is remapped, or its pseudo-channel takes STATE FAILED when the table is full; the soft-repair list keeps it in either case
(R646, R647, R675). DEDUCED: assumption 45. -/
def State.remapRow (s : State) (stack p row : Nat) : State :=
  let u := unitPc (32 * stack + p)
  let n := s.remapUsed stack p
  let s : State := { s with nv := { s.nv with softRows := s.nv.softRows ++ [(stack, p, row)] } }
  if remapSize ≤ n then
    (((s.setUnitState u 3).logUnit 0x0B 4 1 u row).logUnit 0x08 7 1 u (logDetail none none 0 0)).showStore
  else
    let a := remapReg stack p n
    let s := (s.fset a F.remap_rowAddr row).fset a F.remap_valid 1
    let s := (if s.unitState u = 3 then s else s.setUnitState u 2).addPoints u 16
    (s.logUnit 0x0B 3 1 u row).fset Reg.shedEvents F.shedEvents_repaired 1

/-- A remapped row as the boot applies it: no entry, no points; one beyond a full table leaves its pseudo-channel FAILED (R646, R647). -/
def State.applyRow (s : State) (r : Nat × Nat × Nat) : State :=
  let n := s.remapUsed r.1 r.2.1
  if remapSize ≤ n then (s.setUnitState (unitPc (32 * r.1 + r.2.1)) 3).showStore
  else
    let a := remapReg r.1 r.2.1 n
    ((s.fset a F.remap_rowAddr r.2.2).fset a F.remap_valid 1).setUnitState (unitPc (32 * r.1 + r.2.1)) 2

/-- Boot applies repairs of beds and of rows (R639, R647). -/
def State.applyRepairs (s : State) (beds : List (Nat × Nat)) (rows : List (Nat × Nat × Nat)) : State :=
  let s := s.each beds (fun s r => (s.mapBed r).setUnitState (unitBed r.1) (if r.2 = r.1 then 3 else 2))
  s.each rows State.applyRow

end Sys2Proof.Machine
end

