-- ==== Sys2Proof/Machine/Fec.lean ====
section
/-! DEFINITION. What a lane carries: the RS(544,514) code, alignment markers, and the dealing of flit slots over logical lanes. -/
namespace Sys2Proof.Machine

/-! ## The RS(544,514) code of IEEE 802.3 Clause 91 (R473). PRESUMED: assumption 77. -/

/-- A product in GF(2^10), modulo x^10 + x^3 + 1. -/
def gfMul (a b : Nat) : Nat :=
  (List.range 10).foldl (fun p i =>
    let p := if p < 512 then 2 * p else (2 * p) ^^^ 0x409
    if nbits b (9 - i) 1 = 1 then p ^^^ a else p) 0

/-- A power of the primitive element. -/
def gfAlpha (j : Nat) : Nat := (List.range j).foldl (fun p _ => gfMul p 2) 1

/-- The generator polynomial, the product of x + α^j for j from 0 to 29: its coefficients below x^30, ascending. -/
def rsGen : List Nat :=
  (List.range 30).foldl (fun g j => List.zipWith (fun low c => low ^^^ gfMul (gfAlpha j) c) (0 :: g) (g ++ [1])) []

/-- One message symbol into the division by the generator. -/
def rsStep (par : List Nat) (m : Nat) : List Nat :=
  List.zipWith (fun p g => p ^^^ gfMul (m ^^^ par.getLastD 0) g) (0 :: par.dropLast) rsGen

/-- The 30 parity symbols of a message, in the order in which they are sent. -/
def rsParity (msg : List Nat) : List Nat := (msg.foldl rsStep (List.replicate 30 0)).reverse

/-- Symbols of 10 bits as the bits of the wire, the first symbol lowest. -/
def symBits : List Nat → Nat
  | [] => 0
  | x :: r => x + 2 ^ 10 * symBits r

/-- The codeword of a message of 514 symbols. -/
def rsCodeword (msg : Nat) : BitVec 5440 :=
  BitVec.ofNat 5440 (msg + 2 ^ 5140 * symBits (rsParity ((List.range 514).map (fun i => nbits msg (10 * i) 10))))

/-! ## Alignment markers (R474, R570) -/

/-- Taproot, as a link beside the ports and the trunks (R400). -/
def tapLink : Nat := 132

/-- The marker of a logical lane: the pattern, then LOGICAL, PORT and AM_COUNT. DESIGN CHOICE: assumption 78 for Taproot's. -/
def laneMarker (l lane count : Nat) : Nat :=
  Config.amPattern.toNat + 2 ^ 80 * ((if l < 128 then lane % 8 + 2 ^ 3 * l else lane % 32 + 2 ^ 5 * ((l - 128) % 4))
    + 2 ^ 10 * (count % 2 ^ 16))

/-- A codeword begins with what the last one could not hold; every 1,024th begins with a marker. -/
def laneBegin (l lane cw fill bits : Nat) : LaneEnc :=
  if cw % 1024 = 0 then ⟨cw, fill + 120, laneMarker l lane (cw / 1024) + 2 ^ 120 * bits⟩ else ⟨cw, fill, bits⟩

/-- A flit enters a lane's bit stream; a message that is full leaves as a codeword (R473). -/
def State.encode (s : State) (l lane : Nat) (flit : Bytes) : State :=
  let x := s.link l
  let e := (tfind x.enc lane).getD (laneBegin l lane 0 0 0)
  let bits := e.bits + 2 ^ e.fill * ofLe flit
  let fill := e.fill + 8 * flit.length
  if fill < 5140 then s.setLink l { x with enc := tput x.enc lane ⟨e.cw, fill, bits⟩ }
  else
    (s.setLink l { x with enc := tput x.enc lane (laneBegin l lane (e.cw + 1) (fill - 5140) (bits / 2 ^ 5140)) }).emit
      (.codeword l lane (rsCodeword (bits % 2 ^ 5140)))

/-! ## Slots (R472) -/

/-- A flit leaves on a logical lane. -/
def State.putFlit (s : State) (l lane : Nat) (flit : Bytes) : State := (s.emit (.flit l lane flit)).encode l lane flit

/-- The logical lanes over which a link deals its slots: those of the active width, before it is known all that the port drives.
DEDUCED: assumption 78. -/
def State.slotLanes (s : State) (l : Nat) : Nat :=
  if 128 ≤ l then (if l = tapLink then 16 else 32)
  else if s.fget (Reg.portStatus l) F.portStatus_state = 5 then 2 ^ s.fget (Reg.portStatus l) F.portStatus_activeWidth
  else max 1 (s.link l).lanes.length

/-- A flit takes the next slot. As the rotation begins again, every lane beyond the active width sends an IDLE flit (R480). -/
def State.deal (s : State) (l : Nat) (idle flit : Bytes) : State :=
  let x := s.link l
  let w := s.slotLanes l
  let lane := x.txSlot % w
  let s := s.setLink l { x with txSlot := x.txSlot + 1 }
  let s := if lane = 0 then s.each (rangeFrom w (x.lanes.length - w)) (fun s k => s.putFlit l k idle) else s
  s.putFlit l lane flit

/-- A flit has arrived on a logical lane, and waits for its slot; lanes beyond the active width are ignored (R480). -/
def State.arrived (s : State) (l lane : Nat) (bad : Bool) (flit : Bytes) : State :=
  let x := s.link l
  if lane < s.slotLanes l then s.setLink l { x with rxWait := x.rxWait ++ [(lane, bad, flit)] } else s

/-- The flit of the next slot, where it has arrived. -/
def State.nextFlit (s : State) (l : Nat) : Option (Nat × Bool × Bytes) :=
  let x := s.link l
  x.rxWait.find? (fun e => e.1 == x.rxSlot % s.slotLanes l)

/-- The next slot's flit is taken out of those that wait. -/
def State.pullFlit (s : State) (l : Nat) (e : Nat × Bool × Bytes) : State :=
  let x := s.link l
  s.setLink l { x with rxWait := x.rxWait.erase e, rxSlot := x.rxSlot + 1 }

/-- The rotation of a link begins anew, its lanes' bit streams going on. -/
def Link.restart (x : Link) : Link := { x with txSlot := 0, rxSlot := 0, rxWait := [] }

/-! ## Equalisers (R469, R505) -/

/-- The lane of the expert lane registers at which a link's lane stands (R405). -/
def expertLane (l lane : Nat) : Nat := if l < 128 then lane else if l = tapLink then 512 + lane else 528 + 32 * (l - 128) + lane

/-- A tap has adapted, unless FREEZE holds it; one that reaches the end of its range sets DFE_SAT and raises the lane's health count. -/
def State.adaptTap (s : State) (l : Nat) (x : Nat × Nat × Word32 × Bool) : State :=
  let (lane, tap, value, atEnd) := x
  let e := expertLane l lane
  if s.flag (Reg.lxCtrl e) F.lxCtrl_freeze then s
  else
    let s := s.rset (Reg.lxDfe tap e) (value.setWidth 64)
    let new := atEnd && !(decide (l < 128) && s.flag (Reg.laneStatus lane) F.laneStatus_dfeSat)
    let s := if atEnd && decide (l < 128) then s.fset (Reg.laneStatus lane) F.laneStatus_dfeSat 1 else s
    if new then s.addPoints (unitLane e) 8 else s

/-- The equalisers of a lane as training leaves them: the taps of its DFE, and the coefficients that its far end has asked of the FFE. -/
def State.takeTaps (s : State) (l lane : Nat) (x : LaneTrained) : State :=
  let s := s.rset (Reg.lxTxeq (expertLane l lane)) (BitVec.ofNat 64 (x.txeq % 2 ^ 30))
  s.each (x.taps.take 24).zipIdx (fun s t => s.adaptTap l (lane, t.2, t.1, false))

end Sys2Proof.Machine
end

