-- ==== Sys2Proof/Machine/Resources.lean ====
section
/-! DEFINITION. Features that share a pin or a capture bank: TICK_OUT, the debug clock, mirror sessions and telemetry. -/
namespace Sys2Proof.Machine

/-- Entries and users of the resource-owner table (R620). -/
def rePin : Nat := 4
def ruTelemetry : Nat := 1
def ruMirror (s : Nat) : Nat := 2 + s
def ruTickOut : Nat := 10
def ruDebug : Nat := 11

/-- Telemetry stops and frees its banks. -/
def State.telemOff (s : State) : State :=
  let s := s.fset Reg.telemCtrl F.telemCtrl_enable 0
  s.each [0, 1] (fun s e => if s.resUser e = ruTelemetry then s.resFree e else s)

/-- A mirror session stops and frees its bank (R565). -/
def State.mirrorOff (s : State) (n : Nat) : State :=
  let s := s.fset (Reg.mirCtrl n) F.mirCtrl_enable 0
  s.each [0, 1, 2, 3] (fun s e => if s.resUser e = ruMirror n then s.resFree e else s)

/-- A user that loses an entry to one of a lower code in the same tick: its enable has failed (R621, R622). -/
def State.evict (s : State) (e : Nat) : State :=
  let u := s.resUser e
  if u = ruTelemetry then s.telemOff.fset Reg.telemCtrl F.telemCtrl_held 1
  else if 2 ≤ u ∧ u ≤ 9 then (s.mirrorOff (u - 2)).fset (Reg.mirCtrl (u - 2)) F.mirCtrl_held 1
  else if u = ruTickOut then
    ((s.fset Reg.tickOutCtrl F.tickOutCtrl_enable 0).fset Reg.tickOutCtrl F.tickOutCtrl_held 1).resFree e
  else if u = ruDebug then ((s.fset Reg.dbgClkCtrl F.dbgClkCtrl_enable 0).fset Reg.dbgClkCtrl F.dbgClkCtrl_held 1).resFree e
  else s

/-- An entry passes to a user that may take it; one that holds it already holds it on (R622). DEDUCED: assumption 43. -/
def State.resGrab (s : State) (e user : Nat) : State :=
  if s.resUser e = user then s else (if s.resUser e = 0 then s else s.evict e).resTake e user

/-- The resource of the package's own TIME registers. -/
def State.resTimeOwn (s : State) : Nat := resTime + s.pkgNo

/-- TICK_OUT_ENABLE: a write of TICK_OUT_CTRL (R396, R621). -/
def execTickOutEnable (m : Master) (value : Word32) (s : State) : Res :=
  s.act true
    (if !s.owns m s.resTimeOwn then s.notOwner m
     else
      let s := (s.fset Reg.tickOutCtrl F.tickOutCtrl_period (bget F.tickOutCtrl_period value)).fset
        Reg.tickOutCtrl F.tickOutCtrl_held 0
      if bflag F.tickOutCtrl_enable value then
        if s.resCanTake rePin ruTickOut then (s.resGrab rePin ruTickOut).fset Reg.tickOutCtrl F.tickOutCtrl_enable 1
        else (s.fset Reg.tickOutCtrl F.tickOutCtrl_enable 0).fset Reg.tickOutCtrl F.tickOutCtrl_held 1
      else
        let s := s.fset Reg.tickOutCtrl F.tickOutCtrl_enable 0
        if s.resUser rePin = ruTickOut then s.resFree rePin else s)

/-- DEBUG_CLOCK_ENABLE: a write of DBG_CLK_CTRL, an expert register that any master may write (R461, R597, R621). DEDUCED: assumption 42. -/
def execDebugClockEnable (m : Master) (value : Word32) (s : State) : Res :=
  s.act true
    (if !s.gateOpen then s.denied
     else
      let s := s.logEvent 0x0C 6 0 0 (masterNum m) none
      let s := (s.fset Reg.dbgClkCtrl F.dbgClkCtrl_sel (bget F.dbgClkCtrl_sel value)).fset Reg.dbgClkCtrl F.dbgClkCtrl_held 0
      if bflag F.dbgClkCtrl_enable value then
        if s.resCanTake rePin ruDebug then (s.resGrab rePin ruDebug).fset Reg.dbgClkCtrl F.dbgClkCtrl_enable 1
        else (s.fset Reg.dbgClkCtrl F.dbgClkCtrl_enable 0).fset Reg.dbgClkCtrl F.dbgClkCtrl_held 1
      else
        let s := s.fset Reg.dbgClkCtrl F.dbgClkCtrl_enable 0
        if s.resUser rePin = ruDebug then s.resFree rePin else s)

/-! ## Mirror sessions (R554 to R558, R565) -/

/-- The fields of MIR_CTRL that a write sets: BANK and LOG2_SIZE only while the session is off (R565). -/
def State.mirrorFields (s : State) (n : Nat) (v : Word32) : State :=
  let a := Reg.mirCtrl n
  let s := (s.fset a F.mirCtrl_vector (bget F.mirCtrl_vector v)).fset a F.mirCtrl_irqEn (bget F.mirCtrl_irqEn v)
  if s.flag a F.mirCtrl_enable then s
  else (s.fset a F.mirCtrl_bank (bget F.mirCtrl_bank v)).fset a F.mirCtrl_log2Size (bget F.mirCtrl_log2Size v)

/-- A session counts passing packets from now on, those that are in the buffer too (R555). -/
def State.mirrorAfresh (s : State) (n : Nat) : State :=
  let f (k : Pk) : Pk := { k with seen := k.seen.filter (· != n), kept := k.kept.filter (· != n) }
  { s with xb := { s.xb with
    mirrors := tset 0 s.xb.mirrors n 0, pkts := s.xb.pkts.map f, toEngines := s.xb.toEngines.map f, taken := s.xb.taken.map f } }

/-- MIRROR_ENABLE: a write of MIR_CTRL with ENABLE at 1 (R558). DEDUCED: assumption 43. -/
def execMirrorEnable (m : Master) (session : Nat) (value : Word32) (s : State) : Res :=
  s.act (decide (session < 8))
    (if !s.owns m resFabric then s.notOwner m
     else
      let on := s.flag (Reg.mirCtrl session) F.mirCtrl_enable
      let s := s.mirrorFields session value
      if on then s
      else
        let e := s.fget (Reg.mirCtrl session) F.mirCtrl_bank
        if s.resCanTake e (ruMirror session) then
          let s := s.resGrab e (ruMirror session)
          let s := (s.fset (Reg.mirCtrl session) F.mirCtrl_enable 1).fset (Reg.mirCtrl session) F.mirCtrl_held 0
          s.mirrorAfresh session
        else s.fset (Reg.mirCtrl session) F.mirCtrl_held 1)

/-- MIRROR_DISABLE: a write of MIR_CTRL with ENABLE at 0 (R565). -/
def execMirrorDisable (m : Master) (session : Nat) (value : Word32) (s : State) : Res :=
  s.act (decide (session < 8))
    (if !s.owns m resFabric then s.notOwner m
     else ((s.mirrorFields session value).mirrorOff session).fset (Reg.mirCtrl session) F.mirCtrl_held 0)

/-- MIR_HEAD: the count of consumed records, ignored out of range (R565). -/
def execMirHead (m : Master) (session : Nat) (value : Word32) (s : State) : Res :=
  s.act (decide (session < 8))
    (if !s.owns m resFabric then s.notOwner m
     else if s.mirrorSize session < ptrDiff (s.fget (Reg.mirTail session) F.mirTail_value) value.toNat then s
     else s.fset (Reg.mirHead session) F.mirHead_value value.toNat)

/-! ## Telemetry (R558 to R561) -/

/-- Bytes of a congestion map (R560). -/
def mapBytes : Nat := 16448

/-- TELEMETRY_ENABLE: a write of TELEM_CTRL (R558). DEDUCED: assumption 43. -/
def execTelemetryEnable (m : Master) (value : Word32) (s : State) : Res :=
  s.act true
    (if !s.owns m resFabric then s.notOwner m
     else
      let on := s.flag Reg.telemCtrl F.telemCtrl_enable
      let s := (s.fset Reg.telemCtrl F.telemCtrl_host (bget F.telemCtrl_host value)).fset
        Reg.telemCtrl F.telemCtrl_tlog2 (bget F.telemCtrl_tlog2 value)
      let s := s.fset Reg.telemCtrl F.telemCtrl_held 0
      if !bflag F.telemCtrl_enable value then s.telemOff
      else if on then s
      else if s.resCanTake 0 ruTelemetry && s.resCanTake 1 ruTelemetry then
        let s := ((s.resGrab 0 ruTelemetry).resGrab 1 ruTelemetry).fset Reg.telemCtrl F.telemCtrl_enable 1
        { s with xb := { s.xb with telem := { Telem.zero with start := s.now / 2 ^ 20 * 2 ^ 20 }, telemDone := [] } }
      else s.fset Reg.telemCtrl F.telemCtrl_held 1)

/-- A port entry of a congestion map (R560). -/
def Telem.portEntry (t : Telem) (p : Nat) : Bytes :=
  let cls (f : Nat → Bytes) : Bytes := (List.range 4).flatMap f
  cls (fun c => (List.range 8).flatMap (fun b => leBytes 2 (tget 0 t.hist (8 * (4 * p + c) + b))))
    ++ cls (fun c => leBytes 4 (cap32 (tget 0 t.cellsOut (4 * p + c)))) ++ cls (fun c => leBytes 4 (cap32 (tget 0 t.marked (4 * p + c))))
    ++ cls (fun c => leBytes 4 (cap32 (tget 0 t.policed (4 * p + c))))
    ++ cls (fun c => leBytes 2 (min (tget 0 t.maxDepth (4 * p + c)) 0xFFFF)) ++ leBytes 4 (cap32 (tget 0 t.drops p)) ++ leBytes 4 0

/-- A congestion map (R560). -/
def State.telemMap (s : State) (t : Telem) : Bytes :=
  leBytes 64 (1 + 2 ^ 16 * (s.self % 2 ^ 16) + 2 ^ 32 * (t.seq % 2 ^ 32) + 2 ^ 64 * (t.start % 2 ^ 64) + 2 ^ 128 * 128 + 2 ^ 136 * 10)
    ++ (List.range 128).flatMap t.portEntry

/-- A map is delivered: to the host ring with its header last, and to a coordinate (R561). DEDUCED: assumption 43. -/
def State.sendMap (s : State) (map : Bytes) (seq : Nat) : State :=
  let a := (s.rget Reg.telemBase).toNat + mapBytes * (seq % 2 ^ s.fget Reg.telemCtrl F.telemCtrl_tlog2)
  let s := if s.flag Reg.telemCtrl F.telemCtrl_host && s.linkUp s.fabricCard then
    (s.emit (.hostWrite (a + 64) (map.drop 64))).emit (.hostWrite a (map.take 64)) else s
  let s := if s.flag Reg.telemDest F.telemDest_en then
    s.each (dataPieces 0 map) (fun s x => s.send (s.mkPacket ptData 0 0 (s.fget Reg.telemDest F.telemDest_coord) 0 0 0 0
      (dataFields x.1 noMember 8) 2 x.2)) else s
  s.fset Reg.telemSeq F.telemSeq_value seq

/-- As an interval of 2^20 ticks ends, or a step of the counter leaves it, its counts go to the map, and the interval of the counter's
new value begins (R559). -/
def State.rollTelem (s : State) : State :=
  let t := s.xb.telem
  if s.flag Reg.telemCtrl F.telemCtrl_enable && s.now / 2 ^ 20 * 2 ^ 20 != t.start then
    { s with xb := { s.xb with
      telem := { Telem.zero with start := s.now / 2 ^ 20 * 2 ^ 20, seq := t.seq + 1 }, telemDone := s.xb.telemDone ++ [t] } }
  else s

/-- TELEMETRY_INTERVAL: the map of an interval that has ended goes out or waits for a buffer (R551, R559, R561). DEDUCED: assumption 43. -/
def execTelemetryInterval (s : State) : Res :=
  match s.xb.telemDone with
  | [] => .next s
  | t :: rest =>
    s.act true
      (let s : State := { s with xb := { s.xb with telemDone := rest } }
       s.askBuffer mapBytes (.map t.seq (s.telemMap t)) (fun s _ _ => s.sendMap (s.telemMap t) t.seq))

end Sys2Proof.Machine
end

