-- ==== Sys2Proof/Machine/Crossbar.lean ====
section
/-! DEFINITION. The crossbar's packets: their cells, the counters and mirror records they leave, the copies for each output,
and the buffers and credits that they hold. -/
namespace Sys2Proof.Machine

/-! ## Ports and trunks (R515, R556) -/

/-- Values of PORT_STATUS.STATE (R503). -/
def psDisabled : Nat := 0
def psDetect : Nat := 1
def psTrain : Nat := 2
def psLock : Nat := 3
def psCap : Nat := 4
def psActive : Nat := 5
def psFailed : Nat := 6
def psRefused : Nat := 7

def State.portState (s : State) (p : Nat) : Nat := s.fget (Reg.portStatus p) F.portStatus_state
def State.trunkUp (s : State) (d : Nat) : Bool := s.flag Reg.graftStatus ⟨8 + d, 1⟩

/-- The package's own Taproot link is active (R400). -/
def State.tapUp (s : State) : Bool := s.host.tapStage == psActive

/-- A port, a trunk or Taproot is active. -/
def State.linkAct (s : State) (l : Nat) : Bool :=
  if l < 128 then s.portState l == psActive else if l = tapLink then s.tapUp else s.trunkUp (l - 128)

/-- A link is up: ACTIVE, or retraining (R671). -/
def State.linkLive (s : State) (l : Nat) : Bool := s.linkAct l || (s.link l).retrain

/-- A link carries cells: ACTIVE and not retraining (R475, R494). -/
def State.linkOpen (s : State) (l : Nat) : Bool := s.linkAct l && !(s.link l).retrain

/-- An output is up, or takes cells: an edge stop always does. -/
def State.outLive (s : State) (out : Nat) : Bool := isEdgeIo out || s.linkLive (ioLink out)
def State.outOpen (s : State) (out : Nat) : Bool := isEdgeIo out || s.linkOpen (ioLink out)

/-- The trunk that a cell for the other package crosses on (R588). -/
def State.crossTrunk (s : State) (inp : Nat) : Option Nat :=
  ((List.range 4).map (fun i => (s.ioDie inp + i) % 4)).find? s.trunkUp

/-! ## Cells (R506, R507, R513) -/

/-- Payload bytes of each cell of a packet whose payload begins with `hdr` bytes of its own and goes on in whole units. -/
def cellLens (unit hdr len : Nat) : List Nat :=
  let first := hdr + (224 - hdr) / unit * unit
  let other := 248 / unit * unit
  let n := cellCount unit hdr len
  (List.range n).map (fun i =>
    if i = 0 then (if n = 1 then len else first) else if i + 1 = n then len - first - other * (i - 1) else other)

/-- Header of a cell. -/
def cellHeader (pos cls mark ctx len cseq aborted : Nat) : Nat :=
  pos % 4 + 2 ^ 2 * (cls % 4) + 2 ^ 4 * (mark % 2) + 2 ^ 5 * (ctx % 4096) + 2 ^ 17 * (len % 256) + 2 ^ 25 * (cseq % 4096)
    + 2 ^ 37 * (aborted % 2)

/-- The last cell of a packet is known. -/
def Pk.isLast (k : Pk) (i : Nat) : Bool := k.closed && i + 1 == k.n

/-- POS of a cell. -/
def Pk.pos (k : Pk) (i : Nat) : Nat :=
  if i = 0 then (if k.isLast 0 then 0 else 1) else if k.isLast i then 3 else 2

/-- The cell that closes a packet with an uncorrectable cell in the buffer (R651): nothing of what was read goes on (R653).
DESIGN CHOICE: assumption 49. -/
def Pk.badAt (k : Pk) (i : Nat) : Bool := k.isLast i && k.pkt.bad

/-- Bytes of a cell, with the packet's header in the first one, filled up to 256. -/
def Pk.cell (k : Pk) (i ctx mark : Nat) : Bytes :=
  let off := (k.lens.take i).foldl (· + ·) 0
  let len := if k.badAt i then 0 else k.lens.getD i 0
  let hdr := cellHeader (k.pos i) k.pkt.cls mark ctx len i (if k.isLast i && (k.pkt.aborted || k.pkt.bad) then 1 else 0)
  bytesAt (leBytes 8 hdr ++ (if i = 0 then leBytes 24 k.pkt.hdr.toNat else []) ++ bytesAt k.pkt.payload off len) 0 256

/-- The next number for a packet, a copy or a cell's place in its queues. -/
def State.takeId (s : State) : Nat × State := (s.xb.nextId, { s with xb := { s.xb with nextId := s.xb.nextId + 1 } })

/-! ## Queues, marks and the schedule (R517, R542, R546, R547) -/

/-- Cells of a class that the virtual output queues of all inputs hold for an output. -/
def State.depth (s : State) (out cls : Nat) : Nat :=
  s.xb.copies.foldl (fun n c =>
    if c.out = out then (match s.pk c.pid with
      | some k => if k.pkt.cls = cls then n + (k.n - c.next) else n
      | none => n) else n) 0

/-- A register of R565 as it acts in this tick: a write takes effect in the next. -/
def State.qosReg (s : State) (a : Nat) : Word64 := (tfind s.xb.qos a).getD (s.rget a)

/-- A new BURST caps the tokens that a shaper or policer holds (R565). -/
def State.capTokens (s : State) (a : Nat) : State :=
  let p := (a - 0x401000) / 64
  let k := (a - 0x401000) % 64 / 4
  if k < 6 then
    let key := 4 * p + k % 3 + 1
    let cap : Int := 1024 * s.fget a F.shape1_burst
    if k < 3 then { s with xb := { s.xb with shape := tset 0 s.xb.shape key (min (tget 0 s.xb.shape key) cap) } }
    else { s with xb := { s.xb with police := tset 0 s.xb.police key (min (tget 0 s.xb.police key) cap) } }
  else s

/-- MARK_DEPTH of a class at a port, in cells; 0 marks nothing. -/
def State.markDepth (s : State) (out cls : Nat) : Nat :=
  if isPortIo out ∧ 1 ≤ cls ∧ cls ≤ 3 then 16 * bget ⟨10 * (cls - 1), 10⟩ (s.qosReg (Reg.markDepth out)) else 0

/-- Cell i enters the queue of a copy that holds `d` cells, and is marked where the queue is deep (R542). -/
def State.enterCell (s : State) (cp : Copy) (cls i d : Nat) : State :=
  let m := s.markDepth cp.out cls
  if m != 0 && decide (m ≤ d) then
    let s := (s.countAt Reg.marked cp.out 1).modCopy cp.id (fun c => { c with marks := i :: c.marks })
    if s.flag Reg.telemCtrl F.telemCtrl_enable then
      let key := 4 * cp.out + cls
      { s with xb := { s.xb with telem := { s.xb.telem with marked := tset 0 s.xb.telem.marked key (tget 0 s.xb.telem.marked key + 1) } } }
    else s
  else s

/-- The schedule bank in force (R543, R564). -/
def State.bank (s : State) : Option SchedBank :=
  if s.flag Reg.schedStatus F.schedStatus_inForce then
    (if s.fget Reg.schedStatus F.schedStatus_bank = 0 then s.xb.bank0 else s.xb.bank1)
  else none

/-- The slot in force at a tick (R546). -/
def SchedBank.slotAt (b : SchedBank) (t : Nat) : Nat := (t - b.start) / 2 ^ b.slotLog2 % max b.nslots 1

/-- The owner of an output port in a slot (R544). -/
def SchedBank.owner (b : SchedBank) (slot out : Nat) : Nat := tget 0xFFFF b.owners (256 * slot + out)

/-- An input as OWNER names it; a trunk stands for every port of the other package. -/
def State.isOwner (s : State) (owner inp : Nat) : Bool :=
  if isEdgeIo inp then owner == 0x100
  else if isTrunkIo inp then decide (owner < 256) && owner / 128 != s.pkgNo
  else owner == s.bit inp

/-- The input owns a slot of the period for a port of the logical switch (R547). -/
def State.ownsSlot (s : State) (b : SchedBank) (inp q : Nat) : Bool :=
  (List.range b.nslots).any (fun i => s.isOwner (b.owner i q) inp)

end Sys2Proof.Machine
end

