-- ==== Sys2Proof/Machine/Switching.lean ====
section
/-! DEFINITION. Routing of packets, the matching of a cell time, and the grants of the buffer pool manager. -/
namespace Sys2Proof.Machine

/-! ## Token buckets (R540, R541) -/

/-- SHAPE and POLICE of class c at a port. -/
def shapeReg (p c : Nat) : Nat := Reg.shape1 p + 4 * (c - 1)
def policeReg (p c : Nat) : Nat := Reg.police1 p + 4 * (c - 1)
abbrev F.bucket_rate : Bits := ⟨0, 16⟩
abbrev F.bucket_burst : Bits := ⟨16, 16⟩

/-- One cell's worth of tokens. -/
def cellTokens : Int := 1024

/-- The class of a port is policed. -/
def State.polices (s : State) (p c : Nat) : Bool := isPortIo p && decide (1 ≤ c ∧ c ≤ 3) && bget F.bucket_rate (s.qosReg (policeReg p c)) != 0

/-- Cells of an admitted packet spend tokens of their input's policer (R541). -/
def State.spendPolice (s : State) (p c n : Nat) : State :=
  if s.polices p c then
    { s with xb := { s.xb with police := tset 0 s.xb.police (4 * p + c) (tget 0 s.xb.police (4 * p + c) - cellTokens * n) } }
  else s

/-- A cell can be granted at an output: its class is unshaped there, or the bucket holds a token (R540). The scheduled class is
never shaped. -/
def State.shapeOk (s : State) (out c : Nat) : Bool :=
  !isPortIo out || !decide (1 ≤ c ∧ c ≤ 3) || bget F.bucket_rate (s.qosReg (shapeReg out c)) == 0
    || decide (cellTokens ≤ tget 0 s.xb.shape (4 * out + c))

def State.spendShape (s : State) (out c : Nat) : State :=
  if isPortIo out && decide (1 ≤ c ∧ c ≤ 3) && bget F.bucket_rate (s.qosReg (shapeReg out c)) != 0 then
    { s with xb := { s.xb with shape := tset 0 s.xb.shape (4 * out + c) (tget 0 s.xb.shape (4 * out + c) - cellTokens) } }
  else s

/-! ## The choice of outputs (R519, R521 to R523, R535) -/

/-- The member of a port group that carries a flow (R523). -/
def flowMember (src job tag seed n : Nat) : Nat :=
  let v : Word64 := BitVec.ofNat 64 (src + 2 ^ 23 * job + 2 ^ 35 * tag) ^^^ BitVec.ofNat 64 seed
  let v := v ^^^ (v >>> 31)
  let v := v * 0x7FB5D329728EA185#64
  let v := v ^^^ (v >>> 27)
  v.toNat / 2 ^ 32 * n / 2 ^ 32

/-- Where a packet goes: ports of the logical switch, whether it crosses to the engines of the other package, and whether it goes to the
engines of this one; none where it has no route. -/
structure Routed where
  ports : List Nat
  cross : Bool
  engines : Bool
  deriving DecidableEq, Repr

/-- The trunk on which a cell of an input crosses to the other package, as an output; one that has crossed stays. -/
def State.trunkOut (s : State) (inp : Nat) : List Nat :=
  if s.grafted && !isTrunkIo inp then (s.crossTrunk inp).toList.map trunkIo else []

/-- A port of the logical switch as an output of this package. -/
def State.portOut (s : State) (inp q : Nat) : List Nat := if q / 128 = s.pkgNo then [q % 128] else s.trunkOut inp

/-- The ports of a RESULT's operation that the packet is for (R263, R535): every DST_MASK port of a result that its mask spreads, and of one
for a single member, unless it is a member's share of a REDUCE_SCATTER. -/
def State.resultPorts (s : State) (p : Packet) : List Nat :=
  match (if pget p Ph.type = ptResult then s.resultOp p else none) with
  | some o => if pget p Ph.mcast = 1 ∨ o.opcode ≠ 0x04 then o.dst else []
  | none => []

/-- A packet carries a result of an operation that has aborted here (R259). -/
def State.deadResult (s : State) (p : Packet) : Bool :=
  pget p Ph.type == ptResult
    && (s.job (pget p Ph.job)).aborted.contains ⟨pget p Ph.tag, pget p Ph.gen, pget p Ph.tensor, pget p Ph.tseq⟩

/-- The outputs of a packet: masks, this switch, or the routing table (R519). A result of an operation that has aborted here goes to no port
of this switch (R259). -/
def State.routeOf (s : State) (inp : Nat) (p : Packet) : Option Routed :=
  let v := s.route (pget p Ph.repoch)
  let mine := s.resultPorts p
  let taken := !isEdgeIo inp && pget p Ph.type == ptResult && (s.resultOp p).isSome
  let dst := pget p Ph.dest
  let ports (l : List Nat) : List Nat := dedup (l.filter (fun q => q != s.entryBit inp p))
  if pget p Ph.mcast = 1 then some ⟨ports (entryPorts (tget 0 v.masks (pget p Ph.mask)) ++ mine), false, taken⟩
  else if s.namesSelf (dst % 2 ^ 16) then
    if pget p Ph.toPart = 1 then
      if s.pkgOfCoord (dst % 2 ^ 16) = s.pkgNo then some ⟨ports mine, false, true⟩ else some ⟨ports mine, true, false⟩
    else some ⟨if s.deadResult p then [] else dedup (s.coordBit dst :: ports mine), false, taken⟩
  else
    let g := tget 0xFF v.table (dst % 2 ^ 16) % 256
    let e := tget 0 v.groups g
    let n := bget ⟨0, 5⟩ e
    if g = 0xFF ∨ n = 0 then none
    else
      let m := flowMember (pget p Ph.src) (pget p Ph.job) (pget p Ph.tag) (s.rget Reg.hashSeed).toNat n
      some ⟨dedup (bget ⟨9 * m + 5, 9⟩ e :: ports mine), false, taken⟩

/-! ## Drops (R520, R524, R530, R537, R541, R547) -/

/-- Cells of a packet dropped at its input, as telemetry counts them: policed ones by class (R560). -/
def State.telemDropped (s : State) (k : Pk) (n : Nat) (policed : Bool) : State :=
  if !policed then s.telemDrops k.inp n
  else if isPortIo k.inp && s.flag Reg.telemCtrl F.telemCtrl_enable then
    let key := 4 * k.inp + k.pkt.cls
    { s with xb := { s.xb with telem := { s.xb.telem with policed := tset 0 s.xb.telem.policed key (tget 0 s.xb.telem.policed key + n) } } }
  else s

/-- A packet is dropped whole: its cells are counted at its input, and its later cells follow it. -/
def State.dropPk (s : State) (k : Pk) (reg : Nat → Nat) (reason : Nat) : State :=
  let (s, k) := s.mirror k 2 reason 0x1FF k.hdr0
  let s := s.countAt reg k.inp k.n
  let s := s.telemDropped k k.n (reason == mrPoliced)
  let k := { k with routed := true, drop := if isPortIo k.inp then some (reg k.inp) else none }
  ((s.modPk k.pid (fun _ => k)).releaseFrom k.pid 0).settlePk k.pid

/-- Cells of a packet that go no further for one of its outputs are counted at a port, and its later cells will be (R524, R536, R547). -/
def State.dropPart (s : State) (k : Pk) (reg : Nat → Nat) (io out reason n : Nat) : State :=
  let (s, k) := s.mirror k 2 reason (s.ioCode out) k.hdr0
  let k := if isPortIo io && !k.closed then { k with gone := k.gone ++ [(io, reg io)] } else k
  ((s.modPk k.pid (fun _ => k)).countAt reg io n).telemDrops io n

/-- Cells of a copy are dropped at its output (R524, R536). -/
def State.dropCopyAt (s : State) (c : Copy) (reg : Nat → Nat) (reason : Nat) : State :=
  match s.pk c.pid with
  | none => s
  | some k => (s.dropPart k reg c.out c.out reason (k.n - c.left)).dropCopy c

/-- A member enters a list once. -/
def insertNew (k : Nat) (l : List Nat) : List Nat := if l.contains k then l else l ++ [k]

/-- The operation in flight, result or data, that a packet leaving for members belongs to (R535, R536). -/
def State.outOp (s : State) (p : Packet) : Option Op :=
  if pget p Ph.type = ptData then
    (s.findOp (pget p Ph.job) (pget p Ph.tag)).filter (fun o => o.stage != .aborting && o.epoch == pget p Ph.epoch && o.made p)
  else s.resultOp p

/-- The member at a port of a copy that a fence removes, by the operation's layout, or by layout 0 for a PUBLISH: a member counts once
(R208, R439, R536, R537). DEDUCED: assumption 31. -/
def State.nameFenced (s : State) (p : Packet) (port : Nat) : State :=
  match s.outOp p with
  | some o =>
    match s.bitMember ((s.job o.job).layout o.layoutNo) (s.bit port) with
    | some k => s.setOp { o with fenced := insertNew k o.fenced }
    | none => s
  | none =>
    match s.pubOf p with
    | some x =>
      match s.bitMember ((s.job (pget p Ph.job)).layout 0) (s.bit port) with
      | some k => s.modCtx x.ref (fun y => { y with fenced := insertNew k y.fenced })
      | none => s
    | none => s

/-- A copy whose port is fenced for its job and that has not begun to leave is removed (R536). -/
def State.fenceCopy (s : State) (c : Copy) : State :=
  match s.pk c.pid with
  | none => s
  | some k =>
    if isPortIo c.out && c.left == 0 && s.fenced (portCoord s.self c.out) (pget k.pkt Ph.job) then
      (s.nameFenced k.pkt c.out).dropCopyAt c Reg.fenceDrop mrFenceDrop
    else s

/-- Every copy under the fences of the tick. -/
def State.fenceSweep (s : State) : State := if s.fences.isEmpty then s else s.each s.xb.copies State.fenceCopy

/-- A port of the logical switch gives none of its slots to the input of a scheduled packet (R547). -/
def State.orphan (s : State) (inp cls q : Nat) : Bool := cls == 0 && s.bank.any (fun b => !s.ownsSlot b inp q)

/-- The copies of a packet in the crossbar. -/
def State.copiesOf (s : State) (pid : Nat) : List Copy := s.xb.copies.filter (fun c => c.pid == pid)

/-- A copy of a packet enters the queues of an output, or is dropped there: its output is down. A full count admits no copy (R553). -/
def State.addCopy (s : State) (k : Pk) (out : Nat) (ports : List Nat) : State :=
  if k.full then s.countFault k 0 2
  else
    let (id, s) := s.takeId
    let c : Copy := ⟨id, k.pid, out, ports, 0, 0, none, []⟩
    let d := s.depth out k.pkt.cls
    let s := s.holdPk k.pid
    let s : State := { s with xb := { s.xb with copies := s.xb.copies ++ [c] } }
    if !s.outLive out then s.dropCopyAt c Reg.downDrop mrDownDrop
    else (s.each (List.range k.n) (fun s i => s.enterCell c k.pkt.cls i (d + i))).fenceCopy c

/-- A packet's scheduled cells for a port that gives its input no slot are dropped as they come (R547). -/
def State.dropOrphan (s : State) (pid q n : Nat) : State :=
  match s.pk pid with
  | none => s
  | some k => s.dropPart k Reg.schedOrphan k.inp (if q / 128 = s.pkgNo then q % 128 else trunkIo 0) mrSchedOrphan n

/-! ## PACKET_ROUTE -/

/-- A job of the part is ACTIVE. -/
def State.jobRuns (s : State) (j : Nat) : Bool := s.jobIs j jobActive

/-- Checks of R520. -/
def State.badType (s : State) (inp : Nat) (p : Packet) : Bool :=
  let t := pget p Ph.type
  decide (5 < t) || ((t == ptContrib || t == ptXp || t == ptControl) && pget p Ph.toPart == 0)
    || ((t == ptXp || t == ptResult || t == ptControl) && isPortIo inp && s.fget (Reg.portFar inp) F.portFar_deviceKind != 0)

/-- The edge stop at which a packet leaves the crossbar for the engines: beside the first bed that its values or its record go to, and for
any other packet one of the part's choice. DESIGN CHOICE: assumption 47. -/
def State.stopOf (s : State) (p : Packet) : Nat :=
  let o := if pget p Ph.type = ptContrib ∨ pget p Ph.type = ptXp then s.findOp (pget p Ph.job) (pget p Ph.tag) else none
  let k := if pget p Ph.type = ptXp then numAt p.payload 0 4 else pget p Ph.offset / 256
  match o.bind (fun o => o.place[k]?) with
  | some b => edgeBeside (b % 272)
  | none => Config.bufferStop s.freeCtr % edgeStops

/-- LAST of an ALLGATHER's result is set on the packet with which the receivers here have every element, wherever it was made (R247, R265).
DEDUCED: assumption 17. -/
def State.markLast (s : State) (k : Pk) : State × Pk :=
  match (if pget k.pkt Ph.type = ptResult then s.resultOp k.pkt else none) with
  | some o =>
    if o.opcode = 0x05 ∧ 32 ≤ k.pkt.payload.length then
      let w := numAt k.pkt.payload 0 32
      let gone := o.gone + nbits w 136 16
      let h := bset (n := 256) ⟨152, 1⟩ (BitVec.ofNat 256 w) (if o.nelem ≤ gone then 1 else 0)
      (s.setOp { o with gone := gone }, { k with pkt := { k.pkt with payload := leBytes 32 h.toNat ++ k.pkt.payload.drop 32 } })
    else (s, k)
  | none => (s, k)

/-- A packet's copies go to the queues of its outputs (R519, R535, R547): to its ports of this package, over one trunk to those of the other,
and to an edge stop for the engines. The input then holds its buffers no more. -/
def State.place (s : State) (k : Pk) (r : Routed) : State :=
  let (bad, ports) := r.ports.partition (s.orphan k.inp k.pkt.cls)
  let near := ports.filter (fun q => q / 128 == s.pkgNo)
  let far := ports.filter (fun q => q / 128 != s.pkgNo)
  let trunk := if far.isEmpty && !r.cross then [] else s.trunkOut k.inp
  let stop := if r.engines then [edgeIo (s.stopOf k.pkt)] else []
  let outs := near.map (fun q => (q % 128, [q])) ++ trunk.map (fun t => (t, far)) ++ stop.map (fun e => (e, []))
  let s := s.bump.modPk k.pid (fun k => { k with engines := r.engines })
  let s := s.each bad (fun s q => s.dropOrphan k.pid q k.n)
  let s := s.each outs (fun s o => match s.pk k.pid with
    | some k => s.addCopy k o.1 o.2
    | none => s)
  ((s.modPk k.pid (fun k => { k with routed := true })).releaseFrom k.pid 0).settlePk k.pid

/-- An admitted packet chooses its outputs, or has no route (R519, R521). -/
def State.sendOn (s : State) (k : Pk) : State :=
  match s.routeOf k.inp k.pkt with
  | none => s.dropPk k Reg.noRoute mrNoRoute
  | some r =>
    let (s, k) := s.markLast k
    (s.modPk k.pid (fun _ => k)).place k r

/-- A packet's REPOCH is set as its first cell is generated or accepted: in packets of the part and of members (R525). -/
def State.stampEpoch (s : State) (k : Pk) : Pk :=
  if isEdgeIo k.inp || (isPortIo k.inp && s.fget (Reg.portFar k.inp) F.portFar_deviceKind != 0) then
    { k with pkt := { k.pkt with hdr := bset Ph.repoch k.pkt.hdr s.activeEpoch } }
  else k

/-- A CONTRIB or DATA packet of a job that is not ACTIVE (R520). A packet of TELEMETRY is of no job. DESIGN CHOICE: assumption 46. -/
def State.badJob (s : State) (p : Packet) : Bool :=
  (pget p Ph.type == ptContrib || (pget p Ph.type == ptData && pget p Ph.dataSub != 8)) && !s.jobRuns (pget p Ph.job)

/-- The first cell of a packet meets the checks of its input and chooses the outputs of the packet (R519). DEDUCED: assumptions 26 and 46. -/
def State.routePk (s : State) (k : Pk) : State :=
  let (s, k) := if isEdgeIo k.inp then (s, k) else s.mirror k 0 0 0x1FF k.hdr0
  let s := s.modPk k.pid (fun _ => k)
  let p := k.pkt
  let j := pget p Ph.job
  if s.flag Reg.routeStatus F.routeStatus_writing && pget p Ph.repoch != s.activeEpoch then s.dropPk k Reg.epochDrop mrEpochDrop
  else if s.badType k.inp p then s.dropPk k Reg.badType mrBadType
  else if s.badJob p then s.dropPk k Reg.badJob mrBadJob
  else if isPortIo k.inp && s.fenced (portCoord s.self k.inp) j then s.dropPk k Reg.fenceIn mrFenceIn
  else if s.polices k.inp p.cls && decide (tget 0 s.xb.police (4 * k.inp + p.cls) < cellTokens) then s.dropPk k Reg.policed mrPoliced
  else (s.spendPolice k.inp p.cls k.n).sendOn k

/-- A packet whose cells are all there enters the packet buffer of an input. -/
def State.newPk (s : State) (inp : Nat) (p : Packet) (lens : List Nat) : State × Pk :=
  let (id, s) := s.takeId
  let n := lens.length
  let s : State := { s with xb := { s.xb with nextId := s.xb.nextId + n } }
  let k : Pk := s.stampEpoch ⟨id, inp, p, lens, rangeFrom (id + 1) n, [], cellHeader (if n = 1 then 0 else 1) p.cls 0 0 (lens.headD 0) 0 0,
    true, false, false, 0, List.replicate n 1, 0, none, [], [], [], [], s.now⟩
  ({ s with xb := { s.xb with pkts := s.xb.pkts ++ [k] } }, k)

/-- An input that may bring a packet in: an open link, or Taproot. -/
def State.mayEnter (s : State) (inp : Nat) : Bool :=
  if isPortIo inp || isTrunkIo inp then s.linkOpen (ioLink inp) else inp == inTaproot

/-- Cells of a packet of the part's own, cut in its units after its own header (R507). -/
def ownCells (p : Packet) (unit : Nat) : List Nat := cellLens unit (ownHeader p) p.payload.length

/-- The edge stop at which a packet of `n` cells enters the crossbar: one whose die has that many free buffers in pool 0.
DESIGN CHOICE: assumption 47. -/
def State.entryStop (s : State) (n : Nat) : Option Nat :=
  (rotate (List.range edgeStops) (Config.bufferStop s.freeCtr)).find? (fun e => decide (n ≤ s.poolFree (edgeDie e) 0))

/-- A packet of the engines enters at an edge stop: its cells take buffers of pool 0, and the engine's own buffer is released (R551, R552). -/
def State.enterOwn (s : State) (e : Nat) (p : Packet) (unit : Nat) : State :=
  let n := (ownCells p unit).length
  let d := edgeDie e
  let (s, k) := ((s.setPoolFree d 0 (s.poolFree d 0 - n)).releaseBuffer p).newPk (edgeIo e) p (ownCells p unit)
  s.routePk k

/-- A packet that the engines have generated is routed, or waits where no die has room for its cells (R551). -/
def State.routeOwn (s : State) (p : Packet) (unit : Nat) : State :=
  let u : State := ({ s with xb := { s.xb with fromEngines := s.xb.fromEngines.erase (p, unit) } } : State).bump
  match s.entryStop (ownCells p unit).length with
  | none => u.poolQueue (s.diesFrom.headD 0) 0 (.packet p unit)
  | some e => u.enterOwn e p unit

/-- A packet that comes in whole at an input. -/
def State.routeWhole (s : State) (inp : Nat) (p : Packet) : State :=
  let (s, k) := s.newPk inp p (cellLens (s.unitIn p) (ownHeader p) p.payload.length)
  (s.countAt Reg.cellsIn inp k.n).routePk k

/-- PACKET_ROUTE: a packet that waits at an input is routed: one whose first cell a flit has brought, one of the part's engines,
or one that comes in whole; the row says whether a cell of it stands in the packet buffer with an uncorrectable error (R651). After a SHUTDOWN
nothing is routed (R638). DEDUCED: assumption 46. DESIGN CHOICE: assumption 47. -/
def execPacketRoute (inp : Nat) (p : Packet) (s : State) : Res :=
  s.act (!s.quiesced)
    (if inp = inEngines then
      match s.xb.fromEngines.find? (fun e => samePacket e.1 p && e.1.aborted == p.aborted) with
      | none => s
      | some e => s.routeOwn e.1 e.2
    else
      match s.xb.pkts.find? (fun k => k.inp == inp && !k.routed && k.pkt.hdr == p.hdr && k.pkt.cls == p.cls) with
      | some k => s.routePk { k with pkt := { k.pkt with bad := k.pkt.bad || p.bad } }
      | none => if s.mayEnter inp then s.routeWhole inp p else s)

/-! ## CELL_TIME (R516 to R518, R536, R539, R547 to R549, R552) -/

/-- A copy's next cell, with its class as matching sees it, the class it keeps, and its place in the queue. -/
structure Head where
  copy : Copy
  inp : Nat
  cls : Nat
  real : Nat
  ent : Nat
  deriving DecidableEq, Repr

/-- The class under which a cell is matched: without a schedule, and towards a trunk, scheduled cells go as UNSCHED_HIGH (R549). -/
def State.matchClass (s : State) (cls out : Nat) : Nat :=
  if cls = 0 ∧ (s.bank.isNone ∨ ¬isPortIo out) then 1 else cls

/-- An output can take another cell of a class: an edge stop always, unless the beds of the cell's values are full (R51); a link when none
that has crossed still waits for its slot (R548), and the class has credit (R486). -/
def State.outTakes (s : State) (c : Copy) (k : Pk) : Bool :=
  if isEdgeIo c.out then !s.bedsHold k
  else s.linkOpen (ioLink c.out) && tget 0 (s.link (ioLink c.out)).credit k.pkt.cls != 0
    && s.xb.copies.all (fun x => x.out != c.out || x.left == x.next)

/-- The next cells of all copies that their outputs can take. -/
def State.heads (s : State) : List Head :=
  s.xb.copies.filterMap (fun c =>
    match s.pk c.pid with
    | some k =>
      if c.next < k.n ∧ s.outTakes c k then some ⟨c, k.inp, s.matchClass k.pkt.cls c.out, k.pkt.cls, k.ents.getD c.next 0⟩ else none
    | none => none)

/-- The oldest cell of a queue. -/
def oldest (l : List Head) : Option Head :=
  l.foldl (fun b h => match b with
    | none => some h
    | some x => if h.ent < x.ent then some h else some x) none

/-- The head of the queue of an input, an output and a class: the class that the cells keep (R517, R549). -/
def headOf (l : List Head) (inp out cls : Nat) : Option Head :=
  oldest (l.filter (fun h => h.inp == inp && h.copy.out == out && h.real == cls))

/-- What has been matched in a cell time: heads with their outputs; an input that is matched sends one cell only. -/
structure Matching where
  done : List Head
  deriving DecidableEq, Repr

def Matching.outTaken (m : Matching) (out : Nat) : Bool := m.done.any (fun h => h.copy.out == out)

/-- The input is free, or sends this very cell (R516). -/
def Matching.inFree (m : Matching) (h : Head) : Bool :=
  m.done.all (fun x => x.inp != h.inp || (x.copy.pid == h.copy.pid && x.copy.next == h.copy.next))

def Matching.add (m : Matching) (h : Head) : Matching := ⟨m.done ++ [h]⟩

/-- The first member of a list at or after a pointer, in round-robin order. -/
def roundRobin (ptr : Nat) (l : List Nat) : Option Nat :=
  let least (l : List Nat) : Option Nat := l.foldl (fun b x => match b with
    | none => some x
    | some y => some (min x y)) none
  (least (l.filter (fun x => decide (ptr ≤ x)))).orElse (fun _ => least l)

/-- First phase: each output takes the scheduled cell of its slot's owner (R518, R547). -/
def State.scheduled (s : State) (l : List Head) (outs : List Nat) : Matching :=
  match s.bank with
  | none => ⟨[]⟩
  | some b =>
    outs.foldl (fun m out =>
      if !isPortIo out then m
      else
        let w := b.owner (b.slotAt s.now) (128 * s.pkgNo + out)
        match oldest (l.filter (fun h => h.copy.out == out && h.cls == 0 && s.isOwner w h.inp)) with
        | some h => if m.inFree h then m.add h else m
        | none => m) ⟨[]⟩

/-- Weights of classes 2 and 3 at an output (R539). -/
def State.weight (s : State) (out c : Nat) : Nat :=
  if isPortIo out then max 1 (bget ⟨8 * (c - 2), 8⟩ (s.qosReg (Reg.weights out))) else if c = 2 then 3 else 1

/-- Deficits of classes 2 and 3 before a grant: a new round where both request and have spent theirs (R539). -/
def State.deficits (s : State) (out : Nat) (has2 has3 : Bool) : Nat × Nat :=
  let d2 := tget 0 s.xb.deficit (4 * out + 2)
  let d3 := tget 0 s.xb.deficit (4 * out + 3)
  if has2 && has3 && d2 == 0 && d3 == 0 then (s.weight out 2, s.weight out 3) else (d2, d3)

/-- The class that an output grants among the requests (R518, R539). -/
def State.grantClass (s : State) (out : Nat) (cs : List Nat) : Nat :=
  if cs.contains 1 then 1
  else if cs.contains 2 && cs.contains 3 then (if (s.deficits out true true).1 != 0 then 2 else 3)
  else if cs.contains 2 then 2 else 3

/-- The requests at an output of inputs that are still free. -/
def State.cellRequests (s : State) (l : List Head) (m : Matching) (out : Nat) : List Head :=
  l.filter (fun h => h.copy.out == out && h.cls != 0 && s.shapeOk out h.real && m.done.all (fun x => x.inp != h.inp)
    && headOf l h.inp out h.real == some h)

/-- The grant of an output. -/
def State.grant (s : State) (l : List Head) (m : Matching) (out : Nat) : Option Head :=
  let r := s.cellRequests l m out
  if r.isEmpty then none
  else
    let c := s.grantClass out (r.map Head.cls)
    let r := r.filter (fun h => h.cls == c)
    match roundRobin (tget 0 s.xb.grantPtr out) (r.map Head.inp) with
    | some i => oldest (r.filter (fun h => h.inp == i))
    | none => none

/-- An accepted grant spends its class's deficit (R539). -/
def State.spendDeficit (s : State) (l : List Head) (m : Matching) (h : Head) : State :=
  if h.cls = 2 ∨ h.cls = 3 then
    let out := h.copy.out
    let cs := (s.cellRequests l m out).map Head.cls
    let (d2, d3) := s.deficits out (cs.contains 2) (cs.contains 3)
    let (d2, d3) := if h.cls = 2 then (d2 - 1, d3) else (d2, d3 - 1)
    { s with xb := { s.xb with deficit := tset 0 (tset 0 s.xb.deficit (4 * out + 2) d2) (4 * out + 3) d3 } }
  else s

/-- A class that has no requests at an output in this cell time loses its deficit there (R539). -/
def State.loseDeficits (s : State) (l : List Head) (m : Matching) : State :=
  { s with xb := { s.xb with deficit := s.xb.deficit.filter (fun e => (s.cellRequests l m (e.1 / 4)).any (fun h => h.cls == e.1 % 4)) } }

/-- One round of request, grant and accept (R518). -/
def State.matchRound (l : List Head) (outs : List Nat) (first : Bool) (x : State × Matching) : State × Matching :=
  let (s, m) := x
  let grants := (outs.filter (fun o => !m.outTaken o)).filterMap (s.grant l m)
  let inps := dedup (grants.map Head.inp)
  inps.foldl (fun (x : State × Matching) i =>
    let (s, m') := x
    let g := grants.filter (fun h => h.inp == i)
    let high := g.any (fun h => h.cls == 1)
    let g' := g.filter (fun h => !high || h.cls == 1)
    match roundRobin (tget 0 s.xb.acceptPtr i) (g'.map (fun h => h.copy.out)) with
    | none => (s, m')
    | some o =>
      match g'.find? (fun h => h.copy.out == o) with
      | none => (s, m')
      | some a =>
        let acc := g.filter (fun h => h.copy.pid == a.copy.pid && h.copy.next == a.copy.next)
        let s := s.each acc (fun s h => s.spendDeficit l m h)
        let s := if first then
            let gp := acc.foldl (fun t h => tset 0 t h.copy.out (i + 1)) s.xb.grantPtr
            { s with xb := { s.xb with grantPtr := gp, acceptPtr := tset 0 s.xb.acceptPtr i (o + 1) } }
          else s
        (s, acc.foldl Matching.add m')) (s, m)

/-- A cell has crossed to an edge stop: its buffer is released, and with the last one the packet is there (R519, R552, R554). -/
def State.reachStop (s : State) (c : Copy) : State :=
  let s := if c.next = 0 then s.mirrorAt c.pid 1 0 (s.ioCode c.out) else s
  let s := s.releaseCell c.pid c.next
  let c := { c with next := c.next + 1, left := c.next + 1 }
  match s.pk c.pid with
  | none => s
  | some k => if k.isLast (c.next - 1) then (s.atStop k).dropCopy c else (s.modCopy c.id (fun _ => c)).settlePk c.pid

/-- A matched cell crosses to its output: tokens are spent, and scheduled cells without a schedule are counted (R540, R549). -/
def State.crossCell (s : State) (h : Head) : State :=
  let s := s.spendShape h.copy.out h.real
  let s := if h.real = 0 ∧ s.bank.isNone then s.countAt Reg.schedNone h.copy.out 1 else s
  if isEdgeIo h.copy.out then s.reachStop h.copy else s.modCopy h.copy.id (fun c => { c with next := c.next + 1 })

/-- The matching of one cell time. DEDUCED: assumption 48. -/
def State.cellTime (s : State) : State :=
  let s := s.fenceSweep
  let l := s.heads
  let outs := dedup (l.map (fun h => h.copy.out))
  let m := s.scheduled l outs
  let s := s.loseDeficits l m
  let (s, m) := State.matchRound l outs false (State.matchRound l outs false (State.matchRound l outs true (s, m)))
  s.each m.done State.crossCell

/-- CELL_TIME: one ARITH cycle of the crossbar. -/
def execCellTime (s : State) : Res := s.act true s.cellTime

/-! ## POOL_WAIT_GRANT (R551) -/

/-- A die's edge stop: the first of its own. -/
def stopOfDie (die : Nat) : Nat := 17 * (die / 2 % 2) + 9 * (die % 2)

/-- A request that has waited has its buffer: a map is written, a record is written, and a packet goes on (R551). -/
def State.serve (s : State) (die pool : Nat) : PoolUse → State
  | .map seq m => s.sendMap m seq
  | .record a b => s.emit (.hostWrite a b)
  | .packet p unit => if pool = 0 then s.enterOwn (stopOfDie die) p unit else s.takeBuffer p unit die pool

/-- Buffers that a request needs: one of the engines' pools, and one of pool 0 for each cell. -/
def PoolUse.need (pool : Nat) : PoolUse → Nat
  | .packet p unit => if pool = 0 then (ownCells p unit).length else 1
  | _ => 1

/-- POOL_WAIT_GRANT: the pool has free buffers, and the oldest request that waits for it is served. -/
def execPoolWaitGrant (die pool : Nat) (s : State) : Res :=
  match s.xb.poolWait.find? (fun w => w.die == die && w.pool == pool) with
  | none => .next s
  | some w =>
    s.act (decide (w.use.need pool ≤ s.poolFree die pool))
      (({ s with xb := { s.xb with poolWait := s.xb.poolWait.erase w } } : State).serve die pool w.use)

end Sys2Proof.Machine
end

