-- ==== Sys2Proof/Machine/Links.lean ====
section
/-! DEFINITION. What a link does beside its flits: lanes, reservations, the loss of a link, and the split of a pair. -/
namespace Sys2Proof.Machine

/-! ## Ports and lanes (R465, R466, R484, R503) -/

/-- The configured width of a port, in lanes. -/
def State.portWidth (s : State) (p : Nat) : Nat := 2 ^ s.fget (Reg.portGroup p) F.portGroup_width

/-- The physical lanes of a port. -/
def State.portLanes (s : State) (p : Nat) : List Nat := rangeFrom (s.fget (Reg.portGroup p) F.portGroup_firstLane) (s.portWidth p)

/-- Cells that a link reserves for a class (R484); a trunk has 32 lanes, and Taproot 16. DESIGN CHOICE: assumption 78. -/
def State.reserved (s : State) (l cls : Nat) : Nat :=
  let dflt (lanes : Nat) : Nat := if cls < 2 then 256 * lanes else 128 * lanes
  if l < 128 then
    let v := s.fget (Reg.portCredit l) ⟨16 * cls, 16⟩
    if v = 0 then dflt (s.portWidth l) else v
  else dflt (s.slotLanes l)

/-- All cells that a port reserves. -/
def State.reservedAll (s : State) (p : Nat) : Nat := (List.range 4).foldl (fun n c => n + s.reserved p c) 0

/-- A field of PORT_STATUS set. -/
def State.pstat (s : State) (p : Nat) (f : Bits) (v : Nat) : State := s.fset (Reg.portStatus p) f v

/-- STAGE of a port's lanes (R503). -/
def State.stageLanes (s : State) (l : List Nat) (st : Nat) : State := s.each l (fun s x => s.fset (Reg.laneStatus x) F.laneStatus_stage st)

/-- STATE of a port, with STAGE of its lanes where the state is a stage. -/
def State.toStage (s : State) (p st : Nat) : State :=
  (s.pstat p F.portStatus_state st).stageLanes (s.portLanes p) (if st ≤ 5 then st else 0)

/-- Lanes no longer carry flits. -/
def State.idleLanes (s : State) (l : List Nat) : State :=
  s.each l (fun s x => s.fset (Reg.laneStatus x) F.laneStatus_inUse 0)

/-- The lanes of a port that carry flits. -/
def State.usedLanes (s : State) (p : Nat) : List Nat :=
  (s.portLanes p).filter (fun x => s.flag (Reg.laneStatus x) F.laneStatus_inUse)

/-- An entry about a physical lane of a port (R652). DEDUCED: assumption 51. -/
def State.logLane (s : State) (code lane : Nat) : State :=
  s.logUnit 0x03 code 1 (unitLane lane) (logDetail none none 0 lane)

/-- First lane of a port, which names the port in the trouble log. -/
def State.firstLane (s : State) (p : Nat) : Nat := s.fget (Reg.portGroup p) F.portGroup_firstLane

/-- The unit of R602 of the first lane of a link: lanes of Taproot from 512, of a trunk from 528. -/
def State.linkUnit (s : State) (l : Nat) : Nat := unitLane (expertLane l (if l < 128 then s.firstLane l else 0))

/-- A port whose link has no traffic of its own any more; cells that it took stay in its reservation until they leave the buffer (R479). -/
def Link.cleared (x : Link) : Link := { Link.down with held := x.held, holdFull := x.holdFull }

/-- Stage 2 begins: every lane of a link sends training frames, with its logical number (R475). DEDUCED: assumption 50. -/
def State.sendTraining (s : State) (l n : Nat) : State :=
  (s.each (List.range n) (fun s k => s.emit (.training l k (Config.ffeRequest s.freeCtr k)))).bump

/-! ## Packets cut short (R509, R664) -/

/-- A packet that cannot go on is closed with ABORTED: copies under way get one more cell, which the part makes itself, and the others are
dropped. -/
def State.closeAborted (s : State) (pid : Nat) : State :=
  match s.pk pid with
  | none => s
  | some k =>
    if k.closed then s
    else
      let s := s.each ((s.copiesOf pid).filter (fun c => c.next == 0)) State.dropCopy
      let (e, s) := s.takeId
      let depths := (s.copiesOf pid).map (fun c => (c, s.depth c.out k.pkt.cls))
      let s := s.modPk pid (fun k => { k with
        pkt := { k.pkt with aborted := true }, lens := k.lens ++ [0], ents := k.ents ++ [e], closed := true,
        refs := k.refs ++ [if k.routed then depths.length else 1], own := k.own + 1 })
      let s := s.each depths (fun s x => s.enterCell x.1 k.pkt.cls k.n x.2)
      let s := if depths.isEmpty && k.drop.isNone && k.routed then
          ((s.mirrorAt pid 2 mrDownDrop 0x1FF).countAt Reg.downDrop k.inp k.n).telemDrops k.inp k.n
        else s
      s.settlePk pid

/-- What a link holds is gone: its replay store, the packets open on it, and the copies that wait for it (R497, R504, R509, R524). -/
def State.dropLink (s : State) (l : Nat) : State :=
  let x := s.link l
  let s := if l < 128 then s.fadd (Reg.portDropped l) F.portDropped_count x.replay.length else s
  let s := s.setLink l { (if l < 128 then x.cleared else Link.down) with lanes := x.lanes }
  let s := s.each x.rxCtx (fun s e => s.closeAborted e.2)
  s.each (s.xb.copies.filter (fun c => c.out == linkIo l)) (fun s c => s.dropCopyAt { c with ctx := none } Reg.downDrop mrDownDrop)

/-! ## Time upstream (R373) -/

/-- Values of TIME_STATUS.STATE (R394). -/
def tsFree : Nat := 0
def tsAcquire : Nat := 1
def tsLocked : Nat := 2
def tsHoldover : Nat := 3

def State.timeState (s : State) : Nat := s.fget Reg.timeStatus F.timeStatus_state

/-- A part that counts freely corrects nothing, and no run of drifting samples goes on across it (R373, R378). -/
def TimeSt.free (t : TimeSt) : TimeSt :=
  { t with slewLeft := 0, stepWant := none, driftRun := 0, lastNet := none, gap := 0 }

/-- A follower begins anew: the offset of its stamps stays, and the 1,024 ticks since its latest slew run on (R366, R368, R373). -/
def TimeSt.anew (t : TimeSt) : TimeSt := { TimeSt.zero with sub := t.sub, slewWait := t.slewWait }

/-- The synchronisation state changes; leaving LOCKED is noted (R395, R651), and in FREE and HOLDOVER the counter counts freely and no step is
awaited (R373, R394). -/
def State.toTime (s : State) (st : Nat) : State :=
  let left := s.timeState == tsLocked && st != tsLocked
  let s := s.fset Reg.timeStatus F.timeStatus_state st
  let s := if st = tsFree ∨ st = tsHoldover then ({ s with time := s.time.free } : State).fset Reg.timeStatus F.timeStatus_stepWait 0 else s
  if left then (s.fset Reg.timeEvents F.timeEvents_lockLost 1).logEvent 0x01 2 0 0 (logDetail none none 0 0) none else s

/-- The follower's upstream link; over the cable it is there while the two packages are a pair (R590, R591). -/
def State.upLinks (s : State) : List Nat :=
  if s.flag Reg.timeCtrl F.timeCtrl_upGraft then (if s.grafted then [128, 129, 130, 131] else []) else [s.fget Reg.timeCtrl F.timeCtrl_upport]

/-- A LOCKED follower whose upstream is down enters HOLDOVER (R373). -/
def State.checkUpstream (s : State) : State :=
  if s.fget Reg.timeCtrl F.timeCtrl_role == 2 && s.timeState == tsLocked && s.upLinks.all (fun l => !s.linkLive l) then
    s.toTime tsHoldover
  else s

/-! ## The split of a pair (R589 to R591) -/

/-- Values of GRAFT_STATUS.STATE (R587). -/
def gsOff : Nat := 0
def gsSense : Nat := 1
def gsIdentify : Nat := 4
def gsMerge : Nat := 5
def gsPaired : Nat := 6
def gsRefused : Nat := 7
def gsSplit : Nat := 8

def State.graftState (s : State) : Nat := s.fget Reg.graftStatus F.graftStatus_state

/-- An operation has stripes, ports or an entry on the other package: its beds or the ports of its masks lie there, or its layout places
members there. -/
def State.spansPeer (s : State) (o : Op) : Bool :=
  let peer := s.fget Reg.graftPeer F.graftPeer_coord
  o.place.any (fun b => decide (272 ≤ b)) || (o.src ++ o.dst).any (fun q => q / 128 != s.pkgNo)
    || ((s.job o.job).layout o.layoutNo).any (fun r => r.package == peer)

/-- The master whose card lies on the other package (R583). -/
def State.lostMaster (s : State) : Nat := 1 - s.pkgNo

/-- Every resource of a master becomes free. -/
def State.freeOwned (s : State) (m : Nat) : State :=
  s.each (List.range 4102) (fun s r => if s.ownerOf r = m then s.setOwner r 3 else s)

/-- Beds in whose stripes or scratch slots a job holds accumulator slots. -/
def State.jobBeds (s : State) (j : Nat) : List Nat :=
  (s.ops.filter (fun o => o.job == j)).flatMap Op.place ++ (s.sieves.filter (fun r => s.ringJob r.ring == j)).flatMap SieveReq.place
    ++ (s.vy.toList.filter (fun p => p.job == j)).flatMap VyProg.place

/-- A job holds something on the other package: slots there, or store or cold-frame pages, which lie on both (R568, R590). -/
def State.jobSpans (s : State) (e : Nat × Job) : Bool :=
  e.2.get J.state == jobActive
    && ((s.jobBeds e.1).any (fun b => decide (272 ≤ b)) || e.2.get J.storeUsed != 0 || e.2.get J.coldUsed != 0 || s.ownerOf e.1 == s.lostMaster)

/-- The pair splits: the survivor goes on as a single package (R590, R591). -/
def State.split (s : State) : State :=
  let peer := s.fget Reg.graftPeer F.graftPeer_coord
  let s := s.each (s.ops.filter (fun o => o.live && s.spansPeer o)) (fun s o =>
    match s.findOp o.job o.tag with
    | some o => if o.live then s.abortOp o stPeerAbort .own (some (0xFFFF, peer)) else s
    | none => s)
  let s := s.each (s.jobs.filter s.jobSpans) (fun s e => s.endJob e.1)
  let s := s.freeOwned s.lostMaster
  let s := (s.fset Reg.partId F.partId_grafted 0).fset Reg.graftStatus F.graftStatus_state gsSplit
  let s := (s.fset Reg.graftEvents F.graftEvents_split 1).logEvent 0x04 3 3 0 (logDetail none none 0 0) none
  let s := (s.each (List.range 17) (fun s n => s.rset (Reg.bedMapPeer n) 0)).countBeds
  if s.pkgNo = 1 then s.toTime tsHoldover else s

/-! ## The loss of a link (R496, R497, R588, R667, R671) -/

def State.trunk (s : State) (d : Nat) : TrunkSt := tget TrunkSt.fresh s.graft.trunks d
def State.setTrunk (s : State) (d : Nat) (t : TrunkSt) : State :=
  { s with graft := { s.graft with trunks := tset TrunkSt.fresh s.graft.trunks d t } }

def State.toGraft (s : State) (st : Nat) : State := s.fset Reg.graftStatus F.graftStatus_state st

/-- GRAFT_STATUS.STATE follows the trunk that is furthest behind, until identification. -/
def State.showGraft (s : State) : State :=
  if s.graftState < gsMerge then s.toGraft ((List.range 4).foldl (fun m d => min m (s.trunk d).stage) gsIdentify) else s

/-- What a port's registers show once its link has dropped (R497, R503). -/
def State.showDrop (s : State) (p : Nat) : State :=
  let s := (s.pstat p F.portStatus_cause 10).toStage p psDetect
  let s := ((s.pstat p F.portStatus_activeWidth 0).pstat p F.portStatus_rate 0).pstat p F.portStatus_fullRateWait 0
  let s := s.idleLanes (s.portLanes p)
  (s.fset (Reg.portEvents p) F.portEvents_linkDown 1).fadd (Reg.portDowns p) F.portDowns_count 1

/-- A port's link is lost. -/
def State.losePort (s : State) (p : Nat) : State :=
  let full := (s.link p).retrain && s.fget (Reg.portStatus p) F.portStatus_rate == 2
  let used := s.usedLanes p
  let s := s.dropLink p
  let s := s.setLink p { s.link p with squelch := true, holdFull := full || (s.link p).holdFull, lanes := [] }
  let s := s.each used (fun s x => (s.fset (Reg.laneEvents x) F.laneEvents_lockLost 1).addPoints (unitLane x) 64)
  let s := s.showDrop p
  ((s.logLane 2 (s.firstLane p)).setLive (128 * s.pkgNo + p) false).checkUpstream

/-- The points of the lanes of a Graft trunk or of Taproot whose link is lost (R615). -/
def State.lossPoints (s : State) (l n : Nat) : State := s.each (List.range n) (fun s k => s.addPoints (unitLane (expertLane l k)) 64)

/-- Copies that have not begun to leave on a trunk that is down cross on the next one, with their bits unchanged (R588). -/
def State.moveCopies (s : State) (d : Nat) : State :=
  { s with xb := { s.xb with copies := s.xb.copies.map (fun c =>
    match (s.pk c.pid).bind (fun k => s.crossTrunk k.inp) with
    | some t => if c.out = trunkIo d ∧ c.left = 0 then { c with out := trunkIo t } else c
    | none => c) } }

/-- A trunk is lost: its open packets close, the others cross on another trunk, and with the last trunk the pair splits (R588, R589). -/
def State.loseTrunk (s : State) (d : Nat) : State :=
  let s := ((s.fset Reg.graftStatus ⟨8 + d, 1⟩ 0).moveCopies d).dropLink (128 + d)
  let s := ((s.setTrunk d { TrunkSt.fresh with stage := 2 }).sendTraining (128 + d) 32).showGraft
  let s := s.fset Reg.graftEvents F.graftEvents_trunkDown 1
  let s := (s.logUnit 0x04 1 1 (s.linkUnit (128 + d)) (logDetail none none 0 (32 * d))).lossPoints (128 + d) 32
  let s := s.checkUpstream
  if s.graftState = gsPaired ∧ (List.range 4).all (fun d => !s.trunkUp d) then s.split else s

/-- Host traffic through a card is held: the card notes it, and the part logs it (R401, R411, R651). -/
def State.tapGone (s : State) (card : Nat) : State :=
  (s.fset (Reg.tapEvents + cardSpan * card) F.tapEvents_linkDown 1).logEvent 0x05 1 1 0 (logDetail none none 0 0) none

/-- The link of a card is lost; the package's own starts again at stage 1 (R400, R497). -/
def State.loseTap (s : State) (card : Nat) : State :=
  let s := if card = s.pkgNo then
      (({ s with host := { s.host with tapStage := psDetect } } : State).setLink tapLink Link.down).lossPoints tapLink 16
    else s
  (s.fset (Reg.tapStatus + cardSpan * card) F.tapStatus_linkUp 0).tapGone card

/-- DEDUCED: assumptions 49 and 51. -/
def State.loseLink (s : State) (l : Nat) : State :=
  if l < 128 then s.losePort l else if l = tapLink then s.loseTap s.pkgNo else s.loseTrunk (l - 128)

/-- A retrain starts: the port leaves ACTIVE for stage 2 and keeps what it holds (R493, R494). -/
def State.startRetrain (s : State) (p rate : Nat) : State :=
  let s := s.setLink p { (s.link p).restart with retrain := true, cap := none, nakSeq := none, nakRun := 0, enc := [] }
  ((s.sendTraining p (s.link p).lanes.length).toStage p psTrain).pstat p F.portStatus_rate rate

end Sys2Proof.Machine
end

