-- ==== Sys2Proof/Machine/Graft.lean ====
section
/-! DEFINITION. The forming of a pair: sense, training, lock, identification and merge. -/
namespace Sys2Proof.Machine

/-! ## Stages (R574, R575) -/

/-- The stages of pairing go on; a package whose INIT_DONE is 1 gets as far as identification, which refuses it as BUSY (R574, R576, R592).
ENABLE no longer stops a merge that has begun. -/
def State.pairing (s : State) : Bool :=
  (s.flag Reg.graftCtrl F.graftCtrl_enable || s.graftState == gsMerge) && decide (gsSense ≤ s.graftState ∧ s.graftState ≤ gsMerge)

/-- The trunks train and lock: while a pair forms, and a lost one again in a pair or beside a survivor of one (R496, R588, R592). -/
def State.trunksRun (s : State) : Bool := s.pairing || s.graftState == gsPaired || s.graftState == gsSplit

/-- Pairing is refused (R576, R578). -/
def State.refusePair (s : State) (cause : Nat) : State :=
  let s := { s with graft := GraftSt.zero }
  let s := (s.toGraft gsRefused).fset Reg.graftStatus F.graftStatus_cause cause
  let s := (s.fset Reg.graftStatus F.graftStatus_trunksUp 0).fset Reg.graftEvents F.graftEvents_refused 1
  let s := s.each (List.range 4) (fun s d => s.setLink (128 + d) Link.down)
  s.logEvent 0x04 2 1 528 (logDetail none none 0 0) (some 528)

/-! ## GRAFT_SENSE (R571, R576, R587, R683, R684) -/

/-- What a contact's voltage in mV shows: 0 Ω, 1 kΩ, open, or none of these. -/
def contactOf (mv : Nat) : Nat :=
  if mv < 100 then 0 else if 800 ≤ mv ∧ mv ≤ 1200 then 1 else if 1600 < mv then 2 else 3

/-- What the contacts of a trunk show: 0 no cable, 1 end A, 2 end B, 3 reversed, 4 outside every code. DEDUCED: assumption 52. -/
def senseOf (sa sb : Nat) : Nat :=
  match contactOf sa, contactOf sb with
  | 3, _ => 4
  | _, 3 => 4
  | 2, _ => 0
  | _, 2 => 0
  | 0, 0 => 1
  | 1, 0 => 2
  | _, _ => 3

/-- GRAFT_SENSE: the contacts of the four trunks are read, GRAFT_SA and GRAFT_SB of trunk 0 first. DEDUCED: assumption 52. -/
def execGraftSense (volts : List Nat) (s : State) : Res :=
  s.act (s.pairing && s.graftState == gsSense)
    (let c (d : Nat) : Nat := senseOf (volts.getD (2 * d) 1800) (volts.getD (2 * d + 1) 1800)
     let new := (List.range 4).filter (fun d => c d == 4 && (s.trunk d).sense != 4)
     let s := s.each (List.range 4) (fun s d => s.setTrunk d { s.trunk d with sense := c d })
     let s := if (List.range 4).any (fun d => c d == 4) then s.fset Reg.graftEvents F.graftEvents_senseFault 1 else s
     let s := s.each new (fun s d => s.logUnit 0x04 4 1 (528 + 32 * d) (logDetail none none 0 (32 * d)))
     let l := (List.range 4).map c
     if l.contains 3 then s.refusePair 1
     else if l.contains 1 && l.contains 2 then s.refusePair 2
     else if l.all (· == 1) || l.all (· == 2) then
       let s := s.fset Reg.graftStatus F.graftStatus_endB (if l.all (· == 2) then 1 else 0)
       (s.each (List.range 4) (fun s d => (s.setTrunk d { s.trunk d with stage := 2 }).sendTraining (128 + d) 32)).showGraft
     else s)

/-! ## Training and lock of a trunk (R570, R575) -/

/-- A timeout of the forming of a pair: the eighth in a row refuses it (R575). DEDUCED: assumption 52. -/
def State.pairTimeout (s : State) : State :=
  let n := s.graft.tries + 1
  if 8 ≤ n then s.refusePair 9 else { s with graft := { s.graft with tries := n } }

/-- The pair starts again at stage 4 (R575). -/
def State.pairAgain (s : State) : State := s.each (List.range 4) (fun s d => s.setTrunk d { s.trunk d with pair := none, told := false })

/-- A trunk starts again at stage 2. -/
def State.trunkAgain (s : State) (d : Nat) : State :=
  (({ s with links := tset Link.down s.links (128 + d) Link.down } : State).setTrunk d { s.trunk d with stage := 2, pair := none, told := false }).sendTraining (128 + d) 32 |>.fset
    Reg.graftStatus ⟨8 + d, 1⟩ 0 |>.showGraft

/-- A trunk's lanes hold eye margin. -/
def State.trunkTrained (s : State) (d : Nat) : State :=
  ((s.setLink (128 + d) { Link.down with lanes := rangeFrom (32 * d) 32 }).setTrunk d { s.trunk d with stage := 3 }).showGraft

/-- The `n` lanes of a trunk or of Taproot hold lock: `n` logical numbers of one trunk number, aligned within 64 UI (R474, R570). -/
def trunkMarkersOk (n d : Nat) (l : List Nat) : Bool :=
  l.length == n && (List.range n).all (fun n => l.any (fun m => m % 32 == n)) && l.all (fun m => m / 32 % 32 == d)
    && l.all (fun m => m / 2 ^ 10 % 2 ^ 16 == l.headD 0 / 2 ^ 10 % 2 ^ 16)
    && decide (l.foldl (fun b m => max b (m / 2 ^ 40)) 0 ≤ 64 + l.foldl (fun b m => min b (m / 2 ^ 40)) (l.headD 0 / 2 ^ 40))

/-- A trunk becomes active, with credit for the reservations of its far end (R484, R570). -/
def State.trunkLocked (s : State) (d : Nat) : State :=
  let credit : Tab Nat := (List.range 4).map (fun c => (c, s.reserved (128 + d) c))
  let s := s.setLink (128 + d) { Link.down with credit := credit, lanes := rangeFrom (32 * d) 32, enc := (s.link (128 + d)).enc }
  ((s.fset Reg.graftStatus ⟨8 + d, 1⟩ 1).setTrunk d { s.trunk d with stage := 4 }).showGraft

/-! ## Identification and merge (R573, R576, R577, R583) -/

/-- Fields of a PAIR payload. -/
def pairField (b : Bytes) (lo w : Nat) : Nat := nbits (ofLe (b.take 256)) lo w

/-- Either end has work that a merge would touch (R576). -/
def State.pairBusy (s : State) (b : Bytes) : Bool :=
  pairField b 37 1 == 1 || pairField b 38 1 == 1 || pairField b 39 1 == 1 || s.flag Reg.service F.service_initDone
    || s.jobs.any (fun e => e.2.get J.state != jobFree)
    || (List.range 128).any (fun p => s.flag (Reg.portCtrl p) F.portCtrl_enable)

/-- The first check of R576 that a peer's payload fails beside those of the other trunks. -/
def State.pairCheck (s : State) (l : List Bytes) (b : Bytes) : Option Nat :=
  if l.any (fun x => pairField x 64 64 != pairField b 64 64) then some 3
  else if pairField b 16 2 != s.fget Reg.partId F.partId_grade then some 4
  else if pairField b 18 16 != (s.rget Reg.stepping).toNat % 2 ^ 16 then some 5
  else if pairField b 34 3 != s.fget Reg.lifecycleReg F.lifecycleReg_state then some 6
  else if pairField b 128 256 != ofLe s.fwDigest then some 7
  else if s.pairBusy b then some 8
  else none

/-- GRAFT_PEER takes the peer's identity (R587). -/
def State.setPeer (s : State) (b : Bytes) : State :=
  let a := Reg.graftPeer
  let s := (s.fset a F.graftPeer_coord (pairField b 44 16)).fset a F.graftPeer_grade (pairField b 16 2)
  (s.fset a F.graftPeer_stepping (pairField b 18 16)).fset a F.graftPeer_lifecycle (pairField b 34 3)

/-- Owners of a pair (R583): `card0` and `card1` say whose Taproot link is up. Without a card on package 0, master 1 has all that master 0
would have. -/
def State.pairOwners (s : State) (card0 card1 : Bool) : State :=
  let first := if card0 then 0 else 1
  let second := if card1 then 1 else first
  s.each (List.range 4102) (fun s r => s.setOwner r (if r = resPorts + 1 ∨ r = resTime + 1 then second else first))

/-- A register of a card: it exists once for each. -/
def isCardReg (a : Nat) : Bool := (findRow (a % cardSpan)).any (·.card)

/-- The two cards change places: the card of package 1 of a pair is card 1, that of a single package card 0 (R579). -/
def State.swapCards (s : State) : State :=
  let l := s.regs.filter (fun e => isCardReg e.1)
  let s := s.each l (fun s e => s.rset e.1 (regReset e.1))
  s.each l (fun s e => s.rset (if e.1 < cardSpan then e.1 + cardSpan else e.1 - cardSpan) e.2)

/-- The states of the other package's last `n` beds, `q` of them active: which beds those are is free (R14). -/
def peerBeds : Nat → Nat → List Nat
  | 0, _ => []
  | n + 1, q =>
    let b := 271 - n
    if n < q ∨ q ≠ 0 ∧ Config.peerBed b % 4 = 0 then 0 :: peerBeds n (q - 1)
    else (1 + Config.peerBed (272 + b) % 3) :: peerBeds n q

/-- BED_MAP shows the beds of the other package, with the active beds of its grade (R1, R14, R406). DESIGN CHOICE: assumption 7. -/
def State.showPeerBeds (s : State) : State :=
  let l := peerBeds 272 (if s.fget Reg.partId F.partId_grade = 0 then 256 else 240)
  s.each (List.range 272) (fun s i => s.fset (Reg.bedMapPeer (i / 16)) ⟨2 * (i % 16), 2⟩ (l.getD i 0))

/-- The merge begins: package numbers, cards, coordinates, owners, and package 1 as a follower over the cable (R573, R575, R577, R579,
R583). UPPORT, which the cable takes no notice of, becomes 0 (R377). DESIGN CHOICE: assumptions 7 and 70. -/
def State.merge (s : State) (b : Bytes) : State :=
  let n := s.fget Reg.graftStatus F.graftStatus_endB
  let peerUp := Config.peerCard s.freeCtr
  let ownUp := s.linkUp 0
  let s := if n = 1 then s.bump.swapCards else s.bump
  let s := s.fset (Reg.tapStatus + cardSpan * (1 - n)) F.tapStatus_linkUp (if peerUp then 1 else 0)
  let s : State := { s with graft := { s.graft with coord := s.self } }
  let base := if n = 1 then pairField b 44 16 else s.self
  let s := (s.fset Reg.selfCoord F.selfCoord_coord base).fset Reg.selfCoord ⟨12, 1⟩ n
  let s := (s.fset Reg.graftPeer F.graftPeer_coord base).fset Reg.graftPeer ⟨12, 1⟩ (1 - n)
  let s := (s.fset Reg.partId F.partId_package n).fset Reg.partId F.partId_grafted 1
  let s := s.fset Reg.graftStatus F.graftStatus_peerCard (if peerUp then 1 else 0)
  let s := if n = 0 then s.pairOwners ownUp peerUp else s.pairOwners peerUp ownUp
  let s := s.showPeerBeds.countBeds.toGraft gsMerge
  if n = 1 then
    let s : State := { s with time := s.time.anew }
    (((s.fset Reg.timeCtrl F.timeCtrl_role 2).fset Reg.timeCtrl F.timeCtrl_upport 0).fset Reg.timeCtrl F.timeCtrl_upGraft 1).toTime
      tsAcquire
  else s

/-- A merge undone: single packages again, at stage 4 (R575, R583). What PACKAGE and SELF_COORD read then the rules do not say: the model
takes both back to what they were before the merge. DESIGN CHOICE: assumption 70. -/
def State.unmerge (s : State) : State :=
  let n := s.pkgNo
  let s := s.rset (Reg.tapStatus + cardSpan * (1 - n)) 0
  let s := if n = 1 then s.swapCards else s
  let s := (s.fset Reg.partId F.partId_grafted 0).toGraft gsIdentify
  let s := (s.fset Reg.partId F.partId_package 0).fset Reg.selfCoord F.selfCoord_coord s.graft.coord
  let s := s.each (List.range 4102) (fun s r => s.setOwner r 0)
  let s := (s.each (List.range 17) (fun s n => s.rset (Reg.bedMapPeer n) 0)).countBeds
  let s := s.pairAgain.showGraft
  if n = 1 then
    ((s.fset Reg.timeCtrl F.timeCtrl_role 0).fset Reg.timeCtrl F.timeCtrl_upGraft 0).toTime tsFree
  else s

/-- The checks of stage 4 run on what has arrived; it ends once both ends have reported PAIR_SEEN on every trunk (R577). -/
def State.judgePair (s : State) : State :=
  let l := (List.range 4).filterMap (fun d => (s.trunk d).pair)
  match l.findSome? (s.pairCheck l) with
  | some c => s.refusePair c
  | none =>
    if l.length = 4 && l.all (fun b => pairField b 43 1 == 1) && (List.range 4).all (fun d => (s.trunk d).told) then s.merge (l.headD [])
    else s

/-- The part has sent a PAIR flit on a trunk, with PAIR_SEEN as given (R577). -/
def State.pairSent (s : State) (d : Nat) (seen : Bool) : State :=
  if seen && s.graftState == gsIdentify then (s.setTrunk d { s.trunk d with told := true }).judgePair else s

/-- PAIR_FLIT: the peer's identity arrives on a trunk; the checks run, and the merge begins where nothing is left to be reported.
DEDUCED: assumption 52. -/
def execPairFlit (trunk : Nat) (pair : Bytes) (s : State) : Res :=
  s.act (s.pairing && decide (trunk < 4) && s.graftState == gsIdentify)
    (if pairField pair 0 16 != 1 then s.pairAgain.pairTimeout
     else ((s.setTrunk trunk { s.trunk trunk with pair := some pair }).setPeer pair).judgePair)

/-- PAIRING_TIMEOUT: a trunk, or from stage 4 on the pair, has not left its stage in time (R575). A trunk beside a pair or a survivor
starts again, and refuses nothing. DEDUCED: assumption 52. -/
def execPairingTimeout (trunk : Nat) (s : State) : Res :=
  let st := s.graftState
  let own := (s.trunk trunk).stage
  let late := decide (trunk < 4) && (own == 2 || own == 3)
  s.act (s.trunksRun && (late || s.pairing && decide (gsIdentify ≤ st)))
    (if !s.pairing then s.trunkAgain trunk
     else (if st = gsMerge then s.unmerge else if st = gsIdentify then s.pairAgain else s.trunkAgain trunk).pairTimeout)

/-- MERGE_COMPLETE: the merge ends with package 1 LOCKED over a trunk that is up, and the packages run as one logical switch (R575). -/
def execMergeComplete (s : State) : Res :=
  s.act (s.pairing && (List.range 4).any s.trunkUp && !s.flag Reg.service F.service_initDone && s.graftState == gsMerge && (s.pkgNo == 0 || s.timeState == tsLocked))
    ({ s.toGraft gsPaired with graft := { s.graft with tries := 0 } })

end Sys2Proof.Machine
end

