-- ==== Sys2Proof/Machine/Registers.lean ====
section
/-! DEFINITION. Register accesses: sizes and addresses, access codes, owners, the expert gate and the fields that take
writes only in some states. -/
namespace Sys2Proof.Machine

/-! ## Addresses -/

/-- An access of a good size and alignment (R404). -/
def goodAccess (addr size : Nat) : Bool := (size == 4 || size == 8) && addr % size == 0

/-- The expert window (R403, R461). -/
def inExpertWindow (a : Nat) : Bool := decide (0x800000 ≤ a ∧ a < 0x4000000)

/-- The regions of which each package has a copy: where package 0's and package 1's copy start, and the size of one (R405, R502, R563,
R597, R699). -/
def copyRegions : List (Nat × Nat × Nat) :=
  [(0x400000, 0x480000, 0x80000), (0x500000, 0x580000, 0x80000), (0x600000, 0x680000, 0x80000), (0x700000, 0x780000, 0x80000),
    (0x800000, 0x2400000, 0x1C00000)]

/-- The package in whose copy of a region an address lies, and the address of the same place in package 0's copy. -/
def copyOf (a : Nat) : Option (Nat × Nat) :=
  (copyRegions.find? (fun r => decide (r.1 ≤ a ∧ a < r.1 + r.2.2 ∨ r.2.1 ≤ a ∧ a < r.2.1 + r.2.2))).map (fun r =>
    if a < r.1 + r.2.2 then (0, a) else (1, a - r.2.1 + r.1))

/-- The job whose entry holds an address (R447). -/
def jobAddr (a : Nat) : Option Nat := if 0x300000 ≤ a ∧ a < 0x380000 then some ((a - 0x300000) / 128) else none

/-- The 4-byte halves of an access, with their values. -/
def halvesOf (addr size : Nat) (value : Word64) : List (Nat × Nat) :=
  if size = 8 then [(addr, value.toNat % 2 ^ 32), (addr + 4, value.toNat / 2 ^ 32)] else [(addr, value.toNat % 2 ^ 32)]

/-- The register that holds a 4-byte half: its address and row. -/
def regAt (a : Nat) : Option (Nat × RegRow) :=
  match findRow a with
  | some r => some (a, r)
  | none =>
    match findRow (a - 4) with
    | some r => if r.width = 64 ∧ 4 ≤ a then some (a - 4, r) else none
    | none => none

/-- The half lies on an assigned register. -/
def assigned (a : Nat) : Bool := (jobAddr a).isSome || (regAt a).isSome

/-- The access reaches the expert level (R461), in either package's copy. -/
def isExpert (a : Nat) : Bool := inExpertWindow a || (regAt (((copyOf a).map (·.2)).getD a)).any (fun r => r.2.expert)

/-- What an address of the register space reaches: a register that this package holds, under the address at which the model keeps it; a
place of the other package's copy; a place that reads as 0; or nothing. -/
inductive RegPlace where
  | own (a : Nat) | peer (a : Nat) | zero | nothing
  deriving DecidableEq, Repr

/-- BED_MAP shows package 0's beds at 0x100 and package 1's at 0x180; the model keeps the package's own at 0x100 (R406). -/
def State.bedMapAt (s : State) (a : Nat) : Nat :=
  if s.pkgNo = 0 then a
  else if 0x100 ≤ a ∧ a < 0x144 then a + 0x80
  else if 0x180 ≤ a ∧ a < 0x1C4 then a - 0x80
  else a

/-- Where an address leads. Each package answers in its own copy of a region, and a single package that was never of a pair has no other
copy (R405); the copies of a lost package read as 0 (R590); the MBX_ registers lie in package 0's copy alone (R597). -/
def State.locate (s : State) (a : Nat) : RegPlace :=
  match copyOf a with
  | none => .own (s.bedMapAt a)
  | some (n, c) =>
    let mbx := (regAt c).any (fun r => r.2.card)
    if mbx ∧ n = 0 then .own c
    else if n ≠ s.pkgNo ∧ !s.grafted then (if s.fget Reg.graftStatus F.graftStatus_state = 8 then .zero else .nothing)
    else if mbx then .zero
    else if n = s.pkgNo then .own c
    else .peer c

/-- Where an access of a master leads: GRAFT_STATUS, GRAFT_EVENTS and GRAFT_PEER describe the package through whose card they are
accessed (R587). -/
def State.leads (s : State) (m : Master) (a : Nat) : RegPlace :=
  if s.grafted && masterCard m != s.pkgNo && decide (Reg.graftStatus ≤ a ∧ a < Reg.selfCoord ∨ Reg.graftPeer ≤ a ∧ a < Reg.graftPeer + 8)
  then .peer a else s.locate a

/-! ## Owners (R580) -/

/-- The resource to which a register of a package belongs; the runs staged for a layout belong to the job that LAYOUT_SEL names. -/
def State.regRes (s : State) (pkg a : Nat) (r : RegRow) : Option Nat :=
  match r.own with
  | .none => none
  | .jobRing => some (s.ringJob (if a < 0x200000 then (a - 0x100000) / 64 else (a - 0x200000) / 8))
  | .layout => some (s.fget Reg.layoutSel F.layoutSel_jobId)
  | .fabric => some resFabric
  | .ports => some (resPorts + pkg)
  | .time => some (resTime + pkg)
  | .graft => some resGraft

def State.mayWrite (s : State) (m : Master) (pkg a : Nat) (r : RegRow) : Bool :=
  match s.regRes pkg a r with
  | some res => s.owns m res
  | none => true

/-! ## Access codes (R27, R705) -/

/-- The bits of a row's fields of one access code. -/
def RegRow.mask (r : RegRow) (p : Acc → Bool) : Word64 :=
  r.fields.foldl (fun v f => if p f.acc then v ||| BitVec.ofNat 64 (bmask f.bits) else v) 0

def isRw : Acc → Bool
  | .rw => true
  | _ => false
def isW1c : Acc → Bool
  | .w1c => true
  | _ => false

/-- A register after a write of one half: RW fields take the bits within it, W1C fields lose the bits written as 1. -/
def RegRow.write (r : RegRow) (hi : Bool) (v : Nat) (old : Word64) : Word64 :=
  let half : Word64 := if hi then 0xFFFFFFFF00000000 else 0xFFFFFFFF
  let w := BitVec.ofNat 64 (if hi then v * 2 ^ 32 else v)
  let rw := r.mask isRw &&& half
  let wc := r.mask isW1c &&& half
  ((old &&& ~~~rw) ||| (w &&& rw)) &&& ~~~(w &&& wc)

/-! ## Registers that take writes only in some states -/

/-- A job is ACTIVE. -/
def State.anyActive (s : State) : Bool := s.jobs.any (fun e => e.2.get J.state == jobActive)

/-- The write of a register is ignored in the state the part is in (R416, R503, R564, R565, R587). -/
def State.writeHeld (s : State) (a : Nat) (r : RegRow) : Bool :=
  if r.base = Reg.cmdBase 0 ∨ r.base = Reg.cplBase 0 then s.ringState ((a - 0x100000) / 64) != ringIdle
  else if r.base = Reg.hashSeed then s.anyActive
  else if r.base = Reg.selfCoord then s.flag Reg.service F.service_initDone
  else if r.base = Reg.portGroup 0 ∨ r.base = Reg.portCredit 0 then
    s.flag (Reg.portCtrl ((a - 0x500000) / 64)) F.portCtrl_enable
  else if r.base = Reg.mirFilter 0 then s.flag (Reg.mirCtrl ((a - 0x400400) / 64)) F.mirCtrl_enable
  else false

/-- The vector to whose entry of the MSI-X table an address belongs. -/
def msixVector (a : Nat) : Nat := (a % cardSpan - Reg.msixCtrl 0) / 16

/-- What follows a write that took effect. -/
def State.afterWrite (s : State) (m : Master) (a : Nat) (r : RegRow) : State :=
  if r.base = Reg.layoutSel then s.layoutShow
  else if r.base = Reg.ringIrq 0 then s.ringDue ((a - Reg.ringIrq 0) / 64)
  else if r.base = Reg.msixCtrl 0 then (if s.flag a F.msixCtrl_mask then s else s.unmask (a / cardSpan) (msixVector a))
  else if r.base = Reg.selfCoord ∧ s.flag Reg.partId F.partId_grafted then s.fset a ⟨12, 1⟩ s.pkgNo
  else if r.base = Reg.sliceCtrl ∨ r.base = Reg.dbgClkCtrl then
    s.logEvent 0x0C 6 0 0 (masterNum m) none
  else if r.base = Reg.graftCtrl then
    let st := s.fget Reg.graftStatus F.graftStatus_state
    if s.flag Reg.graftCtrl F.graftCtrl_enable then
      (if st = 0 then s.fset Reg.graftStatus F.graftStatus_state 1 else s)
    else if st ≤ 4 then ({ s with graft := GraftSt.zero } : State).fset Reg.graftStatus F.graftStatus_state 0
    else s
  else s

/-- The BANK and LOG2_SIZE of a running mirror session, and the configuration of a ring that is not IDLE, stay (R416, R565). -/
def State.keepFields (s : State) (a : Nat) (r : RegRow) (new : Word64) : Word64 :=
  let old := s.rget a
  let keep (f : Bits) (w : Word64) : Word64 := bset f w (bget f old)
  if r.base = Reg.mirCtrl 0 ∧ bflag F.mirCtrl_enable old then keep F.mirCtrl_bank (keep F.mirCtrl_log2Size new)
  else if r.base = Reg.ringCtrl 0 ∧ s.ringState ((a - 0x100000) / 64) ≠ ringIdle then keep ⟨1, 25⟩ new
  else new

/-- A configuration write to a ring that would change what it may not (R416). -/
def State.cfgIgnored (s : State) (a : Nat) (r : RegRow) (want got : Word64) : State :=
  if (r.base = Reg.cmdBase 0 ∨ r.base = Reg.cplBase 0 ∨ r.base = Reg.ringCtrl 0) ∧ want ≠ got then
    s.fset (Reg.ringStatus ((a - 0x100000) / 64)) F.ringStatus_cfgIgnored 1
  else s

/-! ## Job entries (R447, R449) -/

/-- Fields of a job entry that take writes in any state, and those that take them only while the job is FREE or REFUSED. -/
def jobAnyFields : List Bits := [J.margin, J.slotBudget, J.storeBudget, J.coldBudget, J.ringBudget]
def jobFreeFields : List Bits :=
  [J.anchorInit, J.key, J.lsInterval, J.lsMin, J.lsMax, J.lsInit, J.eventBase, J.eventCount]

/-- The bits of some fields. -/
def fieldMask (l : List Bits) : Nat := l.foldl (fun v f => v + bmask f) 0

/-- A job entry after a write of one of its 4-byte words. -/
def Job.writeWord (b : Job) (word v : Nat) : Job :=
  let st := b.get J.state
  let free := st == jobFree || st == jobRefused
  let m := BitVec.ofNat 1024 ((2 ^ 32 - 1) * 2 ^ (32 * word))
    &&& BitVec.ofNat 1024 (fieldMask (if free then jobAnyFields ++ jobFreeFields else jobAnyFields))
  { b with entry := (b.entry &&& ~~~m) ||| (BitVec.ofNat 1024 (v * 2 ^ (32 * word)) &&& m) }

/-! ## REGISTER_WRITE -/

/-- A register of R565 that is written keeps acting with its old value until the tick ends. -/
def State.keepQos (s : State) (a : Nat) : State :=
  if decide (0x401000 ≤ a ∧ a < 0x403000) && (tfind s.xb.qos a).isNone then
    { s with xb := { s.xb with qos := tput s.xb.qos a (s.rget a) } }
  else s

/-- One half of a write takes effect on the register that holds it. DESIGN CHOICE: assumption 28. -/
def State.writeReg (s : State) (m : Master) (a : Nat) (r : RegRow) (half v : Nat) : State :=
  if !s.mayWrite m s.pkgNo a r then s.notOwner m
  else
    let c := if r.card then cardReg m a else a
    let want := r.write (decide (half ≠ a)) v (s.rget c)
    let new := if s.writeHeld a r then s.rget c else s.keepFields c r want
    let s := s.cfgIgnored a r want new
    if s.writeHeld a r then s else ((s.keepQos a).rset c new).afterWrite m c r

/-- One half of a write to a place of this package: a job entry, a register, or unassigned. -/
def State.writeOwn (s : State) (m : Master) (half v : Nat) : State :=
  match jobAddr half with
  | some j =>
    if !s.owns m j then s.notOwner m else s.modJob j (fun b => b.writeWord (half % 128 / 4) v)
  | none =>
    match regAt half with
    | some (a, r) => s.writeReg m a r half v
    | none => s.badAccess m

/-- One half of a write, wherever its address leads: a register of the other package is written there, for a master that owns it
(R402, R404, R405, R590). DESIGN CHOICE: assumption 7. -/
def State.writeHalf (s : State) (m : Master) (half v : Nat) : State :=
  match s.leads m half with
  | .own a => s.writeOwn m a v
  | .zero => s
  | .nothing => s.badAccess m
  | .peer a =>
    match regAt a with
    | none => s.badAccess m
    | some (b, r) =>
      if s.mayWrite m (1 - s.pkgNo) b r then s.emit (.forward half (BitVec.ofNat 64 v)) else s.notOwner m

/-- REGISTER_WRITE: a write of a register without a row of its own (R27, R402, R404, R461). The upper half acts first, so that what a
write to the lower half sets in a sticky bit is not lost to a clear in the upper (R27, R416). DESIGN CHOICE: assumption 28.
DEDUCED: assumption 42. -/
def execRegisterWrite (m : Master) (addr size : Nat) (value : Word64) (s : State) : Res :=
  let halves := halvesOf addr size value
  let shut := !s.gateOpen
  s.act true
    (if inExpertWindow addr && shut then s.denied
     else if !goodAccess addr size then s.badAccess m
     else
      let t := if shut && halves.any (fun h => isExpert h.1) then s.denied else s
      t.each (halves.reverse.filter (fun h => !(shut && isExpert h.1))) (fun s h => s.writeHalf m h.1 h.2))

/-! ## Reads -/

/-- Both packages' copies show the same route and schedule state (R563). -/
def sharedState (r : RegRow) : Bool := r.base == Reg.routeStatus || r.base == Reg.schedStatus || r.base == Reg.schedStart

/-- What a read of one half of a place of this package returns: WO fields read as 0 (R27); PACKAGE is that of the card
(R407). GC_LOAD, to which no rule gives an access code, reads back what its latest accepted load was. DESIGN CHOICE: assumption 80. -/
def State.readOwn (s : State) (m : Master) (half : Nat) : Nat :=
  match jobAddr half with
  | some j => (bset J.key (s.job j).entry 0).toNat / 2 ^ (32 * (half % 128 / 4)) % 2 ^ 32
  | none =>
    match regAt half with
    | some (a, r) =>
      let v := s.rget (if r.card then cardReg m a else a)
      let v := if r.base = Reg.partId ∧ s.grafted then bset F.partId_package v (masterCard m) else v
      v.toNat / (if half = a then 1 else 2 ^ 32) % 2 ^ 32
    | none => 0

/-- What a read of one half returns. What a register of the other package holds is free (assumption 7), but for what both copies show. -/
def State.readHalf (s : State) (m : Master) (half : Nat) : Nat :=
  match s.leads m half with
  | .own a => s.readOwn m a
  | .zero => 0
  | .nothing => 0
  | .peer a =>
    match regAt a with
    | none => 0
    | some (_, r) => if sharedState r then s.readOwn m a else Config.peerRead s.freeCtr half % 2 ^ 32

/-- The half lies where no map assigns a register (R404). -/
def State.unassigned (s : State) (half : Nat) : Bool :=
  match s.locate half with
  | .own a => !assigned a
  | .peer a => !assigned a
  | .zero => false
  | .nothing => true

/-- A read clears the RC fields within the half that it reads (R27). -/
def State.readClear (s : State) (m : Master) (half : Nat) : State :=
  match s.locate half with
  | .own a =>
    match regAt a with
    | some (b, r) =>
      let c := if r.card then cardReg m b else b
      let part : Word64 := if b = a then 0xFFFFFFFF else 0xFFFFFFFF00000000
      s.rset c (s.rget c &&& ~~~(r.mask (· == .rc) &&& part))
    | none => s
  | _ => s

/-- A read of a register: its value, and what the access leaves behind (R27, R401, R404, R461). -/
def State.readReg (s : State) (m : Master) (addr size : Nat) : Word64 × State :=
  let halves := (halvesOf addr size 0).map (·.1)
  let shut := !s.gateOpen
  if !s.linkUp (masterCard m) && m != .shed then
    (BitVec.allOnes 64, s.fset (cardReg m Reg.tapEvents) F.tapEvents_linkDown 1)
  else if inExpertWindow addr && shut then (0, s.denied)
  else if !goodAccess addr size then (0, s.badAccess m)
  else
    let t := if shut && halves.any isExpert then s.denied else s
    let t := if halves.any s.unassigned then t.badAccess m else t
    let t := (t.each (halves.filter (fun h => !(shut && isExpert h))) (fun t h => t.readClear m h)).bump
    let v (h : Nat) : Nat := if shut && isExpert h then 0 else s.readHalf m h
    (BitVec.ofNat 64 (match halves with
      | [a, b] => v a + 2 ^ 32 * v b
      | [a] => v a
      | _ => 0), t)

/-- The errors that a lane's checker has met while PRBS_CHK is 1 enter LX_PRBS_ERR. DESIGN CHOICE: assumptions 2 and 79. -/
def State.countPrbs (s : State) (lane : Nat) : State :=
  if s.flag (Reg.lxCtrl lane) F.lxCtrl_prbsChk then
    (s.fadd (Reg.lxPrbsErr lane) F.lxPrbsErr_count (Config.prbsErrors s.freeCtr)).bump
  else s

/-- LX_PRBS_ERR_READ: a read of the count of any of the 656 lanes returns it and clears it (R27, R461, R505). -/
def execLxPrbsErrRead (m : Master) (lane : Nat) (s : State) : Res :=
  s.act (decide (lane < 656))
    (let a := Reg.lxPrbsErr lane + (if s.pkgNo = 0 then 0 else 0x1C00000)
     let (v, t) := (s.countPrbs lane).readReg m a 4
     t.emit (.readValue m a v))

end Sys2Proof.Machine
end

