-- ==== Sys2Proof/Machine/Boot.lean ====
section
/-! DEFINITION. Reset, clocks, boot and the stops of a package. -/
namespace Sys2Proof.Machine

/-! ## Reset (R407, R410, R635, R689) -/

/-- Registers that fuses set at reset (R407 to R409). -/
def State.fuseRegs (s : State) : State :=
  let s := s.fset Reg.partId F.partId_grade s.nv.grade
  let s := s.fset Reg.stepping ⟨0, 16⟩ s.nv.stepping
  let s := s.fset Reg.lifecycleReg F.lifecycleReg_state s.nv.lifecycle
  (s.each (List.range 272) (fun s b => s.setBed b (tget 0 s.nv.bedFuse b))).countBeds

/-- A package in reset: what fuses, flash, the always-on region and the model's own fields hold stays, and a trip stays (R609, R635, R636).
DEDUCED: assumption 55. -/
def State.resetTo (s : State) : State :=
  let t : State := { State.reset with pending := s.pending, freeCtr := s.freeCtr, nv := s.nv, aon := s.aon, out := s.out, vyOps := s.vyOps }
  let t : State := { t with pwr := { State.reset.pwr with
    standby := s.pwr.standby, dead := s.pwr.dead, thermtrip := s.pwr.thermtrip, stopped := if s.pwr.thermtrip then .trip else .no, locked := false } }
  t.fuseRegs

/-- The Taproot link of the package's card is down, and the card notes it where it was up (R689). -/
def State.tapDown (s : State) (wasUp : Bool) : State :=
  let s := ({ s with host := { s.host with tapStage := psDetect } } : State).setLink tapLink Link.down
  let s := s.fset (s.ownTap Reg.tapStatus) F.tapStatus_linkUp 0
  if wasUp then s.fset (s.ownTap Reg.tapEvents) F.tapEvents_linkDown 1 else s

/-- The reference is present (R362, R688). -/
def State.refOk (s : State) : State := s.fset Reg.clkStatus F.clkStatus_refOk 1

/-- PART_RESET: 0x5EED resets the package of the card; the card keeps its PCIe link (R410). DEDUCED: assumption 55. -/
def execPartReset (m : Master) (value : Word32) (s : State) : Res :=
  s.act (bget F.partReset_value value == 0x5EED)
    (if s.grafted && masterCard m != s.pkgNo then s.emit (.forward Reg.partReset (value.setWidth 64))
     else
      let tap := s.rget (s.ownTap Reg.tapStatus)
      ((s.resetTo.rset Reg.tapStatus tap).tapDown (bflag F.tapStatus_linkUp tap)).refOk)

/-- POR_ASSERT: POR_N is held low (R689). -/
def execPorAssert (s : State) : Res :=
  let up := s.flag (s.ownTap Reg.tapStatus) F.tapStatus_linkUp
  let t := s.resetTo
  .next (({ t with pwr := { t.pwr with porLow := true } } : State).tapDown up)

/-- POR_RELEASE: POR_N rises with the reference present; with a rail out of its window the part stays in reset (R362, R688, R690). -/
def execPorRelease (railsOk : Bool) (s : State) : Res :=
  .next (if s.pwr.porLow && railsOk && s.pwr.standby then ({ s with pwr := { s.pwr with porLow := false, dead := [] } } : State).refOk else s)

/-- ROOT_PLL_LOCK: the root PLL locks, and the five clocks run from counter 0 (R362, R364). -/
def execRootPllLock (s : State) : Res :=
  .next (if s.up && !s.pwr.locked then
    let s : State := { s with pwr := { s.pwr with locked := true } }
    ((s.refOk.fset Reg.clkStatus F.clkStatus_rootLock 1).fset Reg.clkStatus F.clkStatus_clocksRun 1).rset Reg.gcValue 0
  else s)

/-! ## The boot of the firmware (R594, R624, R626, R639, R647) -/

/-- Values of SHED_STATUS.BOOT_STATE (R598). -/
def bsRom : Nat := 0
def bsRecovery : Nat := 1
def bsRunning : Nat := 2
def bsRestarting : Nat := 3

def State.bootState (s : State) : Nat := s.fget Reg.shedStatus F.shedStatus_bootState
def State.toBoot (s : State) (v : Nat) : State := s.fset Reg.shedStatus F.shedStatus_bootState v

/-- SHAKE256 of a BIST record's result and repairs (R638); which bytes stand for them is free (assumption 56). -/
def bistDigest (failed : List Nat) (beds : List (Nat × Nat)) (rows : List (Nat × Nat × Nat)) (bootCount : Word32) : Nat :=
  ofLe (shake256 (Config.bistBytes failed beds rows bootCount) 32)

/-- A record is whole, and of the shut-down before this boot (R639). -/
def BistRecord.fits (r : BistRecord) (bootCount : Word32) : Bool :=
  r.digest == bistDigest r.failed r.beds r.rows r.bootCount && r.bootCount + 1 == bootCount

/-- The boot applies the repairs of fuses and flash. Of a record that fits it applies those beside them, and the datapath check begins; else it
runs the full BIST itself. A RETIRED part does neither (R632, R639, R647). -/
def State.bootRepairs (s : State) : State :=
  let nv := s.nv
  let s := s.applyRepairs nv.softBeds (nv.fusedRows ++ nv.softRows)
  if s.retired then s
  else match s.aon.record.filter (fun r => r.fits s.aon.bootCount) with
    | some r =>
      let s := s.applyRepairs (r.beds.filter (fun x => !nv.softBeds.contains x))
        (r.rows.filter (fun x => !(nv.softRows.contains x || nv.fusedRows.contains x)))
      ({ s with shed := { s.shed with checking := true } } : State).restartTick 11
    | none =>
      let s := (s.logEvent 0x0A 4 0 0 0 none).fset Reg.shedStatus F.shedStatus_bootBist 1
      { s with shed := { s.shed with bootBist := true } }

/-- The 10 ms of a boot's datapath check are over, and RECORD_USED is set (R639, R640). DEDUCED: assumption 56. -/
def State.checkTick (s : State) : State :=
  if s.shed.checking && decide (9500000 ≤ s.sinceTick 11) then
    (({ s with shed := { s.shed with checking := false } } : State).fset Reg.shedStatus F.shedStatus_recordUsed 1).tryStoreReady
  else s

/-- FIRMWARE_BOOT: the boot ROM checks the image and starts it, or stays in RECOVERY (R624, R626). -/
def execFirmwareBoot (s : State) : Res :=
  s.act (s.bootState == bsRom)
    (let s : State := { s with aon := { s.aon with bootCount := s.aon.bootCount + 1 } }
     if s.imageValid then (s.startImage.toBoot bsRunning).bootRepairs.tryStoreReady
     else ({ s with pwr := { s.pwr with recovery := true } } : State).toBoot bsRecovery)

/-- WIPE_COMPLETE: every row of every stack holds zeros (R635, R700). -/
def execWipeComplete (s : State) : Res :=
  s.act (!s.pwr.wiped)
    (({ s with pwr := { s.pwr with wiped := true } } : State).fset Reg.storeStatus F.storeStatus_wipeDone 1).tryStoreReady

/-! ## Service (R462, R464) -/

/-- A configured port is at full rate or down. -/
def State.portFull (s : State) (p : Nat) : Bool :=
  !s.flag (Reg.portCtrl p) F.portCtrl_enable || !s.linkLive p
    || (s.portState p == psActive && s.fget (Reg.portStatus p) F.portStatus_rate == 2)

/-- SEEDLING_EXIT: full service begins (R464). -/
def execSeedlingExit (s : State) : Res :=
  s.act (s.seedling && s.flag Reg.service F.service_initDone && s.flag Reg.service F.service_storeReady
      && (List.range 128).all s.portFull)
    (s.fset Reg.service F.service_seedling 0)

/-- The expert gate closes, but not in BLANK (R462). -/
def State.closeGate (s : State) : State :=
  if s.fget Reg.lifecycleReg F.lifecycleReg_state = 0 then s
  else ({ s with shed := { s.shed with grantEnd := none } } : State).fset Reg.expertGate F.expertGate_open 0

/-- INIT_DONE: written as 1, it closes the gate in the same tick (R462). DEDUCED: assumption 55. -/
def execInitDone (_m : Master) (s : State) : Res :=
  s.act (!s.flag Reg.service F.service_initDone) (s.fset Reg.service F.service_initDone 1).closeGate

/-- EXPERT_GATE_CLOSE: CLOSE written as 1 (R462). -/
def execExpertGateClose (_m : Master) (s : State) : Res := s.act true s.closeGate

/-! ## Stops (R363, R609, R686) -/

/-- The package stops: the oscillator takes over, the counter stands, and every link drops. -/
def State.stopAll (s : State) (why : Stopped) : State :=
  let s := s.each ((List.range 128).filter s.linkLive) (fun s p => (s.showDrop p).setLive (128 * s.pkgNo + p) false)
  let s : State := { s with pwr := { s.pwr with stopped := why, osc := true }, links := [] }
  let s := s.fset Reg.graftStatus F.graftStatus_trunksUp 0
  s.tapDown (s.flag (s.ownTap Reg.tapStatus) F.tapStatus_linkUp)

/-- CLOCK_FAILURE: the reference (cause 0) or the lock of the root PLL (cause 1) is lost (R363). -/
def execClockFailure (cause : Nat) (s : State) : Res :=
  s.act true
    (let s := s.stopAll .clock
     let a := Reg.clkStatus
     let s := ((s.fset a F.clkStatus_clockFail 1).fset a F.clkStatus_clocksRun 0).fset a F.clkStatus_rootLock 0
     let s := if cause = 0 then s.fset a F.clkStatus_refOk 0 else s
     s.logEvent 0x01 1 3 0 (logDetail none none 0 0) none)

/-- Nominal voltage of the rails of R685 in mV, VSB last. -/
def railNominal : List Nat := [750, 750, 1800, 900, 1200, 1100, 400, 750, 1800, 1800]

/-- RAIL_COLLAPSE: a rail falls below 90 % of nominal; once POR_N is low and no rail has voltage left, the power is removed and a trip is
cleared (R609, R686, R689). -/
def execRailCollapse (rail millivolts : Nat) (s : State) : Res :=
  let low := decide (10 * millivolts < 9 * railNominal.getD rail 0)
  let main := decide (rail < 9)
  let s : State := if main && millivolts == 0 then
    { s with pwr := { s.pwr with dead := rail :: s.pwr.dead.filter (fun r => r != rail) } } else s
  .next (if s.pwr.porLow && main && s.pwr.dead.length == 9 then
      { s with pwr := { s.pwr with thermtrip := false, stopped := .no } }
    else if s.shedUp && low && main then (s.stopAll .rail).logEvent 0x02 5 3 rail millivolts none
    else s)

/-- THERMAL_TRIP: die sensor 0 to 67, or stack s as 72 + s, reaches its limit; the comparators need neither firmware nor clock (R609). -/
def execThermalTrip (sensor : Nat) (s : State) : Res :=
  .next (if !s.pwr.thermtrip && decide (sensor < 68 ∨ 72 ≤ sensor ∧ sensor < 96) then
      let s := s.stopAll .trip
      let s : State := { s with pwr := { s.pwr with thermtrip := true } }
      if sensor < 68 then s.logEvent 0x02 4 3 sensor 0 none
      else s.logEvent 0x02 4 3 (unitStack (sensor - 72)) 0 (some (unitStack (sensor - 72)))
    else s)

/-- STANDBY_POWER_LOSS: VSB is lost, and with it the always-on region and the reset logic (R611, R685). DEDUCED: assumption 55. -/
def execStandbyPowerLoss (s : State) : Res :=
  let t := ({ s with aon := ⟨[], 0, 0, 0, none⟩, pwr := { s.pwr with thermtrip := false, standby := false } } : State).resetTo
  .next { t with pwr := { t.pwr with porLow := true } }

/-- STANDBY_POWER_APPLIED: VSB rises; the part stays in reset (R687). -/
def execStandbyPowerApplied (s : State) : Res := .next { s with pwr := { s.pwr with standby := true } }

end Sys2Proof.Machine
end

