-- ==== Sys2Proof/Machine/Ports.lean ====
section
/-! DEFINITION. Runner ports: enabling, bring-up, capability exchange, retraining, full rate and the lane test controls. -/
namespace Sys2Proof.Machine

/-! ## PORT_ENABLE and PORT_DISABLE (R466, R476, R484, R485, R504) -/

/-- A port is enabled and was not refused. -/
def State.portOn (s : State) (p : Nat) : Bool := s.flag (Reg.portCtrl p) F.portCtrl_enable && s.portState p != psRefused

/-- The I/O die of a port. -/
def State.portDie (s : State) (p : Nat) : Nat := s.firstLane p / 128

/-- Other ports that are enabled. -/
def State.otherPorts (s : State) (p : Nat) : List Nat := (List.range 128).filter (fun q => q != p && s.portOn q)

/-- Why an ENABLE is refused: the CAUSE of PORT_STATUS (R504). -/
def State.enableRefusal (s : State) (p : Nat) : Option Nat :=
  let w := s.portWidth p
  if s.firstLane p % w != 0 || decide (512 < s.firstLane p + w) then some 1
  else if (s.otherPorts p).any (fun q => (s.portLanes q).any (s.portLanes p).contains) then some 2
  else if 131072 < s.reservedAll p + ((s.otherPorts p).filter (fun q => s.portDie q == s.portDie p)).foldl
      (fun n q => n + s.reservedAll q) 0 then some 3
  else none

/-- The lifecycle state and the boot permit Runner service (R626, R632, R638). -/
def State.runnerOk (s : State) : Bool :=
  s.serves && !s.pwr.recovery

/-- The resource of the package's own PORTS. -/
def State.portsOwn (s : State) : Nat := resPorts + s.pkgNo

/-- PORT_ENABLE: ENABLE written as 1. -/
def execPortEnable (m : Master) (port : Nat) (s : State) : Res :=
  s.act (decide (port < 128))
    (if !s.owns m s.portsOwn then s.notOwner m
     else if !s.runnerOk || s.portOn port then s
     else
      let s := s.fset (Reg.portCtrl port) F.portCtrl_enable 1
      match s.enableRefusal port with
      | some c => (s.rset (Reg.portStatus port) 0).pstat port F.portStatus_state psRefused |>.pstat port F.portStatus_cause c
      | none =>
        let d := s.portDie port
        let s := (s.setPoolFree d 0 (s.poolFree d 0 - s.reservedAll port)).setLink port { (s.link port).cleared with holdFull := false }
        (s.rset (Reg.portStatus port) 0).toStage port psDetect)

/-- PORT_DISABLE: ENABLE written as 0. -/
def execPortDisable (m : Master) (port : Nat) (s : State) : Res :=
  s.act (decide (port < 128))
    (if !s.owns m s.portsOwn then s.notOwner m
     else
      let on := s.portOn port
      let s := s.fset (Reg.portCtrl port) F.portCtrl_enable 0
      if !on then s.rset (Reg.portStatus port) 0
      else
        let d := s.portDie port
        let s := s.dropLink port
        let s := s.setLink port { (s.link port).cleared with holdFull := false }
        let s := (s.idleLanes (s.portLanes port)).stageLanes (s.portLanes port) 0
        let s := (s.rset (Reg.portStatus port) 0).setPoolFree d 0 (s.poolFree d 0 + s.reservedAll port)
        (s.setLive (128 * s.pkgNo + port) false).checkUpstream)

/-- PORT_RETRAIN: RETRAIN written as 1 on an ACTIVE port (R493). -/
def execPortRetrain (m : Master) (port : Nat) (s : State) : Res :=
  s.act (decide (port < 128))
    (if !s.owns m s.portsOwn then s.notOwner m
     else if s.portState port = psActive then s.startRetrain port (s.fget (Reg.portStatus port) F.portStatus_rate)
     else s)

/-! ## Lane test controls (R505) -/

/-- The link whose flits a lane carries: a port's, Taproot's or a trunk's (R405). -/
def State.laneUser (s : State) (lane : Nat) : Option Nat :=
  if lane < 512 then (List.range 128).find? (fun p => s.linkLive p && (s.usedLanes p).contains lane)
  else if lane < 528 then (if s.tapUp then some tapLink else none)
  else if s.linkLive (128 + (lane - 528) / 32) then some (128 + (lane - 528) / 32)
  else none

/-- The lane is out of its port for a test. -/
def State.laneTested (s : State) (lane : Nat) : Bool :=
  s.flag (Reg.lxCtrl lane) F.lxCtrl_loopback || s.flag (Reg.lxCtrl lane) F.lxCtrl_prbsGen

/-- A lane that carries no flits leaves its port for a test: the port goes on without it. -/
def State.outOfPort (s : State) (lane : Nat) : State :=
  s.each ((List.range 128).filter (fun p => (s.link p).lanes.contains lane)) (fun s p =>
    let x := s.link p
    let k := s.fget (Reg.laneStatus lane) F.laneStatus_logical
    (s.setLink p { x with lanes := x.lanes.erase lane, rx := if s.portState p = psCap then x.rx.erase k else x.rx }).stageLanes [lane] 0)

/-- No lane of a trunk or of Taproot is out of its link for a test. -/
def State.lanesThere (s : State) (l : Nat) : Bool :=
  !(rangeFrom (expertLane l 0) (if l = tapLink then 16 else 32)).any s.laneTested

/-- LX_CTRL: a write of the lane test controls of any of the 656 lanes; a lane in use takes its link down. -/
def execLxCtrl (m : Master) (lane : Nat) (value : Word32) (s : State) : Res :=
  s.act (decide (lane < 656))
    (if !s.gateOpen then s.denied
     else if !s.owns m s.portsOwn then s.notOwner m
     else
      let s := (s.countPrbs lane).rset (Reg.lxCtrl lane) (BitVec.ofNat 64 (value.toNat % 16))
      if !s.laneTested lane then s
      else match s.laneUser lane with
        | some p => s.loseLink p
        | none => if lane < 512 then s.outOfPort lane else s)

/-! ## Stage 1 (R475, R481 to R483) -/

/-- Values of LANE_STATUS.FAULT. -/
def lfNone : Nat := 0
def lfNoReceiver : Nat := 1
def lfOpen : Nat := 2

/-- What a test finds on a lane: 0 no far termination, 1 a receiver, 2 a leg near ground, 3 a leg near the supply. -/
def laneFound (l : List Nat) (i : Nat) : Nat := l.getD i 0

/-- FAULT of a lane after a test, and its count of tests without a termination (R481). -/
def laneVerdict (any : Bool) (found tests old : Nat) : Nat × Nat :=
  if found = 1 then (lfNone, 0)
  else if found = 2 then (3, 0)
  else if found = 3 then (4, 0)
  else if !any then (lfNoReceiver, 0)
  else if 3 ≤ tests + 1 then (lfOpen, tests + 1)
  else (if lfOpen ≤ old then old else lfNone, tests + 1)

/-- The largest power of two of lanes that a list holds. -/
def pow2Take (l : List Nat) : List Nat := if l.isEmpty then [] else l.take (2 ^ Nat.log2 l.length)

/-- A port goes on to stage 2 over some lanes, always at the Seedling rate (R475, R500, R667). DEDUCED: assumption 50. -/
def State.toTrain (s : State) (p : Nat) (lanes : List Nat) : State :=
  let s := s.setLink p { s.link p with lanes := lanes, tests := [] }
  let s := (s.pstat p F.portStatus_state psTrain).pstat p F.portStatus_rate 1
  (s.sendTraining p lanes.length).stageLanes lanes psTrain

/-- One lane is classified. -/
def State.testLane (s : State) (p : Nat) (any : Bool) (x : Nat × Nat) : State :=
  let (lane, found) := x
  let old := s.fget (Reg.laneStatus lane) F.laneStatus_fault
  let (f, n) := laneVerdict any found (tget 0 (s.link p).tests lane) old
  let s := s.setLink p { s.link p with tests := tset 0 (s.link p).tests lane n }
  let s := s.fset (Reg.laneStatus lane) F.laneStatus_fault f
  if lfOpen ≤ f ∧ f ≠ old then (s.fset (Reg.laneEvents lane) F.laneEvents_faultSeen 1).addPoints (unitLane lane) 64 else s

/-- The package's Taproot link enters a stage (R400). -/
def State.toTap (s : State) (stage : Nat) : State := { s with host := { s.host with tapStage := stage } }

/-- A faulted lane of a port that runs without it is tested on, and returns to RECEIVER on the first clean test (R482). -/
def State.retest (s : State) (p : Nat) (found : List Nat) : State :=
  s.each ((s.portLanes p).zipIdx.filter (fun x => laneFound found x.2 == 1
      && decide (lfOpen ≤ s.fget (Reg.laneStatus x.1) F.laneStatus_fault)))
    (fun s x => s.fset (Reg.laneStatus x.1) F.laneStatus_fault lfNone)

/-- DETECT_TEST: the 10 ms test of stage 1 on the lanes of a port, or of Taproot (132), in ascending order. DEDUCED: assumption 50. -/
def execDetectTest (port : Nat) (lanes : List Nat) (s : State) : Res :=
  if port = tapLink then
    s.act (s.host.tapStage == psDetect) (if (List.range 16).all (fun i => laneFound lanes i == 1) && s.lanesThere tapLink then (s.toTap psTrain).sendTraining tapLink 16 else s)
  else
  s.act (decide (port < 128) && !(s.link port).squelch && decide (psDetect ≤ s.portState port ∧ s.portState port ≤ psActive))
    (if s.portState port != psDetect then s.retest port lanes
     else
     let l := s.portLanes port
     let found := (List.range l.length).map (fun i => (l.getD i 0, laneFound lanes i))
     let found := found.filter (fun x => !s.laneTested x.1)
     let any := found.any (fun x => x.2 == 1)
     let faults (s : State) : List Nat := l.filter (fun x => decide (lfOpen ≤ s.fget (Reg.laneStatus x) F.laneStatus_fault))
     let before := faults s
     let s := s.each found (fun s x => s.testLane port any x)
     let bad := faults s
     let s := match bad.find? (fun x => !before.contains x) with
       | some x => s.logLane 1 x
       | none => s
     let good := l.filter (fun x => found.any (fun y => y.1 == x && y.2 == 1))
     let waiting := any && found.any (fun x => x.2 == 0 && !bad.contains x.1)
     if good.length = l.length then s.toTrain port l
     else if bad.isEmpty && found.length = l.length then s
     else if !s.flag (Reg.portGroup port) F.portGroup_allowNarrow then s.pstat port F.portStatus_cause 4
     else if waiting || good.isEmpty then s
     else s.toTrain port (pow2Take good))

/-! ## Failures of stages 2 to 4 (R476) -/

/-- A stage has failed with a cause: the port squelches and starts again, or is FAILED; a retrain loses the link (R476, R495). -/
def State.stageFail (s : State) (p cause : Nat) : State :=
  if (s.link p).retrain then s.losePort p
  else
    let n := s.fget (Reg.portStatus p) F.portStatus_tries + 1
    let s := s.setLink p { (s.link p).cleared with squelch := decide (n < 8) }
    let s := ((s.pstat p F.portStatus_cause cause).pstat p F.portStatus_tries n).pstat p F.portStatus_rate 0
    let s := s.idleLanes (s.portLanes p)
    if n < 8 then s.toStage p psDetect
    else (s.toStage p psFailed).logLane 4 (s.firstLane p)

/-- STAGE_TIMEOUT: stage 2, 3 or 4 of a port, or of Taproot (132), has not ended in time. -/
def execStageTimeout (port : Nat) (s : State) : Res :=
  if port = tapLink then
    s.act (decide (psTrain ≤ s.host.tapStage ∧ s.host.tapStage ≤ psCap)) ((s.setLink tapLink Link.down).toTap psDetect)
  else
  s.act (decide (port < 128) && decide (psTrain ≤ s.portState port ∧ s.portState port ≤ psCap)) (s.stageFail port 5)

/-- SQUELCH_END: the squelch of a port ends, and stage 1 may begin. -/
def execSquelchEnd (port : Nat) (s : State) : Res :=
  s.act (decide (port < 128) && (s.link port).squelch) (s.setLink port { s.link port with squelch := false })

/-! ## Stages 2 and 3 (R475, R477, R478) -/

/-- What stage 2 leaves in the registers and the health of a lane (R469, R477, R502, R615). -/
def State.laneTrained (s : State) (lane : Nat) (x : LaneTrained) : State :=
  let a := Reg.laneStatus lane
  let new := x.dfeSat && !s.flag a F.laneStatus_dfeSat
  let s := s.fset a F.laneStatus_polInv (if x.inverted then 1 else 0)
  let s := (s.fset a F.laneStatus_dfeSat (if x.dfeSat then 1 else 0)).fset (Reg.laneEye lane) ⟨0, 32⟩ (x.eye &&& 0x03FF03FF)
  let s := s.takeTaps 0 lane x
  if new then s.addPoints (unitLane lane) 8 else s

/-- TRAIN_COMPLETE: every lane in use holds eye margin; `lanes` says what was found on each, in physical order. -/
def execTrainComplete (port : Nat) (lanes : List LaneTrained) (s : State) : Res :=
  if 128 ≤ port then
    let t := s.each lanes.zipIdx (fun s x => s.takeTaps port x.2 x.1)
    if port = tapLink then s.act (s.host.tapStage == psTrain && s.lanesThere port) (t.toTap psLock)
    else s.act (s.trunksRun && decide (port < 132) && (s.trunk (port - 128)).stage == 2 && s.lanesThere port) (t.trunkTrained (port - 128))
  else
    s.act (s.portState port == psTrain)
      (let l := (s.link port).lanes.zip lanes
       let s := s.each l (fun s x => s.laneTrained x.1 x.2)
       let s := if l.any (fun x => x.2.inverted) then s.fset (Reg.portEvents port) F.portEvents_polarityFixed 1 else s
       (s.pstat port F.portStatus_state psLock).stageLanes (s.link port).lanes psLock)

/-- Fields of an alignment marker (R474), and from bit 40 the unit intervals by which it came after the first of its lanes. -/
def amLogical (m : Nat) : Nat := m % 8
def amPort (m : Nat) : Nat := m / 8 % 128
def amCount (m : Nat) : Nat := m / 2 ^ 10 % 2 ^ 16
def amSkew (m : Nat) : Nat := m / 2 ^ 40 % 2 ^ 40

/-- A lane on which the receiver holds lock; what is at or above 2^80 stands for one without. -/
def amHeld (m : Nat) : Bool := decide (m < 2 ^ 80)

/-- Why stage 3 fails on the markers of the lanes that hold lock (R478): the CAUSE of PORT_STATUS. A port that may narrow takes what logical
numbers there are, and R480 settles the width. DEDUCED: assumption 50. -/
def lockCause (narrow : Bool) (n : Nat) (l : List Nat) : Option Nat :=
  if decide ¬ (l.map amLogical).Nodup || !narrow && (l.length != n || !(List.range n).all (fun k => l.any (fun m => amLogical m == k)))
  then some 7
  else if l.any (fun m => amPort m != amPort (l.headD 0)) then some 8
  else if l.any (fun m => amCount m != amCount (l.headD 0)) || l.any (fun m => decide (64 < amSkew m)) then some 6
  else none

/-- LOCK_COMPLETE: the markers of the port's lanes, in physical order, map those that hold lock to logical order. DEDUCED: assumption 50. -/
def execLockComplete (port : Nat) (markers : List Nat) (s : State) : Res :=
  if 128 ≤ port then
    if port = tapLink then
      s.act (s.host.tapStage == psLock && s.lanesThere port)
        (if trunkMarkersOk 16 0 markers then (s.toTap psCap).setLink port { s.link port with cap := none, capOut := true }
         else s.toTap psDetect)
    else s.act (s.trunksRun && decide (port < 132) && (s.trunk (port - 128)).stage == 3 && s.lanesThere port)
      (if trunkMarkersOk 32 (port - 128) markers then s.trunkLocked (port - 128) else if s.pairing then (s.trunkAgain (port - 128)).pairTimeout else s.trunkAgain (port - 128))
  else
    s.act (s.portState port == psLock)
      (let l := s.portLanes port
       let held := (l.zip markers).filter (fun x => amHeld x.2 && !s.laneTested x.1)
       match lockCause (s.flag (Reg.portGroup port) F.portGroup_allowNarrow) l.length (held.map Prod.snd) with
       | some c => s.stageFail port c
       | none =>
         let s := s.each held (fun s x => s.fset (Reg.laneStatus x.1) F.laneStatus_logical (amLogical x.2))
         let s := if held.all (fun x => x.1 == l.getD (amLogical x.2) 512) then s
           else s.fset (Reg.portEvents port) F.portEvents_orderFixed 1
         let rx := (List.range 8).filter (fun k => held.any (fun x => amLogical x.2 == k))
         let s := s.setLink port { s.link port with rx := rx, cap := none, capOut := true }
         (s.pstat port F.portStatus_state psCap).stageLanes (held.map Prod.fst) psCap)

/-! ## Stage 4 (R479, R480) -/

/-- A field of a CAP payload. -/
def capField (b : Bytes) (lo w : Nat) : Nat := nbits (ofLe (b.take 256)) lo w

/-- LANES_RX of the port's own CAP flits. -/
def Link.lanesRx (x : Link) : Nat := x.rx.foldl (fun v n => v + 2 ^ n) 0

/-- The width that both ends can use, as a power of two (R480). -/
def settledWidth (own peer rxOwn rxPeer : Nat) : Option Nat :=
  ((List.range 4).filter (fun k => decide (k ≤ own ∧ k ≤ peer)
    && (List.range (2 ^ k)).all (fun n => nbits rxOwn n 1 == 1 && nbits rxPeer n 1 == 1))).getLast?

/-- The outcome of stage 4 on a peer's CAP: none fails it with CAUSE WIDTH. -/
def State.capWidth (s : State) (p : Nat) (b : Bytes) : Option Nat :=
  let own := s.fget (Reg.portGroup p) F.portGroup_width
  let peer := capField b 57 2
  if capField b 0 16 != 1 then none
  else match settledWidth own peer (s.link p).lanesRx (capField b 59 8) with
    | none => none
    | some k =>
      if decide (k < own ∨ k < peer) && !(s.flag (Reg.portGroup p) F.portGroup_allowNarrow && capField b 67 1 == 1) then none
      else some k

/-- PORT_FAR takes the peer's identity (R502). -/
def State.setFar (s : State) (p : Nat) (b : Bytes) : State :=
  let a := Reg.portFar p
  let s := (s.fset a F.portFar_deviceKind (capField b 16 2)).fset a F.portFar_vendor (capField b 18 16)
  (s.fset a F.portFar_coord (capField b 34 16)).fset a F.portFar_port (capField b 50 7)

/-- Credit as a CAP flit gives it (R494). -/
def capCredit (b : Bytes) : Tab Nat :=
  (List.range 4).foldl (fun t c => tset 0 t c (capField b (70 + 16 * c) 16)) []

/-- The port reaches ACTIVE over 2^k logical lanes. -/
def State.linkActive (s : State) (p k : Nat) : State :=
  let l := (s.portLanes p).filter (fun x => s.fget (Reg.laneStatus x) F.laneStatus_stage == psCap)
  let s := ((s.pstat p F.portStatus_state psActive).pstat p F.portStatus_activeWidth k).pstat p F.portStatus_cause 0
  let s := s.pstat p F.portStatus_tries 0
  let s := s.stageLanes l psActive
  let s := s.each l (fun s x => s.fset (Reg.laneStatus x) F.laneStatus_inUse
    (if s.fget (Reg.laneStatus x) F.laneStatus_logical < 2 ^ k then 1 else 0))
  let s := if k < s.fget (Reg.portGroup p) F.portGroup_width then s.fset (Reg.portEvents p) F.portEvents_narrowed 1 else s
  let s := s.setLink p (s.link p).restart
  s.setLive (128 * s.pkgNo + p) true

/-- A fresh link towards the peer that sent a CAP: sequence numbers and credits start afresh (R497). -/
def State.freshLink (s : State) (p : Nat) (b : Bytes) : State :=
  let x := s.link p
  s.setLink p { x.cleared with lanes := x.lanes, rx := x.rx, cap := some b, credit := capCredit b, owed := x.owed, enc := x.enc }

/-- CAP_TIMER: a CAP flit is due, of a port or of Taproot (132): every 1 µs in stage 4, and every 100 µs of an ACTIVE port that waits for full
rate (R475, R500). -/
def execCapTimer (port : Nat) (s : State) : Res :=
  s.act (if port < 128 then s.portState port == psCap || s.portState port == psActive && s.flag (Reg.portStatus port) F.portStatus_fullRateWait
      else port == tapLink && s.host.tapStage == psCap)
    (s.setLink port { s.link port with capOut := true })

/-- Both ends have advertised full rate, the part in a CAP flit that has left: the port retrains at it (R500, R501). -/
def State.tryFullRate (s : State) (p : Nat) : State :=
  if s.portState p == psActive && !(s.link p).capOut && s.fget (Reg.portStatus p) F.portStatus_rate == 1
      && s.flag (Reg.portStatus p) F.portStatus_fullRateWait && !(s.link p).holdFull
      && (s.link p).cap.any (fun b => capField b 68 1 == 1) then
    s.startRetrain p 2
  else s

/-- The peer's CAP flit on Taproot in stage 4: a VERSION that it may not have fails the stage, and one with CAP_SEEN at 1 ends it in ACTIVE, with
the credits that it gives (R400, R475, R480). -/
def State.tapCap (s : State) (cap : Bytes) : State :=
  let x := s.link tapLink
  if capField cap 0 16 ≠ 1 then (s.setLink tapLink Link.down).toTap psDetect
  else if capField cap 162 1 = 1 then
    (s.toTap psActive).setLink tapLink { Link.down with cap := some cap, credit := capCredit cap, enc := x.enc }
  else s.setLink tapLink { x with cap := some cap }

/-- CAP_FLIT: in stage 4 the port settles with its peer or fails; an ACTIVE port takes the peer's advertisement. Taproot is link 132.
DESIGN CHOICE: assumption 78. -/
def execCapFlit (port : Nat) (cap : Bytes) (s : State) : Res :=
  let st := s.portState port
  if port = tapLink then s.act (s.host.tapStage == psCap && s.lanesThere port) (s.tapCap cap)
  else
  s.act (decide (port < 128) && (st == psCap || st == psActive))
    (let s := (s.setLink port { s.link port with cap := some cap }).setFar port cap
     if st = psActive then s.tryFullRate port
     else match s.capWidth port cap with
       | none => s.stageFail port 9
       | some k => if capField cap 162 1 = 1 ∧ !(s.link port).retrain then (s.freshLink port cap).linkActive port k else s)

/-! ## Retrains (R493 to R495) -/

/-- FAR_RETRAIN: training patterns arrive on an ACTIVE port. -/
def execFarRetrain (port : Nat) (s : State) : Res :=
  s.act (decide (port < 128) && s.portState port == psActive)
    (let a := Reg.portStatus port
     let ready := s.flag a F.portStatus_fullRateWait && (s.link port).cap.any (fun b => capField b 68 1 == 1)
     s.startRetrain port (if ready then 2 else s.fget a F.portStatus_rate))

/-- The replay store from the cell that the peer expects next, whose cells, to be sent again, take of the credit that its CAP gives (R494). -/
def Link.resume (x : Link) (b : Bytes) : Link :=
  let seq := capField b 134 14
  let l := if x.replay.any (fun e => e.1 == seq) then x.replay.dropWhile (fun e => e.1 != seq)
    else if x.txSeq = seq then [] else x.replay
  { x with
    replay := l, sent := 0
    credit := (List.range 4).foldl (fun t c =>
      tset 0 t c (tget 0 t c - (l.filter (fun e => nbits (numAt e.2 0 8) 2 2 == c)).length)) (capCredit b)
    nakSeq := none, nakRun := 0, nakTick := none, nakDue := false, retrain := false }

/-- RETRAIN_COMPLETE: the retrain ends in ACTIVE, and cells go on from RESUME_SEQ. -/
def execRetrainComplete (port : Nat) (s : State) : Res :=
  match (s.link port).cap with
  | none => .next s
  | some b =>
    s.act (decide (port < 128) && (s.link port).retrain && s.portState port == psCap && capField b 162 1 == 1)
      (match s.capWidth port b with
       | none => s.stageFail port 9
       | some k =>
         let used := (s.link port).lanes
         let s := (s.setLink port ((s.link port).resume b)).linkActive port k
         let s := if s.fget (Reg.portStatus port) F.portStatus_rate = 2 then s.pstat port F.portStatus_fullRateWait 0 else s
         let s := s.each used (fun s x => s.addPoints (unitLane x) 16)
         ((s.fset (Reg.portEvents port) F.portEvents_retrained 1).fadd (Reg.portRetrains port) F.portRetrains_count 1).logLane 3
           (s.firstLane port))

/-- LINK_LOST: the receiver of an active link, a port, a trunk (128 to 131) or Taproot (132), declares it lost (R496, R588); `replayEcc` says that an
uncorrectable error in the replay store is the reason (R497, R651). -/
def execLinkLost (port : Nat) (replayEcc : Bool) (s : State) : Res :=
  s.act (decide (port ≤ tapLink) && s.linkLive port)
    ((if replayEcc then s.logUnit 0x03 6 1 (s.linkUnit port) (logDetail none none 0 (s.firstLane port)) else s).loseLink port)

/-! ## Full rate (R500, R501) -/

/-- A port advertises full rate in a fresh CAP flit, after which it retrains where its peer has advertised it too. -/
def State.advertise (s : State) (p : Nat) : State :=
  let s := s.pstat p F.portStatus_fullRateWait 1
  s.setLink p { s.link p with capOut := true }

/-- INIT_DONE and STORE_READY are both 1 (R500). -/
def State.fullReady (s : State) : Bool := s.flag Reg.service F.service_initDone && s.flag Reg.service F.service_storeReady

/-- A port that could advertise: ACTIVE at the Seedling rate. -/
def State.slowPort (s : State) (p : Nat) : Bool := s.portState p == psActive && s.fget (Reg.portStatus p) F.portStatus_rate == 1

/-- FULL_RATE_ADVERTISE: every ACTIVE port at the Seedling rate advertises full rate. -/
def execFullRateAdvertise (s : State) : Res :=
  s.act s.fullReady (s.each ((List.range 128).filter (fun p => s.slowPort p && !(s.link p).holdFull)) State.advertise)

/-- FULL_RATE_RETRY: the second after a failed full-rate retrain is over. -/
def execFullRateRetry (port : Nat) (s : State) : Res :=
  s.act (decide (port < 128) && (s.link port).holdFull)
    (let s := s.setLink port { s.link port with holdFull := false }
     if s.slowPort port && s.fullReady then s.advertise port else s)

end Sys2Proof.Machine
end

