-- ==== Sys2Proof/Machine/Flits.lean ====
section
/-! DEFINITION. Flits: what a transmitter puts into its next slot, and what a receiver does with a flit. -/
namespace Sys2Proof.Machine

/-! ## CRC-32C and the trailer (R470) -/

/-- One byte into the CRC, least significant bit first. -/
def crcByte (c : Word32) (b : Byte) : Word32 :=
  (List.range 8).foldl (fun c _ => if c.toNat % 2 = 1 then (c >>> 1) ^^^ 0x82F63B78#32 else c >>> 1) (c ^^^ b.setWidth 32)

/-- CRC-32C (Castagnoli) of a byte string. PRESUMED: assumption 11. -/
def crc32c (b : Bytes) : Word32 := ~~~(b.foldl crcByte 0xFFFFFFFF#32)

/-- Kinds of flits. -/
def fkIdle : Nat := 0
def fkCell : Nat := 1
def fkTime : Nat := 2
def fkCap : Nat := 3
def fkPair : Nat := 4

/-- The first twelve bytes of a trailer. -/
structure Trailer where
  kind : Nat
  seq : Nat
  ackSeq : Nat
  ackValid : Bool
  nak : Bool
  clsA : Nat
  cntA : Nat
  clsB : Nat
  cntB : Nat
  deriving DecidableEq, Repr

def Trailer.word (t : Trailer) : Nat :=
  t.kind % 16 + 2 ^ 4 * (t.seq % 2 ^ 14) + 2 ^ 18 * (t.ackSeq % 2 ^ 14) + (if t.ackValid then 2 ^ 32 else 0)
    + (if t.nak then 2 ^ 33 else 0) + 2 ^ 34 * (t.clsA % 4) + 2 ^ 36 * (t.cntA % 4096) + 2 ^ 48 * (t.clsB % 4)
    + 2 ^ 50 * (t.cntB % 4096)

def Trailer.read (v : Nat) : Trailer :=
  ⟨nbits v 0 4, nbits v 4 14, nbits v 18 14, nbits v 32 1 == 1, nbits v 33 1 == 1, nbits v 34 2, nbits v 36 12, nbits v 48 2,
    nbits v 50 12⟩

/-- A flit of 272 bytes. -/
def flitBytes (payload : Bytes) (t : Trailer) : Bytes :=
  let b := bytesAt payload 0 256 ++ leBytes 12 t.word
  b ++ leBytes 4 (crc32c b).toNat

/-- The flit's CRC matches. -/
def flitCrcOk (b : Bytes) : Bool := b.length == 272 && numAt b 268 4 == (crc32c (b.take 268)).toNat

/-! ## Payloads of the part's own flits (R479, R577) -/

/-- Lanes of a link's active width. -/
def State.activeLanes (s : State) (l : Nat) : Nat :=
  if l < 128 then 2 ^ s.fget (Reg.portStatus l) F.portStatus_activeWidth else s.slotLanes l

/-- Flits that the replay store of a link holds (R488). -/
def State.replayDepth (s : State) (l : Nat) : Nat := min (512 * s.activeLanes l) 4096

/-- Free cells of a class in a link's reservation. -/
def State.freeRoom (s : State) (l c : Nat) : Nat := s.reserved l c - tget 0 (s.link l).held c

/-- The part's CAP payload on a port, or on Taproot: PORT, WIDTH_CFG, LANES_RX and NARROW_OK, of which Taproot's 16 lanes have no more to say
than 0, the widest, all and 0. DESIGN CHOICE: assumption 78. -/
def State.capPayload (s : State) (p : Nat) : Bytes :=
  let x := s.link p
  let ready := decide (p < 128) && s.flag (Reg.portStatus p) F.portStatus_fullRateWait
  let who := if p < 128 then 2 ^ 50 * p + 2 ^ 57 * s.fget (Reg.portGroup p) F.portGroup_width + 2 ^ 59 * (x.lanesRx % 256)
      + 2 ^ 67 * s.fget (Reg.portGroup p) F.portGroup_allowNarrow
    else 2 ^ 57 * 3 + 2 ^ 59 * 255
  leBytes 256 (1 + 2 ^ 18 * Config.vendorId.toNat + 2 ^ 34 * (s.self % 2 ^ 16) + who + (if ready then 2 ^ 68 else 0) + 2 ^ 69
    + 2 ^ 70 * (List.range 4).foldl (fun v c => v + 2 ^ (16 * c) * min (s.freeRoom p c) 0xFFFF) 0
    + 2 ^ 134 * (x.rxNext % 2 ^ 14) + (if x.retrain then 2 ^ 148 else 0) + 2 ^ 149 * min (512 * s.slotLanes p) 4096
    + (if x.cap.isSome then 2 ^ 162 else 0))

/-- The peer's PAIR flit has come on every trunk that has locked. -/
def State.pairSeen (s : State) : Bool := (List.range 4).all (fun d => (s.trunk d).stage != 4 || (s.trunk d).pair.isSome)

/-- The part's PAIR payload on a trunk. -/
def State.pairPayload (s : State) (d : Nat) : Bytes :=
  let one (b : Bool) (v : Nat) : Nat := if b then v else 0
  leBytes 256 (1 + 2 ^ 16 * s.fget Reg.partId F.partId_grade + 2 ^ 18 * ((s.rget Reg.stepping).toNat % 2 ^ 16)
    + 2 ^ 34 * s.fget Reg.lifecycleReg F.lifecycleReg_state + one (s.flag Reg.service F.service_initDone) (2 ^ 37)
    + one (s.jobs.any (fun e => e.2.get J.state != jobFree)) (2 ^ 38)
    + one ((List.range 128).any (fun p => s.flag (Reg.portCtrl p) F.portCtrl_enable)) (2 ^ 39)
    + 2 ^ 40 * s.fget Reg.graftStatus F.graftStatus_endB + 2 ^ 41 * (d % 4) + one s.pairSeen (2 ^ 43) + 2 ^ 44 * (s.self % 2 ^ 16)
    + 2 ^ 64 * s.nv.serial.toNat + 2 ^ 128 * ofLe s.fwDigest)

/-! ## Time ordered sets (R366, R372, R498) -/

/-- HOPS and BOUND that the part reports. -/
def State.hops (s : State) : Nat := s.fget Reg.timeStatus F.timeStatus_hops
/-- DEDUCED: assumption 23. -/
def State.bound (s : State) : Nat := s.fget Reg.timeBound F.timeBound_value

/-- A TIME flit's payload (R498). DEDUCED: assumption 23. -/
def timePayload (reply notReady : Bool) (hops bound t1 t2 t3 : Nat) : Bytes :=
  leBytes 256 ((if reply then 1 else 0) + (if notReady then 2 else 0) + 2 ^ 2 * (hops % 32) + 2 ^ 7 * (bound % 2 ^ 16)
    + 2 ^ 23 * (t1 % 2 ^ 67) + 2 ^ 90 * (t2 % 2 ^ 67) + 2 ^ 157 * (t3 % 2 ^ 67))

def timeField (b : Bytes) (lo w : Nat) : Nat := nbits (ofLe (b.take 256)) lo w

/-- The payload of a time ordered set that leaves now: a request carries T1 and a reply T3 of this moment (R372). -/
def State.timeFlit (s : State) : TimeOut → Bytes
  | .request => timePayload false false s.hops s.bound s.stamp 0 0
  | .reply nr hops bound t1 t2 => timePayload true nr hops bound t1 t2 s.stamp

/-- A request that leaves opens its exchange with T1 (R372). -/
def State.noteSent (s : State) : TimeOut → State
  | .request => { s with time := { s.time with exchange := some s.stamp } }
  | .reply _ _ _ _ _ => s

/-! ## FLIT_SLOT (R472, R486, R488, R491, R498, R508) -/

/-- The classes that have credit to return, at most two of them. -/
def Link.creditsDue (x : Link) : List (Nat × Nat) :=
  (((List.range 4).map (fun c => (c, min (tget 0 x.owed c) 4095))).filter (fun e => e.2 != 0)).take 2

/-- The trailer of a link's next flit, and the link once it has been sent. -/
def Link.trailer (x : Link) (kind seq now : Nat) : Trailer × Link :=
  let d := x.creditsDue
  let a := d.getD 0 (0, 0)
  let b := d.getD 1 (0, 0)
  let t : Trailer := ⟨kind, seq, (x.rxNext + 2 ^ 14 - 1) % 2 ^ 14, x.rxAny, x.nakDue, a.1, a.2, b.1, b.2⟩
  (t, { x with
    owed := d.foldl (fun o e => tset 0 o e.1 (tget 0 o e.1 - e.2)) x.owed
    nakTick := if x.nakDue then some now else x.nakTick
    nakDue := false, ackDue := false, sinceAck := 0, ackTick := now })

/-- An IDLE flit that carries nothing, as lanes beyond the active width send it (R471, R480). -/
def idleFlit : Bytes := flitBytes [] ⟨fkIdle, 0, 0, false, false, 0, 0, 0, 0⟩

/-- NAKs of a link, in PORT_RETRY or TAP_RETRY and in the health of its first lane (R411, R492, R615). -/
def State.countNak (s : State) (l : Nat) : State :=
  (if l < 128 then s.fadd (Reg.portRetry l) F.portRetry_count 1
   else if l = tapLink then s.fadd (s.ownTap Reg.tapRetry) ⟨0, 32⟩ 1
   else s).addPoints (s.linkUnit l) 2

/-- A flit leaves a link in its next slot, with acknowledgements and credits; NAKs sent are counted (R470, R472, R490, R492). -/
def State.sendFlit (s : State) (l kind seq : Nat) (payload : Bytes) : State :=
  let x := s.link l
  let (t, y) := x.trailer kind seq s.now
  let s := s.setLink l y
  let s := if x.nakDue then s.countNak l else s
  s.deal l idleFlit (flitBytes payload t)

/-- A context that no packet of the link holds (R508). -/
def Link.freeCtx (x : Link) : Option Nat := (List.range 4096).find? (fun c => (tfind x.txCtx c).isNone)

/-- A copy's next cell may leave on its link: it has crossed, its class has credit, and its packet a context (R486, R508). -/
def State.maySend (s : State) (l : Nat) (c : Copy) : Bool :=
  c.out == linkIo l && decide (c.left < c.next) && (c.ctx.isSome || (s.link l).freeCtx.isSome)
    && (match s.pk c.pid with
      | some k => tget 0 (s.link l).credit k.pkt.cls != 0
      | none => false)

/-- Cells sent, as the port's counters and telemetry count them (R560, R563). -/
def State.countOut (s : State) (out cls : Nat) : State :=
  let s := s.countAt Reg.cellsOut out 1
  if isPortIo out && s.flag Reg.telemCtrl F.telemCtrl_enable then
    let key := 4 * out + cls
    { s with xb := { s.xb with telem := { s.xb.telem with cellsOut := tset 0 s.xb.telem.cellsOut key (tget 0 s.xb.telem.cellsOut key + 1) } } }
  else s

/-- A copy's next cell leaves on its link and enters the replay store. -/
def State.sendCell (s : State) (l : Nat) (c : Copy) : State :=
  match s.pk c.pid with
  | none => s
  | some k =>
    let x := s.link l
    let ctx := c.ctx.getD (x.freeCtx.getD 0)
    let i := c.left
    let mark := if k.marks.contains i || c.marks.contains i then 1 else 0
    let cell := k.cell i ctx mark
    let (s, k) := if i = 0 then s.mirror k 1 0 (s.ioCode c.out) (numAt cell 0 8) else (s, k)
    let s := s.modPk k.pid (fun _ => k)
    let s := if k.badAt i then s.bufferCell k.inp k.pkt else s
    let s := s.setLink l { s.link l with
      txCtx := tput (s.link l).txCtx ctx c.id
      credit := tset 0 (s.link l).credit k.pkt.cls (tget 0 (s.link l).credit k.pkt.cls - 1)
      replay := (s.link l).replay ++ [(x.txSeq, cell)], sent := x.replay.length + 1, txSeq := (x.txSeq + 1) % 2 ^ 14 }
    let s := ((s.sendFlit l fkCell x.txSeq cell).countOut c.out k.pkt.cls).releaseCell c.pid i
    let c := { c with ctx := some ctx, left := i + 1 }
    if k.isLast i then s.dropCopy c else (s.modCopy c.id (fun _ => c)).settlePk c.pid

/-- A link exchanges flits: in stage 4 or ACTIVE; a trunk once it is active (R475, R575). -/
def State.exchanges (s : State) (l : Nat) : Bool :=
  if l < 128 then s.portState l == psCap || s.portState l == psActive
  else if l = tapLink then s.host.tapStage == psCap || s.tapUp
  else s.trunkUp (l - 128)

/-- A link in stage 3 sends its codewords and markers, which hold IDLE flits (R475). DEDUCED: assumption 78. -/
def State.locking (s : State) (l : Nat) : Bool :=
  if l < 128 then s.portState l == psLock else if l = tapLink then s.host.tapStage == psLock else s.trunksRun && (s.trunk (l - 128)).stage == 3

/-- The next flit of a link: TIME, then CAP or PAIR, then cells sent again, then a new cell, else IDLE. DEDUCED: assumption 48. -/
def State.flitSlot (s : State) (l : Nat) : State :=
  let s := s.fenceSweep
  let x := s.link l
  let cells := s.linkOpen l && decide (l < 128 ∨ l ≠ tapLink ∧ s.graftState = gsPaired)
  match (if s.linkOpen l then x.timeOut else []) with
  | o :: rest => ((s.setLink l { x with timeOut := rest }).sendFlit l fkTime 0 (s.timeFlit o)).noteSent o |>.bump
  | [] =>
    if x.capOut && !s.locking l then
      let b := s.capPayload l
      let s := (s.setLink l { x with capOut := false, owed := if s.linkAct l then x.owed else [] }).sendFlit l fkCap 0 b
      if l < 128 then s.tryFullRate l else s
    else if 128 ≤ l ∧ l ≠ tapLink ∧ (s.graftState = gsIdentify ∨ s.graftState = gsSplit) then
      (s.sendFlit l fkPair 0 (s.pairPayload (l - 128))).pairSent (l - 128) s.pairSeen
    else if cells && decide (x.sent < x.replay.length) then
      let e := x.replay.getD x.sent (0, [])
      (s.setLink l { x with sent := x.sent + 1 }).sendFlit l fkCell e.1 e.2
    else
      match (if cells && decide (x.replay.length < s.replayDepth l) then s.xb.copies.find? (s.maySend l) else none) with
      | some c => s.sendCell l c
      | none => s.sendFlit l fkIdle 0 []

/-- FLIT_SLOT: the next flit slot of a port, of a trunk (128 to 131) or of Taproot (132). -/
def execFlitSlot (port : Nat) (s : State) : Res :=
  s.act (decide (port ≤ tapLink) && (s.exchanges port || s.locking port)) (s.flitSlot port)

/-! ## Reception: acknowledgements and credits (R486, R491, R493) -/

/-- The transmitter takes an acknowledgement: cells up to it leave the replay store, and a NAK sends the rest again. -/
def Link.acked (x : Link) (t : Trailer) : Link :=
  let k := if t.ackValid && x.replay.any (fun e => e.1 == t.ackSeq) then
      (x.replay.takeWhile (fun e => e.1 != t.ackSeq)).length + 1 else 0
  let x := { x with replay := x.replay.drop k, sent := x.sent - k }
  let x := if k = 0 then x else { x with nakSeq := none, nakRun := 0 }
  if t.nak then
    { x with sent := 0, nakSeq := some t.ackSeq, nakRun := if x.nakSeq = some t.ackSeq then x.nakRun + 1 else 1 }
  else x

/-- Credits of a trailer. -/
def Link.credited (x : Link) (t : Trailer) : Link :=
  let add (c : Tab Nat) (k n : Nat) : Tab Nat := tset 0 c k (tget 0 c k + n)
  { x with credit := add (add x.credit t.clsA t.cntA) t.clsB t.cntB }

/-! ## Reception: cells (R487, R489, R490, R506 to R509) -/

/-- A cell flit is discarded: the first one asks for a NAK (R490). DEDUCED: assumption 49. -/
def State.discardCell (s : State) (l : Nat) : State :=
  let x := s.link l
  if x.nakTick.isSome then s else s.setLink l { x with nakTick := some s.now, nakDue := true }

/-- A cell that fits no packet: dropped, and its packet with it (R508). -/
def State.badCell (s : State) (l cls ctx : Nat) : State :=
  let s := ((s.countAt Reg.badCell (linkIo l) 1).telemDrops (linkIo l) 1).creditBack l cls 1
  match tfind (s.link l).rxCtx ctx with
  | some pid => ((s.mirrorAt pid 2 mrBadCell 0x1FF).setLink l { s.link l with rxCtx := tdel (s.link l).rxCtx ctx }).closeAborted pid
  | none => s

/-- A first cell ends its packet. -/
def onlyCell (hdr : Nat) : Bool := nbits hdr 0 2 == 0 || nbits hdr 37 1 == 1

/-- The packet that a first cell begins (R507, R510), in its epoch (R525). -/
def State.begins (s : State) (l hdr : Nat) (cell : Bytes) : Pk :=
  let len := nbits hdr 17 8
  let p : Packet := ⟨BitVec.ofNat 192 (numAt cell 8 24), nbits hdr 2 2, bytesAt cell 32 len, nbits hdr 37 1 == 1, false⟩
  s.stampEpoch ⟨s.xb.nextId, linkIo l, p, [len], [s.xb.nextId], if nbits hdr 4 1 = 1 then [0] else [], hdr, onlyCell hdr, false, false, 0,
    [1], 0, none, [], [], [], [], s.now⟩

/-- The first cell of a packet. -/
def State.firstCell (s : State) (l hdr : Nat) (cell : Bytes) : State :=
  let k := s.begins l hdr cell
  let s : State := { s.takeId.2 with xb := { s.takeId.2.xb with pkts := s.xb.pkts ++ [k] } }
  if onlyCell hdr then s else s.setLink l { s.link l with rxCtx := tput (s.link l).rxCtx (nbits hdr 5 12) k.pid }

/-- A first cell under an open context, or with another CSEQ: it is dropped, and its mirror sessions note it (R508, R554). -/
def State.badFirst (s : State) (l hdr : Nat) (cell : Bytes) : State :=
  (s.mirror (s.begins l hdr cell) 2 mrBadCell 0x1FF hdr).1.badCell l (nbits hdr 2 2) (nbits hdr 5 12)

/-- What a later cell of a packet that goes no further, at all or to some outputs, counts: nothing of it goes on (R520, R524, R536, R541). -/
def State.countLater (s : State) (k : Pk) : State :=
  let s := match k.drop with
    | some r => (s.fadd r ⟨0, 32⟩ 1).telemDropped k 1 (r == Reg.policed k.inp)
    | none => s
  let s := s.each k.gone (fun s g => (s.fadd g.2 ⟨0, 32⟩ 1).telemDrops g.1 1)
  if k.routed && k.drop.all (· == Reg.noRoute k.inp) then s.spendPolice k.inp k.pkt.cls 1 else s

/-- A copy whose ports have been given no slot of a schedule that has taken force meanwhile is dropped (R547). DEDUCED: assumption 48. -/
def State.orphanCopy (s : State) (k : Pk) (c : Copy) : State :=
  if c.ports != [] && c.ports.all (s.orphan k.inp k.pkt.cls) then
    (s.dropPart k Reg.schedOrphan k.inp c.out mrSchedOrphan (k.n - c.left)).dropCopy c
  else s

/-- A packet with one more cell of `len` bytes, which `holders` hold. -/
def Pk.withCell (k : Pk) (hdr e holders : Nat) (cell : Bytes) (stop : Bool) : Pk :=
  let len := nbits hdr 17 8
  { k with
    pkt := { k.pkt with payload := k.pkt.payload ++ bytesAt cell 8 len, aborted := nbits hdr 37 1 == 1 }
    lens := k.lens ++ [len], ents := k.ents ++ [e], marks := if nbits hdr 4 1 = 1 then k.n :: k.marks else k.marks
    refs := k.refs ++ [holders], closed := stop }

/-- A cell ends its packet. -/
def lastCell (hdr : Nat) : Bool := nbits hdr 0 2 == 3 || nbits hdr 37 1 == 1

/-- A later cell of a packet that is open under its context. -/
def State.laterCell (s : State) (l hdr : Nat) (cell : Bytes) (k : Pk) : State :=
  let (e, s) := s.takeId
  let depths := (s.copiesOf k.pid).map (fun c => (c, s.depth c.out k.pkt.cls))
  let k' := k.withCell hdr e (if k.routed then depths.length else 1) cell (lastCell hdr)
  let s := s.modPk k.pid (fun _ => k')
  let s := if lastCell hdr then s.setLink l { s.link l with rxCtx := tdel (s.link l).rxCtx (nbits hdr 5 12) } else s
  let s := s.countLater k
  let s := s.each depths (fun s x => (s.enterCell x.1 k.pkt.cls k.n x.2).orphanCopy k' x.1)
  s.settlePk k.pid

/-- What is left of a packet whose cells come on after it has been closed: they are counted at its input by a counter. -/
def Pk.stub (k : Pk) (pid len : Nat) (reg : Nat → Nat) : Pk :=
  let n := k.n + 1
  { k with pid := pid, lens := k.lens ++ [len], ents := k.ents ++ [pid], closed := false, routed := true, engines := false, freed := n,
           refs := List.replicate n 0, own := 0, drop := if isPortIo k.inp then some (reg k.inp) else none, gone := [], vals := [] }

/-- A later cell of the inactive epoch while its version is being written: it and the rest of its packet are dropped (R530). -/
def State.epochCell (s : State) (l hdr : Nat) (k : Pk) : State :=
  let s := s.mirrorAt k.pid 2 mrEpochDrop 0x1FF
  let s := ((s.countAt Reg.epochDrop (linkIo l) 1).telemDrops (linkIo l) 1).creditBack l (nbits hdr 2 2) 1
  let ctx := nbits hdr 5 12
  let (id, s) := s.takeId
  let x := s.link l
  let s := if lastCell hdr then s.setLink l { x with rxCtx := tdel x.rxCtx ctx }
    else
      let t : State := { s with xb := { s.xb with pkts := s.xb.pkts ++ [k.stub id (nbits hdr 17 8) Reg.epochDrop] } }
      t.setLink l { x with rxCtx := tput x.rxCtx ctx id }
  s.closeAborted k.pid

/-- A cell is accepted from a link (R487, R508); one from Taproot leaves its reservation at once, the access that it carries coming as a
row of its own. DESIGN CHOICE: assumption 78. -/
def State.takeCell (s : State) (l : Nat) (cell : Bytes) : State :=
  let hdr := numAt cell 0 8
  let cls := nbits hdr 2 2
  let ctx := nbits hdr 5 12
  let x := s.link l
  if s.reserved l cls ≤ tget 0 x.held cls + tget 0 x.owed cls then
    let s := if l < 128 then
        ((s.fadd (Reg.portDropped l) F.portDropped_count 1).fset (Reg.portEvents l) F.portEvents_creditOverrun 1).telemDrops l 1
      else s
    s.logUnit 0x03 5 1 (s.linkUnit l) (logDetail none none 0 (s.firstLane l))
  else if l = tapLink then
    let s := s.setLink l { x with held := tset 0 x.held cls (tget 0 x.held cls + 1) }
    s.creditBack l cls 1
  else
    let s := (s.countAt Reg.cellsIn (linkIo l) 1).setLink l { x with held := tset 0 x.held cls (tget 0 x.held cls + 1) }
    let open_ := tfind (s.link l).rxCtx ctx
    if nbits hdr 0 2 ≤ 1 then
      if open_.isSome || nbits hdr 25 12 != 0 then s.badFirst l hdr cell else s.firstCell l hdr cell
    else
      match open_.bind s.pk with
      | none => s.badCell l cls ctx
      | some k =>
        if nbits hdr 25 12 != k.n then s.badCell l cls ctx
        else if s.flag Reg.routeStatus F.routeStatus_writing && k.routed && k.drop.isNone && pget k.pkt Ph.repoch != s.activeEpoch then
          s.epochCell l hdr k
        else s.laterCell l hdr cell k

/-- The cell of a flit whose checks have passed: taken in sequence, or discarded (R489). -/
def State.cellFlit (s : State) (l : Nat) (t : Trailer) (cell : Bytes) : State :=
  let x := s.link l
  if t.seq != x.rxNext then s.discardCell l
  else
    let n := x.sinceAck + 1
    (s.setLink l { x with rxNext := (x.rxNext + 1) % 2 ^ 14, rxAny := true, nakTick := none, nakDue := false, sinceAck := n,
                          ackDue := x.ackDue || decide (64 ≤ n) }).takeCell l cell

/-- Eight NAKs in a row for one cell retrain a port (R493). -/
def State.nakRetrain (s : State) (l : Nat) : State :=
  if l < 128 ∧ 8 ≤ (s.link l).nakRun ∧ s.portState l = psActive then
    s.startRetrain l (s.fget (Reg.portStatus l) F.portStatus_rate)
  else s

/-- The health unit of a lane of a link (R602). -/
def laneUnit (l lane : Nat) : Nat := unitLane (expertLane l lane)

/-- Codewords of a lane that the FEC has corrected, with the symbols in them (R411, R502, R615). -/
def State.fecFixed (s : State) (l : Nat) (x : Nat × Nat × Nat) : State :=
  let u := laneUnit l x.1
  let s : State := { s with shed := { s.shed with corrected := tset 0 s.shed.corrected u (tget 0 s.shed.corrected u + x.2.2) } }
  if l < 128 then (s.fadd (Reg.laneFecSym x.1) F.laneFecSym_count x.2.1).fadd (Reg.laneFecCw x.1) F.laneFecCw_count x.2.2
  else if l = tapLink then s.fadd (s.ownTap Reg.tapFecCorr) ⟨0, 32⟩ x.2.2
  else s

/-- A codeword of a lane that the FEC cannot correct, counted once whatever flits lie in it (R411, R502, R615). -/
def State.fecLost (s : State) (l lane : Nat) : State :=
  (if l < 128 then s.fadd (Reg.laneFecUnc lane) F.laneFecUnc_count 1
   else if l = tapLink then s.fadd (s.ownTap Reg.tapFecUncorr) ⟨0, 32⟩ 1
   else s).addPoints (laneUnit l lane) 4

/-- What a link's receiver did: its lanes' counters and health, and the taps that have adapted (R469, R502, R615). -/
def State.countFec (s : State) (l : Nat) (f : Fec) : State :=
  let s := s.each f.fixed (fun s x => s.fecFixed l x)
  let s := s.each f.bad (fun s x => s.fecLost l x)
  s.each f.taps (fun s x => s.adaptTap l x)

/-- A flit is taken from its slot: discarded, or its acknowledgements, credits and cell taken (R489, R491). -/
def State.takeFlit (s : State) (port : Nat) (bad : Bool) (flit : Bytes) : State :=
  let t := Trailer.read (numAt flit 256 12)
  if bad || !flitCrcOk flit then
    let s := if !bad && decide (port < 128) then s.fadd (Reg.portCrcErr port) F.portCrcErr_count 1 else s
    if t.kind = fkCell ∧ s.linkOpen port then s.discardCell port else s
  else
    let s := s.setLink port (((s.link port).acked t).credited t)
    let s := if t.kind = fkCell ∧ s.linkOpen port then s.cellFlit port t (flit.take 256) else s
    s.nakRetrain port

/-- The flits whose slot has come are taken, in the order of their slots (R472). -/
def State.takeSlots (s : State) (l : Nat) : Nat → State
  | 0 => s
  | n + 1 =>
    match s.nextFlit l with
    | some e => ((s.pullFlit l e).takeFlit l e.2.1 e.2.2).takeSlots l n
    | none => s

/-- CELL_FLIT: a flit of 272 bytes arrives on a logical lane of a port, a trunk or Taproot (132); `fec` says what the receiver did up to
its end. DEDUCED: assumptions 49 and 51. -/
def execCellFlit (place : LaneAt) (fec : Fec) (flit : Bytes) (s : State) : Res :=
  s.act (decide (place.link ≤ tapLink) && s.exchanges place.link)
    (let s := (s.countFec place.link fec).arrived place.link place.lane fec.cut flit
     s.takeSlots place.link (s.link place.link).rxWait.length)

/-- ACK_TIMER: 200 ns (190 ticks) since the latest acknowledgement, or 500 ns (475 ticks) since the latest NAK, have passed (R490). -/
def execAckTimer (port : Nat) (s : State) : Res :=
  let x := s.link port
  let nak := x.nakTick.any (fun t => decide (t + 475 ≤ s.now))
  let ack := decide (x.ackTick + 190 ≤ s.now)
  s.act (decide (port ≤ tapLink) && s.linkOpen port && (nak || ack))
    (s.setLink port { x with nakDue := x.nakDue || nak, nakTick := if nak then some s.now else x.nakTick, ackDue := true })

end Sys2Proof.Machine
end

