-- ==== Sys2Proof/Machine/Intake.lean ====
section
/-! DEFINITION. How commands enter the part: the reading of descriptors and the release of waits. -/
namespace Sys2Proof.Machine

/-- A descriptor that has been read is held, or checked and accepted (R382, R423, R428). -/
def State.takeDesc (s : State) (ring : Nat) (d : BitVec 512) : State :=
  if bget D.opcode d = 0x12 ∧ 1024 ≤ s.launches.length ∧ descCheck s ring d = none then
    let s := s.setRingX ring { s.ringX ring with heldDesc := some d }
    { s with host := { s.host with rr := ring } }
  else s.accept ring d

/-- An uncorrectable error in a job-table entry: the job ends (R450, R651). -/
def State.jobTableLost (s : State) (j : Nat) : State :=
  (s.logEvent 0x07 5 2 0 (logDetail (some j) none 0 0) none).endJob j

/-- DESCRIPTOR_READ: the next ready ring's descriptor is read at its place in the command ring, checked and accepted (R420, R423, R424,
R428); a held descriptor is never read again. `upset` is what the read of the job-table entry finds. DESIGN CHOICE: assumption 9. -/
def execDescriptorRead (ring : Nat) (desc : Option (BitVec 512)) (upset : Upset) (s : State) : Res :=
  s.act (s.nextRing == some ring)
    (if upset == .ecc then s.jobTableLost (s.ringJob ring)
     else match (s.ringX ring).heldDesc with
      | some d => s.accept ring d
      | none =>
        let s := s.hostRead (s.ringCard ring) (s.descAddr ring (s.cmdHead ring)) 64
        match desc with
        | none => (s.haltRing ring 2).hostReadErr (s.ringCard ring) ring (some (s.ringJob ring))
        | some d => s.takeDesc ring d)

/-- A command becomes free of its waits in this tick (R433). -/
def State.freeWaits (s : State) (c : Ref) : State :=
  let s := s.modCtx c (fun y => { y with phase := .free, freeTick := s.now })
  { s with host := { s.host with relNow := true } }

/-- A command ends with UNCORRECTABLE whatever it has begun: an operation in flight, a NORM and a program abort, and what else waits for it
stops (R262, R278, R651). -/
def State.ctxLost (s : State) (x : Ctx) : State :=
  let s := s.logEvent 0x07 4 2 0 (logDetail (some (s.ringJob x.ring)) none 0 0) none
  let mine (r : Ref) : Bool := r == x.ref
  match (s.opOf x.ref).filter Op.live, s.norms.find? (fun r => mine r.ref), s.vy.filter (fun p => mine ⟨p.ring, p.idx⟩) with
  | some o, _, _ => s.abortOwn o stUncorrectable
  | none, some r, _ => s.failNorm r stUncorrectable
  | none, none, some p => s.vyEnd p stUncorrectable none 0
  | none, none, none =>
    let s : State := { s.dropWaits mine with
      restores := s.restores.filter (fun r => !mine ⟨r.ring, r.idx⟩), sieves := s.sieves.filter (fun r => !mine ⟨r.ring, r.idx⟩) }
    let s := if x.opcode = 0x0B && x.phase == .run then s.modJob (s.ringJob x.ring) (fun b => b.dropHandle (x.p 0 32)) else s
    (s.endCmd x.ref stUncorrectable).countLaunches

/-- WAIT_RELEASE: an accepted command becomes free of its waits (R433), but not in the tick of a step of the counter (R374); or what the part
reads of the context of a command, wherever the command stands, is uncorrectable (R651). DEDUCED: assumption 65. -/
def execWaitRelease (c : Ref) (upset : Upset) (s : State) : Res :=
  match s.ctx c with
  | none => .next s
  | some x =>
    s.act (upset == .ecc || (x.phase == .waits && s.waitsSet x && !s.time.stepNow))
      (if upset == .ecc then s.ctxLost x else s.freeWaits c)

end Sys2Proof.Machine
end

