-- ==== Sys2Proof/Machine/Mail.lean ====
section
/-! DEFINITION. The mailbox: its requests, its checks and its responses. -/
namespace Sys2Proof.Machine

/-- A request as read from host memory (R599). -/
structure Mail where
  op : Nat
  package : Nat
  seq : Nat
  reserved : Bool
  payload : Bytes
  deriving DecidableEq, Repr

/-- The fields of a request. DEDUCED: assumption 27. -/
def readMail (b : Bytes) : Mail :=
  let h := numAt b 0 64
  ⟨nbits h 0 8, nbits h 8 1, nbits h 32 32, nbits h 9 23 != 0 || nbits h 96 416 != 0, bytesAt b 64 (nbits h 64 32)⟩

/-- A field of a request's payload. -/
def Mail.field (q : Mail) (lo w : Nat) : Nat := nbits (ofLe q.payload) lo w

/-- The response of a request is written, with DONE and vector 1; a response that does not fit leaves its header only (R599, R600).
DEDUCED: assumption 57. -/
def State.respondTo (s : State) (m : Master) (respOk : Bool) (op package seq status : Nat) (payload : Bytes) : State :=
  let st := cardReg m Reg.mbxStatus
  let s := s.fset st F.mbxStatus_busy 0
  if !respOk then s.fset st F.mbxStatus_hostFault 1
  else
    let need := 64 + payload.length
    let fits := decide (need ≤ s.fget (cardReg m Reg.mbxRespLen) F.mbxRespLen_len)
    let h (len code : Nat) : Bytes := leBytes 64 (op % 256 + 2 ^ 8 * (package % 2) + 2 ^ 32 * (seq % 2 ^ 32)
      + 2 ^ 64 * (len % 2 ^ 32) + 2 ^ 96 * (code % 2 ^ 16) + 2 ^ 112 * (s.now % 2 ^ 64))
    let b := if fits then h payload.length status ++ payload else h need stBadField
    let s := s.emit (.hostWrite (s.rget (cardReg m Reg.mbxRespAddr)).toNat b)
    (s.fset st F.mbxStatus_done 1).msix (masterCard m) 1

/-- The response of a request that is served at once. -/
def State.respond (s : State) (m : Master) (respOk : Bool) (q : Mail) (status : Nat) (payload : Bytes) : State :=
  s.respondTo m respOk q.op q.package q.seq status payload

/-- Requests that the boot ROM serves in RECOVERY (R626). -/
def recoveryServes (op : Nat) : Bool := op == 0x01 || op == 0x0A || op == 0x0B || op == 0x0C

/-- Requests of the expert level (R602). -/
def isExpertOp (op : Nat) : Bool := op == 0x0E || op == 0x0F || op == 0x10

/-- Shed does not serve the request: it restarts, shuts down, or is in RECOVERY (R594, R601, R626, R638). DEDUCED: assumption 57. -/
def State.shedBusy (s : State) (op : Nat) : Bool :=
  let b := s.bootState
  b == bsRom || b == bsRestarting || (b == bsRecovery && !recoveryServes op) || s.shed.shutdown.isSome
    || s.flag Reg.shedStatus F.shedStatus_quiesced

/-- The status of a request that fails before its own rules; `need` is the least payload of the request.
DESIGN CHOICE: assumption 12. DEDUCED: assumptions 27 and 57. -/
def State.mailCheck (s : State) (q : Mail) (need : Nat) : Option Nat :=
  if s.shedBusy q.op then some stShedBusy
  else if q.op = 0 ∨ 0x12 < q.op then some stBadOpcode
  else if isExpertOp q.op && !s.gateOpen then some stNotPermitted
  else if q.reserved || q.package != s.pkgNo || decide (q.payload.length < need) then some stBadField
  else none

/-- A request is read from MBX_REQ_ADDR: its header, then its payload (R599). -/
def State.readRequest (s : State) (m : Master) (len : Nat) : State :=
  let a := (s.rget (cardReg m Reg.mbxReqAddr)).toNat
  let s := s.hostRead (masterCard m) a 64
  if len = 0 then s else s.hostRead (masterCard m) (a + 64) len

/-- A mailbox request whose GO a host has written: BUSY loses it, a failed read ends it, and a request of another operation is
left to that operation's row. One for the other package of a pair is handed to it, and its Shed's answer, of which this package knows no more
than its form, comes back through the card (R599 to R602). DEDUCED: assumption 27. DESIGN CHOICE: assumption 7. -/
def State.mail (s : State) (m : Master) (req : MbxReq) (op need : Nat) (f : State → Mail → State) : Res :=
  let st := cardReg m Reg.mbxStatus
  s.act (m != .shed)
    (if s.flag st F.mbxStatus_busy then s.fset st F.mbxStatus_lost 1
     else match req.bytes with
       | none => ((s.readRequest m 0).fset st F.mbxStatus_hostFault 1).fset (cardReg m Reg.tapEvents) F.tapEvents_hostReadErr 1
       | some b =>
         let q := readMail b
         let reserved := decide (q.op = 0 ∨ 0x12 < q.op)
         if q.op != op && !reserved then s
         else
           let t := s.readRequest m q.payload.length
           if s.flag Reg.partId F.partId_grafted && q.package != s.pkgNo && !s.shedBusy q.op && !reserved then
             let a := Config.peerMail s.freeCtr
             ((t.emit (.forward Reg.mbxGo 1)).bump).respond m req.respOk q a.1 a.2
           else match s.mailCheck q need with
             | some st => t.respond m req.respOk q st []
             | none => f t q)

end Sys2Proof.Machine
end

