-- ==== Sys2Proof/Machine/Slices.lean ====
section
/-! DEFINITION. Self-test in service: slices of beds and of pseudo-channel windows, patrol scrub, and the full BIST. -/
namespace Sys2Proof.Machine

/-! ## Units and their engines (R602, R620, R640) -/

/-- Users of the resource-owner table that slices and scrub are. -/
def ruPeriodic : Nat := 12
def ruRequested : Nat := 13
def ruScrub : Nat := 15

def reSlice (die : Nat) : Nat := 5 + die

def isBedUnit (u : Nat) : Bool := decide (656 ≤ u ∧ u < 928)
def isPcUnit (u : Nat) : Bool := decide (928 ≤ u ∧ u < 1696)
def bedOf (u : Nat) : Nat := u - 656
def pcOf (u : Nat) : Nat := u - 928

/-- The compute die of a bed or pseudo-channel (R596). -/
def unitDie (u : Nat) : Nat := if isBedUnit u then (bedStop (bedOf u)).2 / 2 else pcOf u / 96

/-- The entries that a slice of a unit holds. -/
def sliceEntries (u : Nat) : List Nat :=
  if isBedUnit u then [reSlice (unitDie u)] else [reSlice (unitDie u), reStack (pcOf u / 32)]

/-- STATE of a unit that is back in service: REPAIRED where rows of it are remapped (R617). -/
def State.restState (s : State) (u : Nat) : Nat :=
  if isPcUnit u && s.remapUsed (pcOf u / 32) (pcOf u % 32) != 0 then 2 else 0

def State.sliceOf (s : State) (u : Nat) : Option SliceRun := s.shed.slices.find? (fun r => r.unit == u)

def State.dropSlice (s : State) (u : Nat) : State :=
  { s with shed := { s.shed with slices := s.shed.slices.filter (fun r => r.unit != u) } }

/-- A slice takes an entry; a post-package repair that took it in the same tick has failed (R621, R622). -/
def State.sliceTake (s : State) (e user : Nat) : State :=
  let k := e - reStack 0
  let s : State := if s.resUser e = ruRepair then
    (({ s with shed := { s.shed with ppr := s.shed.ppr.filter (fun x => x.stack != k) } } : State).fset (Reg.pprStatus k) F.pprStatus_busy 0).fset
      (Reg.pprStatus k) F.pprStatus_refused 1
    else s
  s.resTake e user

/-- A unit goes to OUT for a slice or a REPAIR, with the entries that it needs (R641, R645). -/
def State.startSlice (s : State) (r : SliceRun) (user : Nat) : State :=
  let s := s.each (sliceEntries r.unit) (fun s e => s.sliceTake e user)
  let s := s.setUnitState r.unit 1
  { s with shed := { s.shed with slices := s.shed.slices ++ [r] } }

/-- The entries of a slice are free again. -/
def State.freeSlice (s : State) (r : SliceRun) : State :=
  let user := if r.requested then ruRequested else ruPeriodic
  s.each (sliceEntries r.unit) (fun s e => if s.resUser e = user then s.resFree e else s)

/-- A unit may be sliced: a bed that is neither fused off nor failed, or a pseudo-channel that has not failed. -/
def State.sliceable (s : State) (u : Nat) : Bool :=
  (if isBedUnit u then decide (s.bedState (bedOf u) ≤ bedSpare) else s.unitState u != 3) && (s.sliceOf u).isNone

/-- Place n of a die's rotation: its 34 beds, then the 128 windows of each of its 96 pseudo-channels (R640). DEDUCED: assumption 58. -/
def rotUnit (die n : Nat) : Nat × Nat :=
  if n < 34 then (unitBed (34 * die + n), 0) else (unitPc (96 * die + (n - 34) / 128), (n - 34) % 128)

/-- Places of a die's rotation. -/
def rotSize : Nat := 34 + 96 * 128

/-- The next place of a die's rotation that BEDS and PCS include. DEDUCED: assumption 58. -/
def State.nextPlace (s : State) (die : Nat) : Option Nat :=
  let p := tget 0 s.shed.rot die
  ((List.range rotSize).map (fun i => (p + i) % rotSize)).find? (fun n =>
    s.flag Reg.sliceCtrl (if n < 34 then F.sliceCtrl_beds else F.sliceCtrl_pcs) && s.sliceable (rotUnit die n).1)

/-- Ticks between the slices of a die: 2^INTERVAL_LOG2, whose values below 24 and above 32 act as 27 (R598, R640). -/
def State.sliceInterval (s : State) : Nat :=
  let n := s.fget Reg.sliceCtrl F.sliceCtrl_intervalLog2
  2 ^ (if 24 ≤ n ∧ n ≤ 32 then n else 27)

/-- PERIODIC_SLICE: a die's interval is over, and its next bed or window goes to OUT; held entries are waited for (R622, R640). -/
def execPeriodicSlice (die : Nat) (s : State) : Res :=
  s.act (decide (die < 8) && s.flag Reg.sliceCtrl F.sliceCtrl_periodic && s.bootState == bsRunning && !s.retired && !s.quiesced
      && decide (s.sliceInterval ≤ s.sinceTick (3 + die)))
    (match s.nextPlace die with
      | none => s
      | some n =>
        let (u, w) := rotUnit die n
        if (sliceEntries u).any (fun e => s.resUser e != 0) then s
        else
          let s : State := { s with shed := { s.shed with rot := tset 0 s.shed.rot die ((n + 1) % rotSize) } }
          (s.startSlice ⟨u, w, false, false, .waiting, s.now, .shed, 0, 0⟩ ruPeriodic).restartTick (3 + die))

/-- A bed is empty: no stripe of an operation that still accepts, and no tile or scratch of a program; a STEP makes its updates within one command,
so that no update block is in progress between commands (R641). DEDUCED: assumption 58. -/
def State.bedEmpty (s : State) (b : Nat) : Bool :=
  !s.ops.any (fun o => o.live && o.stage == .accepting && o.place.contains b) && !s.vy.any (fun p => p.place.contains b || p.beds.contains b)
    && !s.sieves.any (fun r => r.place.contains b)

/-- A request of the mailbox that waited for its unit is answered. -/
def State.answerSlice (s : State) (r : SliceRun) (status : Nat) : State :=
  if r.requested then s.respondTo r.master true (if r.repair then 0x0F else 0x0E) r.package r.seq status [] else s

/-- A bed that has failed a test: a spare serves in its place; a failed spare only leaves the spares (R644). -/
def State.bedFailed (s : State) (b : Nat) : State :=
  if s.bedState b = bedActive then s.repairBed b
  else if s.bedState b = bedSpare then
    let s := (s.mapBed (b, b)).failBed (unitBed b) 3
    let s : State := { s with nv := { s.nv with softBeds := s.nv.softBeds ++ [(b, b)] } }
    s.logUnit 0x0B 2 1 (unitBed b) b
  else s

/-- SLICE_BEGIN: the unit is empty, within 2^27 ticks where it is a bed, and the slice runs. A window's slice keeps its contents in the scrub rows,
and what reads them waits. A REPAIR treats the bed as failed, unless a test has taken it out of service meanwhile (R5, R641, R642, R645).
DEDUCED: assumption 58. -/
def execSliceBegin (unit : Nat) (s : State) : Res :=
  match s.sliceOf unit with
  | none => .next s
  | some r =>
    s.act (r.stage == .waiting && (!isBedUnit unit || (s.bedEmpty (bedOf unit) && decide (s.now < r.tick + 2 ^ 27))))
      (if r.repair then
        let s := (s.freeSlice r).dropSlice unit
        (s.bedFailed (bedOf unit)).answerSlice r stOk
       else { s with shed := { s.shed with
        slices := updFirst (fun x => x.unit == unit) (fun x => { x with stage := .running, tick := s.now }) s.shed.slices } })

/-- SLICE_DEFERRED: the bed did not empty within 2^27 ticks, and the slice is skipped (R641). -/
def execSliceDeferred (unit : Nat) (s : State) : Res :=
  match s.sliceOf unit with
  | none => .next s
  | some r =>
    s.act (r.stage == .waiting && decide (r.tick + 2 ^ 27 ≤ s.now))
      (let s := (((s.freeSlice r).dropSlice unit).setUnitState unit (s.restState unit)).logUnit 0x0A 2 0 unit 0
       s.answerSlice r stTimeout)

/-- A pseudo-channel that has failed a test: the row that failed is remapped (R646). -/
def State.pcFailed (s : State) (u : Nat) : State :=
  let row := Config.failedRow s.freeCtr % 2 ^ 22
  s.bump.remapRow (pcOf u / 32) (pcOf u % 32) row

/-- A unit that failed a slice or a full BIST is repaired softly (R644, R646). -/
def State.unitFailed (s : State) (u : Nat) : State :=
  if isBedUnit u then s.bedFailed (bedOf u) else if isPcUnit u then s.pcFailed u else s

/-- SLICE_END: the 2 ms of a slice are over (R640 to R644). DEDUCED: assumption 45. -/
def execSliceEnd (unit : Nat) (passed : Bool) (s : State) : Res :=
  match s.sliceOf unit with
  | none => .next s
  | some r =>
    s.act (r.stage == .running && decide (r.tick + 1900000 ≤ s.now))
      (let s := ((s.freeSlice r).dropSlice unit).setUnitState unit (s.restState unit)
       let s := s.fset Reg.sliceStatus F.sliceStatus_doneCount (s.fget Reg.sliceStatus F.sliceStatus_doneCount + 1)
       let s := if passed then
           { s with shed := { s.shed with scores := tset 0 s.shed.scores unit (tget 0 s.shed.scores unit % 2 ^ 15) } }
         else
           let s := s.fadd Reg.sliceStatus F.sliceStatus_failCount 1
           let s := (s.fset Reg.shedEvents F.shedEvents_sliceFail 1).logUnit 0x0A 1 1 unit 0
           (s.unitFailed unit).failScore unit
       s.answerSlice r stOk)

/-! ## PATROL_SCRUB (R615, R654, R658, R659) -/

/-- The stack that holds a line of 512 B. -/
def lineStack (line : Nat) : Nat := line / 2 ^ 26

/-- A corrected error of a pseudo-channel: a point for every sixteenth (R615). -/
def State.correctedError (s : State) (u : Nat) : State :=
  let n := tget 0 s.shed.corrected u + 1
  let s : State := { s with shed := { s.shed with corrected := tset 0 s.shed.corrected u (n % 16) } }
  if n % 16 = 0 then s.addPoints u 1 else s

/-- A line found uncorrectable enters the lost-line list; a full list ends the line's job, or wipes the line (R654, R659). -/
def State.loseLine (s : State) (line : Nat) : State :=
  if (tfind s.shed.lost line).isSome ∨ s.shed.lost.length < 4096 then s.setLost (tput s.shed.lost line 0xFF)
  else match s.lineJob line with
    | some j => (s.endJob j).logUnit 0x08 1 3 (lineUnit line) (logDetail (some j) none 0 (line % 2 ^ 21))
    | none => s

/-- Patrol scrub may use a stack's port: it is free, or scrub holds it in this tick already (R620, R622). -/
def State.scrubMay (s : State) (stack : Nat) : Bool := s.resUser (reStack stack) == 0 || s.resUser (reStack stack) == ruScrub

/-- Patrol scrub holds a port to the end of the tick (R620, R622). DEDUCED: assumption 58. -/
def State.scrubTick (s : State) : State :=
  s.each ((List.range stackTotal).filter (fun k => s.resUser (reStack k) == ruScrub)) (fun s k => s.resFree (reStack k))

/-- PATROL_SCRUB: a line is read: sound (0), corrected (1) or uncorrectable (2), which in a FAILED pseudo-channel is nothing new; a held port is
waited for (R620, R622, R676). DEDUCED: assumption 58. -/
def execPatrolScrub (line found : Nat) (s : State) : Res :=
  s.act (s.flag Reg.service F.service_storeReady && decide (line < 24 * 2 ^ 26) && s.scrubMay (lineStack line))
    (let s := s.resTake (reStack (lineStack line)) ruScrub
     let s := if line < s.shed.scrubPos then
         s.fset Reg.scrubPasses F.scrubPasses_passes (s.fget Reg.scrubPasses F.scrubPasses_passes + 1) else s
     let s : State := { s with shed := { s.shed with scrubPos := line } }
     let u := lineUnit line
     if found = 1 then s.correctedError u
     else if found = 2 && s.unitState u != 3 then
       let s := (s.addPoints u 64).addPoints (unitStack (lineStack line)) 16
       (s.loseLine line).logUnit 0x08 5 1 u (logDetail none none 0 (line % 2 ^ 21))
     else s)

/-! ## FULL_BIST_COMPLETE (R638, R639) -/

/-- A slice or a REPAIR of a unit that a full BIST has found failed has nothing left to do. DEDUCED: assumption 58. -/
def State.overtake (s : State) (u : Nat) : State :=
  match s.sliceOf u with
  | some r => ((s.freeSlice r).dropSlice u).answerSlice r stOk
  | none => s

/-- FULL_BIST_COMPLETE: the full BIST of a SHUTDOWN, or of a boot, ends with the units that failed. DESIGN CHOICE: assumption 56. -/
def execFullBistComplete (failed : List Nat) (s : State) : Res :=
  let t := s.each failed (fun s u => ((s.overtake u).logUnit 0x0A 3 1 u 0).unitFailed u)
  match s.shed.shutdown with
  | some w =>
    s.act true
      (let beds := t.nv.softBeds.drop s.nv.softBeds.length
       let rows := t.nv.softRows.drop s.nv.softRows.length
       let s : State := { t with
         aon := { t.aon with record := some ⟨failed, beds, rows, bistDigest failed beds rows t.aon.bootCount, t.aon.bootCount⟩ }
         shed := { t.shed with shutdown := none } }
       let s := s.fset Reg.shedStatus F.shedStatus_quiesced 1
       s.respondTo w.master true w.op w.package w.seq stOk (failed.flatMap (leBytes 2)))
  | none =>
    s.act s.shed.bootBist (({ t with shed := { t.shed with bootBist := false } } : State).tryStoreReady)

end Sys2Proof.Machine
end

