-- ==== Sys2Proof/Machine/Restart.lean ====
section
/-! DEFINITION. The restart of Shed and its return to service. -/
namespace Sys2Proof.Machine

/-- CLK_THROTTLE at a depth of sixteenths for both cuts (R392, R606). -/
def State.setThrottle (s : State) (n : Nat) : State :=
  (s.fset Reg.clkThrottle F.clkThrottle_arithCut n).fset Reg.clkThrottle F.clkThrottle_threadCut n

/-- The depth in force. -/
def State.throttle (s : State) : Nat := s.fget Reg.clkThrottle F.clkThrottle_arithCut

/-- The depth takes its new value, with THROTTLED and the entries of R610. DEDUCED: assumption 63. -/
def State.applyThrottle (s : State) (depth cause : Nat) : State :=
  let old := s.throttle
  let depth := if s.shed.restartFloor then max 8 depth else depth
  let s := (s.setThrottle depth).fset Reg.shedStatus F.shedStatus_throttleCause cause
  if old = 0 ∧ depth ≠ 0 then (s.fset Reg.shedEvents F.shedEvents_throttled 1).logEvent 0x02 1 0 0 depth none
  else if old ≠ 0 ∧ depth = 0 then s.logEvent 0x02 2 0 0 0 none
  else s

/-- Health scores and band counters start again from 0; STATE stays with the unit (R594, R617). -/
def State.clearHealth (s : State) : State :=
  { s with shed := { s.shed with
    scores := s.shed.scores.filterMap (fun e => let v := 2 ^ 11 * nbits e.2 11 2; if v = 0 then none else some (e.1, v))
    points := [], bands := [], corrected := [] } }

/-- The controller restarts from flash: BOOT_STATE RESTARTING and the throttle floor; without a valid image it stays in RECOVERY
(R594, R626). DEDUCED: assumption 63. -/
def State.restartShed (s : State) : State :=
  let s := s.clearHealth
  let s : State := { s with shed := { s.shed with restartFloor := true, cut := 0, calm := 0, fw := none } }
  let s := s.applyThrottle s.throttle (s.fget Reg.shedStatus F.shedStatus_throttleCause % 8 + 8)
  s.toBoot (if s.imageValid then bsRestarting else bsRecovery)

/-- The image runs again after a restart: RESTARTED and the entry RESTART (R594). -/
def State.shedRuns (s : State) : State :=
  let s : State := { s.startImage with shed := { s.startImage.shed with restartFloor := false } }
  let s := (s.toBoot bsRunning).fset Reg.shedEvents F.shedEvents_restarted 1
  s.logEvent 0x0C 1 1 0 0 none

/-- A new image starts out of RECOVERY without a reset: after a reset the boot goes on, after a restart Shed runs again (R626). -/
def State.leaveRecovery (s : State) : State :=
  if s.pwr.recovery then
    ((({ s with pwr := { s.pwr with recovery := false } } : State).startImage.toBoot bsRunning).bootRepairs).tryStoreReady
  else s.shedRuns

end Sys2Proof.Machine
end

