-- ==== Sys2Proof/Machine/Mailbox.lean ====
section
/-! DEFINITION. The requests of the mailbox. -/
namespace Sys2Proof.Machine

/-- States of the lifecycle (R407, R632). -/
def lcBlank : Nat := 0
def lcMaker : Nat := 1
def lcField : Nat := 2
def lcReturn : Nat := 3
def lcRetired : Nat := 4

def State.lifecycle (s : State) : Nat := s.fget Reg.lifecycleReg F.lifecycleReg_state

/-! ## Identity and attestation (R602, R627 to R629) -/

/-- The payload of IDENTITY: SERIAL, the key of 57 B, and at most 8 KiB of certificates (R602, R627). DESIGN CHOICE: assumption 59. -/
def State.identityBytes (s : State) : Bytes := leBytes 8 s.nv.serial.toNat
  ++ bytesAt (if s.nv.identity then Config.identityKey else Config.noKey) 0 57 ++ Config.certChain.take 8192

/-- IDENTITY: serial, identity public key and certificate chain. -/
def execIdentity (m : Master) (req : MbxReq) (s : State) : Res :=
  s.mail m req 0x01 0 (fun s q => s.respond m req.respOk q stOk s.identityBytes)

/-- Bytes 0 to 255 of a quote (R629). -/
def State.quoteBody (s : State) (nonce : Bytes) : Bytes :=
  let word : Nat := 0x544F55514F494C50 + 2 ^ 64 * 1 + 2 ^ 80 * s.nv.serial.toNat
    + 2 ^ 144 * (s.lifecycle % 8) + 2 ^ 147 * (s.fget Reg.partId F.partId_grade % 4)
    + 2 ^ 149 * (s.fget Reg.stepping ⟨0, 16⟩) + 2 ^ 165 * s.fget Reg.partId F.partId_grafted + 2 ^ 166 * (s.pkgNo % 2)
    + 2 ^ 192 * s.now + 2 ^ 256 * s.aon.bootCount.toNat + 2 ^ 288 * (fwSvn s.shed.runningHeader % 2 ^ 16)
    + 2 ^ 304 * (s.nv.svnFloor % 2 ^ 16)
  let beds := (List.range 272).foldl (fun v b => v + 2 ^ (2 * b) * (tget 0 s.nv.bedFuse b % 4)) 0
  leBytes 40 word ++ bytesAt nonce 0 64 ++ s.fwDigest
    ++ shake256 (Config.fuseMap s.nv.svnFloor s.nv.lifecycle s.nv.bedFuse s.nv.fusedRows) 32 ++ leBytes 88 beds

/-- QUOTE: a signed quote over a nonce of 64 B. DESIGN CHOICE: assumption 12. -/
def execQuote (m : Master) (req : MbxReq) (s : State) : Res :=
  s.mail m req 0x02 64 (fun s q =>
    if s.lifecycle = lcBlank ∨ s.lifecycle = lcRetired then s.respond m req.respOk q stWrongLifecycle []
    else
      let body := s.quoteBody q.payload
      s.respond m req.respOk q stOk (body ++ bytesAt (Config.identitySign body) 0 114 ++ leBytes 14 0))

/-! ## The trouble log (R613, R614) -/

/-- SEQ of an entry. -/
def entrySeq (e : BitVec 256) : Nat := bget ⟨64, 32⟩ e

/-- OLDEST_SEQ: with no entry held, that of the next entry. -/
def State.oldestSeq (s : State) : Nat :=
  match s.aon.log with
  | e :: _ => entrySeq e
  | [] => s.aon.nextSeq.toNat

/-- The payload of LOG_FETCH. DEDUCED: assumption 61. -/
def State.logBytes (s : State) (fromSeq count : Nat) : Bytes :=
  let l := (s.aon.log.filter (fun e => decide (fromSeq ≤ entrySeq e))).take count
  leBytes 4 s.oldestSeq ++ leBytes 4 s.aon.nextSeq.toNat ++ leBytes 4 s.aon.lost.toNat ++ l.flatMap (fun e => leBytes 32 e.toNat)

/-- LOG_FETCH: the held entries from FROM_SEQ on, at most COUNT of them. -/
def execLogFetch (m : Master) (req : MbxReq) (s : State) : Res :=
  s.mail m req 0x03 6 (fun s q => s.respond m req.respOk q stOk (s.logBytes (q.field 0 32) (q.field 32 13)))

/-- LOG_ACK: entries at or below UPTO_SEQ are held no longer. DEDUCED: assumption 61. -/
def execLogAck (m : Master) (req : MbxReq) (s : State) : Res :=
  s.mail m req 0x04 4 (fun s q =>
    let s : State := { s with aon := { s.aon with log := s.aon.log.filter (fun e => decide (q.field 0 32 < entrySeq e)) } }
    s.respond m req.respOk q stOk [])

/-! ## Sensors, health and power (R602, R605, R618) -/

/-- The payload of SENSORS. DESIGN CHOICE: assumption 59. -/
def State.sensorBytes (s : State) : Bytes :=
  let reg (a : Nat) : Bytes := leBytes 4 (s.rget a).toNat
  (List.range 72).flatMap (fun n => reg (Reg.temp n)) ++ (List.range 24).flatMap (fun n => reg (Reg.hbmTemp n))
    ++ reg Reg.coolantIn ++ (List.range 9).flatMap (fun r =>
      let v := s.shed.rails.getD r (0, 0)
      leBytes 4 v.1 ++ leBytes 4 v.2)

/-- SENSORS: every temperature, and the voltage and current of every rail. -/
def execSensors (m : Master) (req : MbxReq) (s : State) : Res :=
  s.mail m req 0x05 0 (fun s q => s.respond m req.respOk q stOk s.sensorBytes)

/-- Units of R602. -/
def unitTotal : Nat := 1720

/-- HEALTH_DETAIL: the score of a unit and its counters by band. DESIGN CHOICE: assumption 59. -/
def execHealthDetail (m : Master) (req : MbxReq) (s : State) : Res :=
  s.mail m req 0x06 2 (fun s q =>
    let u := q.field 0 11
    if unitTotal ≤ u then s.respond m req.respOk q stBadField []
    else s.respond m req.respOk q stOk (leBytes 4 (tget 0 s.shed.scores u)
      ++ (List.range 8).flatMap (fun b => leBytes 4 (tget 0 s.shed.bands (8 * u + b)))))

/-- The cap that a master has set. -/
def State.capOf (s : State) (m : Nat) : Option Nat := (s.shed.caps.find? (fun c => c.1 == m)).map (fun c => c.2)

/-- POWER_CAP: 1,200 to 2,600 W, or 0 to withdraw; a change writes an entry that names the master (R605). -/
def execPowerCap (m : Master) (req : MbxReq) (s : State) : Res :=
  s.mail m req 0x07 2 (fun s q =>
    let w := q.field 0 12
    let n := masterNum m
    if ¬ (w = 0 ∨ 1200 ≤ w ∧ w ≤ 2600) then s.respond m req.respOk q stBadField []
    else
      let new : Option Nat := if w = 0 then none else some w
      if new = s.capOf n then s.respond m req.respOk q stOk []
      else
        let rest := s.shed.caps.filter (fun c => c.1 != n)
        let s : State := { s with shed := { s.shed with caps := rest ++ (if w = 0 then [] else [(n, w)]) } }
        (s.logEvent 0x02 6 0 n w none).respond m req.respOk q stOk [])

/-! ## Expert grants (R630, R631) -/

/-- GATE_CHALLENGE: a fresh challenge, which replaces the one outstanding. -/
def execGateChallenge (m : Master) (req : MbxReq) (s : State) : Res :=
  s.mail m req 0x08 0 (fun s q =>
    let c := Config.random s.freeCtr % 2 ^ 256
    let e := (s.now + 2 ^ 30) % 2 ^ 64
    let s : State := { s.bump with shed := { s.bump.shed with challenge := some (c, e) } }
    s.respond m req.respOk q stOk (leBytes 32 c ++ leBytes 8 s.nv.serial.toNat ++ leBytes 8 e))

/-- The key of a grant, where the lifecycle state accepts it (R631, R632): 0 the vendor's authority key, 1 the owner key. -/
def State.grantKey (s : State) (sel : Nat) : Option Bytes :=
  let l := s.lifecycle
  if sel = 0 ∧ (l = lcMaker ∨ l = lcField ∨ l = lcReturn) then some (Config.vendorKey 1)
  else if sel = 1 ∧ l = lcField then s.nv.ownerKey
  else none

/-- A grant passes its checks: signature, challenge, expiry and key (R631). DESIGN CHOICE: assumption 59. -/
def State.grantOk (s : State) (b : Bytes) : Bool :=
  match s.shed.challenge, s.grantKey (numAt b 34 1) with
  | some (c, e), some key =>
    c == numAt b 0 32 && decide (s.now ≤ e)
      && Config.verifies key (bytesAt b 0 32 ++ leBytes 8 s.nv.serial.toNat ++ bytesAt b 32 3) (bytesAt b 35 114)
  | _, _ => false

/-- GATE_GRANT: a signed grant opens the gate with CAUSE 1; the challenge is spent in any case.
DESIGN CHOICE: assumption 12. DEDUCED: assumption 60. -/
def execGateGrant (m : Master) (req : MbxReq) (s : State) : Res :=
  s.mail m req 0x09 149 (fun s q =>
    let life := numAt q.payload 32 2
    let ok := s.grantOk q.payload
    let s : State := { s with shed := { s.shed with challenge := none } }
    if life = 0 ∨ 1024 < life ∨ 1 < numAt q.payload 34 1 then s.respond m req.respOk q stBadField []
    else if ok then
      let s : State := { s with shed := { s.shed with grantEnd := some (s.now + life * 2 ^ 30) } }
      let s := (s.fset Reg.expertGate F.expertGate_open 1).fset Reg.expertGate F.expertGate_cause 1
      (s.logEvent 0x0C 5 0 (masterNum m) life none).respond m req.respOk q stOk []
    else (s.logEvent 0x0C 4 0 (masterNum m) q.op none).respond m req.respOk q stAuthFailed [])

/-! ## Firmware (R625, R626) -/

/-- FW_BEGIN: the header passes its checks; the marker is cleared and the image area erased. -/
def execFwBegin (m : Master) (req : MbxReq) (s : State) : Res :=
  s.mail m req 0x0A 512 (fun s q =>
    let h := bytesAt q.payload 0 512
    if s.retired then s.respond m req.respOk q stWrongLifecycle []
    else if !s.fwHeaderOk h then s.respond m req.respOk q stImageInvalid []
    else
      let s : State := { s with
        nv := { s.nv with flashMarker := false, flashHeader := h, flashBody := [], flashWritten := [] }
        shed := { s.shed with fw := some h } }
      (s.logEvent 0x0C 2 0 0 (fwSvn h) none).respond m req.respOk q stOk [])

/-- Bytes of the body are written at an offset. -/
def State.flashWrite (s : State) (off : Nat) (b : Bytes) : State :=
  let body := (b.zipIdx).foldl (fun t x => tset 0 t (off + x.2) x.1) s.nv.flashBody
  { s with nv := { s.nv with flashBody := body, flashWritten := s.nv.flashWritten ++ [(off, b.length)] } }

/-- FW_CHUNK: up to 64 KiB of body at an OFFSET of whole 4 KiB, within the body. DEDUCED: assumption 60. -/
def execFwChunk (m : Master) (req : MbxReq) (s : State) : Res :=
  s.mail m req 0x0B 4 (fun s q =>
    let off := q.field 0 32
    let b := q.payload.drop 4
    match s.shed.fw with
    | none => s.respond m req.respOk q stNotPermitted []
    | some h =>
      if off % 4096 ≠ 0 ∨ 65536 < b.length ∨ fwLen h < off + b.length then s.respond m req.respOk q stBadField []
      else (s.flashWrite off b).respond m req.respOk q stOk [])

/-- Every byte of the body has been written since FW_BEGIN. -/
def State.flashWhole (s : State) (n : Nat) : Bool :=
  (List.range n).all (fun i => s.nv.flashWritten.any (fun r => decide (r.1 ≤ i ∧ i < r.1 + r.2)))

/-- FW_COMMIT: a whole body with its digest sets the marker, and in RECOVERY starts. DEDUCED: assumptions 60 and 62. -/
def execFwCommit (m : Master) (req : MbxReq) (s : State) : Res :=
  s.mail m req 0x0C 1 (fun s q =>
    match s.shed.fw with
    | none => s.respond m req.respOk q stImageInvalid []
    | some h =>
      if !(s.flashWhole (fwLen h) && fwBodyOk h s.nv.flashBody) then s.respond m req.respOk q stImageInvalid []
      else
        let floor := if q.field 0 1 = 1 then max s.nv.svnFloor (fwSvn h) else s.nv.svnFloor
        let s : State := { s with nv := { s.nv with flashMarker := true, svnFloor := floor }, shed := { s.shed with fw := none } }
        let s := s.logEvent 0x0C 3 0 0 (fwSvn h) none
        let s := if s.bootState == bsRecovery then s.leaveRecovery else s
        s.respond m req.respOk q stOk [])

/-! ## Self-test and repair (R602, R638, R640, R645, R647) -/

/-- SHUTDOWN: with no job ACTIVE the full BIST begins; its end answers the request. -/
def execShutdown (m : Master) (req : MbxReq) (s : State) : Res :=
  s.mail m req 0x0D 0 (fun s q =>
    if s.retired then s.respond m req.respOk q stWrongLifecycle []
    else if s.anyActive then s.respond m req.respOk q stNotPermitted []
    else
      let s : State := { s with shed := { s.shed with shutdown := some ⟨m, q.op, q.package, q.seq⟩ } }
      s.fset (cardReg m Reg.mbxStatus) F.mbxStatus_busy 1)

/-- A requested slice or REPAIR takes its unit and its entries, or fails with RESOURCE_HELD; a user of a higher code that took an entry in
the same tick loses it (R621, R622). DEDUCED: assumption 58. -/
def State.requestSlice (s : State) (m : Master) (respOk : Bool) (q : Mail) (u : Nat) (repair : Bool) : State :=
  if (sliceEntries u).any (fun e => !s.resCanTake e ruRequested || s.resUser e == ruRequested) then s.respond m respOk q stResourceHeld []
  else
    (s.startSlice ⟨u, 0, true, repair, .waiting, s.now, m, q.package, q.seq⟩ ruRequested).fset
      (cardReg m Reg.mbxStatus) F.mbxStatus_busy 1

/-- SLICE: one slice of a bed or a pseudo-channel, now. DEDUCED: assumption 60. -/
def execSlice (m : Master) (req : MbxReq) (s : State) : Res :=
  s.mail m req 0x0E 2 (fun s q =>
    let u := q.field 0 11
    if s.retired then s.respond m req.respOk q stWrongLifecycle []
    else if !(isBedUnit u || isPcUnit u) || !s.sliceable u then s.respond m req.respOk q stBadField []
    else s.requestSlice m req.respOk q u false)

/-- REPAIR: a bed, a spare one too, is treated as failed once it is empty; a slice that holds its die's engine turns the request away (R621, R645).
DEDUCED: assumption 60. -/
def execRepair (m : Master) (req : MbxReq) (s : State) : Res :=
  s.mail m req 0x0F 2 (fun s q =>
    let u := q.field 0 11
    if !isBedUnit u || decide (bedSpare < s.bedState (bedOf u)) then s.respond m req.respOk q stBadField []
    else s.requestSlice m req.respOk q u true)

/-- The soft-repair list is burnt into the fuses: a spare takes the place of its bed, and rows stay remapped (R647). -/
def State.burn (s : State) : State :=
  let beds := s.nv.softBeds.foldl (fun t r => tset 0 (if r.2 = r.1 then t else tset 0 t r.2 bedActive) r.1 bedRetired) s.nv.bedFuse
  { s with nv := { s.nv with bedFuse := beds, fusedRows := s.nv.fusedRows ++ s.nv.softRows, softBeds := [], softRows := [] } }

/-- FUSE: burns the soft-repair list, in BLANK, MAKER and RETURN. -/
def execFuse (m : Master) (req : MbxReq) (s : State) : Res :=
  s.mail m req 0x10 0 (fun s q =>
    let l := s.lifecycle
    if l = lcBlank ∨ l = lcMaker ∨ l = lcReturn then
      (s.burn.logEvent 0x0B 5 0 0 (s.nv.softBeds.length + s.nv.softRows.length) none).respond m req.respOk q stOk []
    else s.respond m req.respOk q stWrongLifecycle [])

/-! ## Lifecycle and owner (R628, R633, R634) -/

/-- The keys that may sign a change of the lifecycle; none for a change that the table does not hold. -/
def State.tokenKeys (s : State) (from_ goal : Nat) : Option (List Bytes) :=
  let vendor := Config.vendorKey 1
  if from_ = lcRetired then none
  else if goal = lcRetired then some (vendor :: (if from_ = lcField then s.nv.ownerKey.toList else []))
  else if (from_ = lcMaker ∧ goal = lcField) ∨ (from_ = lcField ∧ goal = lcReturn) ∨ (from_ = lcReturn ∧ goal = lcField) then some [vendor]
  else none

/-- The token is one for this part, and one of the keys has signed it. DESIGN CHOICE: assumption 59. -/
def State.tokenOk (s : State) (keys : List Bytes) (b : Bytes) : Bool :=
  numAt b 8 8 == s.nv.serial.toNat && decide (130 ≤ b.length)
    && keys.any (fun k => Config.verifies k (bytesAt b 0 1 ++ bytesAt b 8 8) (bytesAt b 16 114))

/-- The state is fused; the always-on region and the owner key are cleared, the change is the log's first entry, and the part resets. -/
def State.changeLife (s : State) (goal : Nat) : State :=
  let old := s.lifecycle
  let s : State := { s with
    nv := { s.nv with lifecycle := goal, ownerKey := none, identity := s.nv.identity || decide (old = lcBlank ∧ goal = lcMaker) }
    aon := ⟨[], 0, 0, s.aon.bootCount, none⟩ }
  let s := s.logEvent 0x0F 1 0 goal (old + 8 * goal) none
  let up := s.flag (s.ownTap Reg.tapStatus) F.tapStatus_linkUp
  (s.resetTo.tapDown up).refOk

/-- LIFECYCLE: a change that the table holds, with its token, while no job is ACTIVE. DEDUCED: assumptions 60 and 62. -/
def execLifecycle (m : Master) (req : MbxReq) (s : State) : Res :=
  s.mail m req 0x11 1 (fun s q =>
    let old := s.lifecycle
    let goal := numAt q.payload 0 1
    let done := (s.respond m req.respOk q stOk []).changeLife goal
    if old = lcBlank ∧ goal = lcMaker then
      if s.anyActive then s.respond m req.respOk q stNotPermitted [] else done
    else match s.tokenKeys old goal with
      | none => s.respond m req.respOk q stWrongLifecycle []
      | some keys =>
        if s.anyActive then s.respond m req.respOk q stNotPermitted []
        else if s.tokenOk keys q.payload then done
        else (s.logEvent 0x0C 4 0 (masterNum m) q.op none).respond m req.respOk q stAuthFailed [])

/-- A new owner key may be installed (R628). DESIGN CHOICE: assumption 59. -/
def State.enrolOk (s : State) (b : Bytes) : Bool :=
  match s.nv.ownerKey with
  | none => s.gateOpen && s.fget Reg.expertGate F.expertGate_cause == 0
  | some k => decide (172 ≤ b.length) && Config.verifies k (bytesAt b 0 57) (bytesAt b 58 114)

/-- OWNER_ENROLL: installs an owner key. -/
def execOwnerEnroll (m : Master) (req : MbxReq) (s : State) : Res :=
  s.mail m req 0x12 58 (fun s q =>
    if s.enrolOk q.payload then
      let s : State := { s with nv := { s.nv with ownerKey := some (bytesAt q.payload 0 57) } }
      s.respond m req.respOk q stOk []
    else (s.logEvent 0x0C 4 0 (masterNum m) q.op none).respond m req.respOk q stAuthFailed [])

end Sys2Proof.Machine
end

