-- ==== Sys2Proof/Machine/Ownership.lean ====
section
/-! DEFINITION. The ownership arbiter: claims and releases of a tick, applied in the order of R582. -/
namespace Sys2Proof.Machine

/-- The highest resource number (R580). -/
def resLast : Nat := 4101
/-- The owner code of a free resource (R586). -/
def ownFree : Nat := 3

/-- A request of the tick in progress; a later one from the same card replaces it (R586). -/
def State.request (s : State) (q : ClaimReq) : State :=
  { s with host := { s.host with claims := s.host.claims.filter (fun x => x.m != q.m) ++ [q] } }

/-- CLAIM: an OWN_CLAIM write, which takes effect with the requests of its tick (R582). DEDUCED: assumption 29. -/
def execClaim (m : Master) (resource : Nat) (s : State) : Res := s.act true (s.request ⟨m, resource % 2 ^ 13, false⟩)

/-- RELEASE: an OWN_CLAIM write with ACTION RELEASE (R582, R584). DEDUCED: assumption 29. -/
def execRelease (m : Master) (resource : Nat) (s : State) : Res := s.act true (s.request ⟨m, resource % 2 ^ 13, true⟩)

/-- The result of a request: OWN_RESULT of the card, or the trouble log for Shed (R585, R586). -/
def State.claimResult (s : State) (q : ClaimReq) (st : Nat) : State :=
  match q.m with
  | .shed => s.logEvent 0x0D (if q.release then 2 else 1) 0 q.resource st none
  | m =>
    let a := cardReg m Reg.ownResult
    let s := s.fset a F.ownResult_resource q.resource
    let s := s.fset a F.ownResult_action (if q.release then 1 else 0)
    (s.fset a F.ownResult_status st).fset a F.ownResult_done 1

/-- A release (R582, R584). -/
def State.release (s : State) (q : ClaimReq) : State :=
  if resLast < q.resource then s.claimResult q stBadField
  else if !s.owns q.m q.resource then s.claimResult q stNotOwner
  else
    let st := (s.job q.resource).get J.state
    if q.resource < 4096 ∧ st ≠ jobFree ∧ st ≠ jobRefused then s.claimResult q stNotPermitted
    else (s.setOwner q.resource ownFree).claimResult q stOk

/-- A claim, after those of lower masters of the tick have taken `won` (R582). -/
def State.claim (a : State × List Nat) (q : ClaimReq) : State × List Nat :=
  let (s, won) := a
  if resLast < q.resource then (s.claimResult q stBadField, won)
  else if s.owns q.m q.resource then (s.claimResult q stOk, won)
  else if won.contains q.resource then (s.claimResult q stClaimLost, won)
  else if s.ownerOf q.resource = ownFree then
    ((s.setOwner q.resource (masterNum q.m)).claimResult q stOk, q.resource :: won)
  else (s.claimResult q stNotOwner, won)

/-- The requests of a kind in ascending master number. -/
def State.requests (s : State) (release : Bool) : List ClaimReq :=
  [Master.host0, .host1, .shed].filterMap (fun m => s.host.claims.find? (fun q => q.m == m && q.release == release))

/-- The end of a tick applies its releases and then its claims (R582). -/
def State.applyClaims (s : State) : State :=
  let rel := s.requests true
  let cl := s.requests false
  let s := s.each rel State.release
  let s := (cl.foldl State.claim (s, [])).1
  { s with host := { s.host with claims := [] } }

end Sys2Proof.Machine
end

