-- ==== Sys2Proof/Machine/Survey.lean ====
section
/-! DEFINITION. SURVEY: the summary of the part's state, by a command of a ring or by a register. -/
namespace Sys2Proof.Machine

/-- Where the sections of a summary lie (R458). -/
def svRings : Nat := 0x1000
def svCommands : Nat := 0x81000
def svEvents : Nat := 0x101000
def svOps : Nat := 0x181000
def svJobs : Nat := 0x191000
def svFences : Nat := 0x291000
def svRoutes : Nat := 0x2A1000
def svHealth : Nat := 0x2A2000

/-- A RINGS entry. -/
def State.svRing (s : State) (n : Nat) : Bytes :=
  let w (a : Nat) := (s.rget a).toNat % 2 ^ 32
  [s.cmdTail n, s.cmdHead n, s.cplTail n, s.cplHead n, w (Reg.ringCtrl n), w (Reg.ringStatus n), s.accepted n].flatMap (leBytes 4)
    ++ leBytes 4 0

/-- STATE of a COMMANDS entry: awaiting events, awaiting resources, running. -/
def phaseCode : Phase → Nat
  | .waits => 0
  | .free => 1
  | .queued => 1
  | .run => 2
  | .ended => 2

/-- A COMMANDS entry. -/
def State.svCommand (s : State) (c : Ctx) : Bytes :=
  leBytes 16 (1 + 2 * (c.ring % 2 ^ 14) + 2 ^ 15 * (c.idx % 2 ^ 32) + 2 ^ 47 * c.opcode + 2 ^ 55 * phaseCode c.phase
    + 2 ^ 57 * (s.ringJob c.ring % 2 ^ 12))

/-- STATE of an OPERATIONS entry (R459). -/
def stageCode : Stage → Nat
  | .accepting => 0
  | .sending => 1
  | .delivering => 2
  | .aborting => 3

/-- An OPERATIONS entry (R459). -/
def Op.survey (o : Op) : Bytes :=
  leBytes 32 (1 + 2 * (o.opcode % 2 ^ 8) + 2 ^ 9 * (o.tag % 2 ^ 10) + 2 ^ 19 * (o.job % 2 ^ 12) + 2 ^ 31 * (o.epoch % 2 ^ 6)
    + 2 ^ 37 * stageCode o.stage + (if o.root then 2 ^ 39 else 0) + 2 ^ 40 * (o.tensor % 2 ^ 24) + 2 ^ 64 * (o.gen % 2 ^ 48)
    + 2 ^ 112 * (o.tseq % 2 ^ 16) + 2 ^ 128 * (o.admTick % 2 ^ 64) + 2 ^ 192 * (o.ring % 2 ^ 14) + 2 ^ 206 * (o.idx % 2 ^ 32))

/-- A JOBS entry: the job entry with JOB_KEY as 0, then the STRAY bits. -/
def Job.survey (b : Job) : Bytes := leBytes 128 (bset J.key b.entry 0).toNat ++ leBytes 128 b.stray.toNat

/-- A FENCES entry. -/
def Fence.survey (f : Fence) : Bytes := leBytes 8 (f.member % 2 ^ 23 + 2 ^ 23 * (f.job % 2 ^ 12) + 2 ^ 35)

/-- Pieces of a table whose entries stand one after another. -/
def svTable {α : Type} (at0 size : Nat) (f : α → Bytes) (l : List α) : List (Nat × Bytes) :=
  l.zipIdx.map (fun e => (at0 + size * e.2, f e.1))

/-- The header but for END_TICK (R460). -/
def State.svHeader (s : State) : Nat :=
  1 + 2 ^ 16 * s.now + 2 ^ 144 * 0x2A4000 + 2 ^ 176 * s.fget Reg.lifecycleReg F.lifecycleReg_state
    + 2 ^ 179 * s.fget Reg.service F.service_seedling + 2 ^ 180 * s.fget Reg.service F.service_initDone
    + 2 ^ 181 * s.fget Reg.expertGate F.expertGate_open + 2 ^ 182 * s.fget Reg.partId F.partId_grafted
    + 2 ^ 192 * s.fget Reg.bedCount F.bedCount_active + 2 ^ 208 * s.fget Reg.troubleHwm F.troubleHwm_hwm
    + 2 ^ 224 * s.fget Reg.heartbeat F.heartbeat_count

/-- An operation takes an entry of this package: one of its stripes or ports lies here (R567). -/
def State.opHere (s : State) (o : Op) : Bool :=
  !s.grafted || o.place.any (fun b => decide (b < 272)) || (o.src ++ o.dst).any (fun q => q / 128 == s.pkgNo)

/-- The summary at the end of SNAP_TICK, but for what is read during the write-out (R457). -/
def State.svSnap (s : State) : List (Nat × Bytes) :=
  [(0, leBytes 64 s.svHeader)] ++ svTable svRings 32 s.svRing (List.range 16384)
    ++ svTable svCommands 16 s.svCommand s.host.ctxs
    ++ s.host.events.map (fun (e : Nat × Event) => (svEvents + 8 * e.1, leBytes 8 (e.2.count.toNat + 2 ^ 32 * e.2.target.toNat)))
    ++ svTable (svOps + 0x8000 * s.pkgNo) 32 Op.survey (s.ops.filter s.opHere)
    ++ (List.range 4096).map (fun j => (svJobs + 256 * j, (s.job j).survey))
    ++ svTable svFences 8 Fence.survey s.fences
    ++ [(svRoutes + 8 * s.pkgNo, leBytes 8 (s.activeEpoch + 2 * s.fget Reg.routeStatus F.routeStatus_staged))]

/-- What the write-out reads itself: END_TICK, the job counters and the health scores (R457, R460). DEDUCED: assumption 41. -/
def State.svLate (s : State) : List (Nat × Bytes) :=
  [(10, leBytes 8 s.now)]
    ++ (List.range 4096).map (fun j => (svJobs + 256 * j + 60, leBytes 12 ((s.job j).entry.toNat / 2 ^ 480)))
    ++ [(svHealth + 0x1000 * s.pkgNo, (List.range 1720).flatMap (fun u => leBytes 2 (tget 0 s.shed.scores u)))]

/-- A SURVEY starts; its snapshot is that of the end of the tick (R457). -/
def State.svStart (s : State) (cmd : Option Ref) (card addr : Nat) : State :=
  let s : State := { s with host := { s.host with survey := some ⟨cmd, card, addr, s.now, none⟩ } }
  s.fset Reg.surveyStatus F.surveyStatus_busy 1

/-- The end of SNAP_TICK: the snapshot is taken (R457). DEDUCED: assumption 41. -/
def State.svTick (s : State) : State :=
  match s.host.survey with
  | some v => if v.snap.isNone then { s with host := { s.host with survey := some { v with snap := some s.svSnap } } } else s
  | none => s

/-- RESULT of a SURVEY (R438). -/
def svResult (snap : Nat) : BitVec 96 := BitVec.ofNat 96 (snap % 2 ^ 64 + 2 ^ 64 * surveyBytes)

/-- SURVEY, once free of its waits and of any other SURVEY (R454, R456). -/
def execSurvey (c : Ref) (s : State) : Res :=
  s.issue c 0x16 (fun x =>
    if x.p 64 40 < surveyBytes ∨ x.p 0 64 % 4096 ≠ 0 then s.modCtx c (fun y => { y.reject stBadField with result := svResult 0 })
    else if s.host.survey.isSome then s
    else (s.modCtx c (fun y => { y.start s.now with result := svResult s.now })).svStart (some c) (s.ringCard c.ring) (x.p 0 64))

/-- SURVEY_GO: the register SURVEY starts, or is lost while a SURVEY runs, or finds its buffer short (R455, R456). -/
def execSurveyGo (m : Master) (s : State) : Res :=
  s.act true
    (if s.host.survey.isSome then s.fset Reg.surveyStatus F.surveyStatus_lost 1
     else if s.fget Reg.surveyLen F.surveyLen_len < surveyBytes then s.fset Reg.surveyStatus F.surveyStatus_short 1
     else s.svStart none (masterCard m) (s.rget Reg.surveyAddr).toNat)

/-- SURVEY_COMPLETE: the summary is written, or a write to the buffer has failed (R455 to R457); it comes after SNAP_TICK has ended.
DEDUCED: assumption 41. -/
def execSurveyComplete (failed : Bool) (s : State) : Res :=
  match s.host.survey with
  | none => .next s
  | some v =>
    s.act (s.linkUp v.card && v.snap.isSome)
      (let pieces := v.snap.getD [] ++ s.svLate
       let s := if failed then s
         else (s.emit (.hostZero v.addr surveyBytes)).each pieces (fun s e => s.emit (.hostWrite (v.addr + e.1) e.2))
       let s : State := { s with host := { s.host with survey := none } }
       let s := s.fset Reg.surveyStatus F.surveyStatus_busy 0
       match v.cmd with
       | some c => s.modCtx c (fun y => { y.finish (if failed then stHostFault else stOk) with result := svResult v.snapTick })
       | none =>
         (if failed then s.fset Reg.surveyStatus F.surveyStatus_hostFault 1
          else s.fset Reg.surveyStatus F.surveyStatus_done 1).msix v.card 0)

end Sys2Proof.Machine
end

