-- ==== Sys2Proof/Machine/Time.lean ====
section
/-! DEFINITION. The global counter and its synchronisation: loads, roles, exchanges, steps, and the tick. -/
namespace Sys2Proof.Machine

/-! ## Quiet (R374) -/

/-- A deadline of some kind is running (R255, R275, R328). -/
def State.anyDeadline (s : State) : Bool :=
  s.ops.any (fun o => o.live && o.deadline.isSome) || s.norms.any (fun r => r.deadline.isSome) || s.vy.any (fun p => p.deadline.isSome)

/-- A ROUTE_SWAP waits for its AT. -/
def State.swapWaits (s : State) : Bool := s.host.ctxs.any (fun c => c.opcode == 0x15 && c.phase == .run)

/-- The part is quiet: nothing is keyed to its counter. -/
def State.quiet (s : State) : Bool :=
  s.launches.isEmpty && !s.anyDeadline && !s.flag Reg.schedStatus F.schedStatus_inForce
    && !s.flag Reg.schedStatus F.schedStatus_pending && !s.swapWaits && !s.flag Reg.timeCtrl F.timeCtrl_holdStep

/-- ROLE, with 3 as FREE (R393): 0 FREE, 1 ROOT, 2 FOLLOWER. -/
def State.role (s : State) : Nat := s.fget Reg.timeCtrl F.timeCtrl_role % 3

/-- Every step is noted (R368, R374, R651). -/
def State.stepped (s : State) : State :=
  ({ s with time := { s.time with stepNow := true } }.fset Reg.timeEvents F.timeEvents_stepped 1).logEvent 0x01 3 0 0 (logDetail none none 0 0) none

/-- GC_LOAD with a write of one of its parts: it holds the latest write of each (R705). -/
def State.loadValue (s : State) (half : Half) (value : Word64) : Word64 :=
  match half with
  | .both => value
  | .tail => (s.rget Reg.gcLoad &&& 0xFFFFFFFF00000000) ||| (value &&& 0xFFFFFFFF)
  | .head => (s.rget Reg.gcLoad &&& 0xFFFFFFFF) ||| (value <<< 32)

/-- A command whose waits were met in the tick of a step is released in the next (R374). DEDUCED: assumption 65. -/
def State.holdReleases (s : State) : State :=
  { s with host := { s.host with ctxs := s.host.ctxs.map (fun c =>
    if c.phase == .free && bget D.waitN c.desc != 0 && c.freeTick == s.now then { c with phase := .waits } else c) } }

/-- A step of the counter by a load (R390). -/
def State.loadNow (s : State) (v : Word64) : State := ((s.holdReleases.rset Reg.gcLoad v).rset Reg.gcValue v).stepped

/-- A load is ignored (R390). -/
def State.loadRefused (s : State) : State := s.fset Reg.timeEvents F.timeEvents_loadRefused 1

/-- A FREE or ROOT part that is quiet takes a load (R390). -/
def State.mayLoad (s : State) : Bool := s.role != 2 && s.quiet

/-- GC_LOAD: a step of a FREE or ROOT part that is quiet, to the combination of the latest writes of its halves, else refused (R390,
R705). In a tick in which a waiting command has been released it waits for the next (R374). DEDUCED: assumption 65. -/
def execGcLoad (m : Master) (w : HalfWrite) (s : State) : Res :=
  s.act true
    (if !s.owns m s.resTimeOwn then s.notOwner m
     else if !s.mayLoad then s.loadRefused
     else if s.host.relNow then { s with time := { s.time with load := some (s.loadValue w.half w.value) } }
     else s.loadNow (s.loadValue w.half w.value))

/-- A load that waited for this tick (R374, R390). -/
def State.takeLoad (s : State) : State :=
  match s.time.load with
  | none => s
  | some v =>
    let s : State := { s with time := { s.time with load := none } }
    if s.mayLoad then s.loadNow v else s.loadRefused

/-! ## TIME_CTRL (R369, R373, R377, R391, R393) -/

/-- The synchronisation state after ROLE has changed; a part that was LOCKED, a ROOT too, has left that state (R373, R395). -/
def State.newRole (s : State) (old : Nat) : State :=
  if s.role = old then s
  else
    let s := s.toTime tsFree
    let s : State := { s with time := s.time.anew }
    let s := s.fset Reg.timeStatus F.timeStatus_stepWait 0
    if s.role = 2 then s.toTime tsAcquire
    else if s.role = 1 then
      ((s.fset Reg.timeStatus F.timeStatus_state tsLocked).fset Reg.timeStatus F.timeStatus_hops 0).fset Reg.timeBound
        F.timeBound_value 0
    else s

/-- TIME_CTRL: a write by the owner of TIME; package 1 of a pair has its role from the cable (R377). -/
def execTimeCtrl (m : Master) (value : Word32) (s : State) : Res :=
  s.act true
    (if !s.owns m s.resTimeOwn then s.notOwner m
     else
      let fixed := s.flag Reg.partId F.partId_grafted && s.pkgNo == 1
      let old := s.role
      let s := s.fset Reg.timeCtrl F.timeCtrl_holdStep (bget F.timeCtrl_holdStep value)
      if fixed then s
      else
        let s := (s.fset Reg.timeCtrl F.timeCtrl_role (bget F.timeCtrl_role value)).fset Reg.timeCtrl F.timeCtrl_upport
          (bget F.timeCtrl_upport value)
        (s.fset Reg.timeCtrl F.timeCtrl_upGraft (bget F.timeCtrl_upGraft value)).newRole old |>.checkUpstream)

/-! ## Exchanges (R370 to R375, R378, R498) -/

/-- A time ordered set waits for the next slot of a link; a request of an earlier exchange no longer does. -/
def State.queueTime (s : State) (l : Nat) (o : TimeOut) : State :=
  s.setLink l { s.link l with timeOut := (s.link l).timeOut.filter (fun x => o != .request || x != .request) ++ [o] }

/-- An exchange without a valid reply; the fourth in a row ends LOCKED (R373). -/
def State.missedReply (s : State) : State :=
  let n := s.time.missed + 1
  let s : State := { s with time := { s.time with missed := n } }
  if s.timeState = tsLocked ∧ 4 ≤ n then s.toTime tsHoldover else s

/-- TIME_EXCHANGE: a follower starts an exchange once 2^14 ticks have passed since the last (R370); T1 is taken as its request leaves. -/
def execTimeExchange (s : State) : Res :=
  s.act (s.role == 2 && s.time.exchWait == 0)
    (let s := if s.time.answered then s else s.missedReply
     let s : State := { s with time := { s.time with
       exchange := none, answered := false, exchWait := 2 ^ 14, gap := s.time.gap + 1 } }
     match s.upLinks.find? s.linkOpen with
     | some l => s.queueTime l .request
     | none => s)

/-- TIME_REQUEST: a request arrives on a link and is answered (R371, R379): T2 is the stamp of now, and T3 that of its leaving. -/
def execTimeRequest (port : Nat) (flit : Bytes) (s : State) : Res :=
  s.act (decide (port < 132) && s.linkOpen port && timeField flit 0 1 == 0)
    (let ready := s.role == 1 || s.timeState == tsLocked
     (s.queueTime port (.reply (!ready) s.hops s.bound (timeField flit 23 67) s.stamp)).bump)

/-- A list with an element in ascending order. -/
def insertInt (a : Int) : List Int → List Int
  | [] => [a]
  | b :: l => if a ≤ b then a :: b :: l else b :: insertInt a l

/-- Twice the median of a list: the sum of its two middle elements, which are one where its length is odd. -/
def median2 (l : List Int) : Int :=
  let t := l.foldr insertInt []
  t.getD ((t.length - 1) / 2) 0 + t.getD (t.length / 2) 0

/-- A number of quarters of an eighth as eighths: exact, or rounded in a way that the rules leave open. -/
def eighthsOf (q : Int) : Int := if q % 4 = 0 then q / 4 else Config.roundEighth q

/-- A number saturated to a signed word of 32 bits. -/
def sat32 (v : Int) : Int := max (-2147483648) (min v 2147483647)

/-- The samples of the last eight exchanges, and what TIME_OFFSET and TIME_DELAY show of them (R389). -/
def State.addSample (s : State) (offset delay : Int) : State :=
  let l := (s.time.samples ++ [offset])
  let d := (s.time.delays ++ [delay])
  let s : State := { s with time := { s.time with samples := l.drop (l.length - 8), delays := d.drop (d.length - 8) } }
  let s := s.fset Reg.timeOffset F.timeOffset_value (toTwos 32 (sat32 (eighthsOf (median2 s.time.samples))))
  s.fset Reg.timeDelay F.timeDelay_value (toTwos 32 (eighthsOf (median2 s.time.delays)))

/-- Back to ACQUIRE with no sample counted. -/
def State.acquire (s : State) : State :=
  let s := s.toTime tsAcquire
  { s with time := { s.time with good := 0, driftRun := 0, lastNet := none, slewLeft := 0 } }

/-- HOPS and BOUND of a LOCKED follower (R375). -/
def State.showHops (s : State) (hops bound : Nat) : State :=
  let hop := if s.flag Reg.timeCtrl F.timeCtrl_upGraft then 1 else 3
  (s.fset Reg.timeStatus F.timeStatus_hops (hops + 1)).fset Reg.timeBound F.timeBound_value (bound + hop)

/-- A sample while LOCKED: the median corrects the phase, or shows that the lock is lost (R373, R378). A sample after intervals without
one moves by so much in each of them. -/
def State.lockedSample (s : State) (offset : Int) : State :=
  let med := median2 s.time.samples
  let net := offset + 2 * s.time.applied
  let move := net - s.time.lastNet.getD net
  let n := max s.time.gap 1
  let far : Int := 8 * n
  let up := decide (0 < move)
  let run := if far < move ∨ move < -far then (if s.time.driftRun = 0 ∨ s.time.driftUp = up then s.time.driftRun + n else n) else 0
  let s : State := { s with time := { s.time with lastNet := some net, driftUp := up, driftRun := run, gap := 0 } }
  if 8 ≤ run then
    ((s.fset Reg.timeEvents F.timeEvents_refMismatch 1).logEvent 0x01 4 0 0 (logDetail none none 0 0) none).acquire
  else if 64 < med ∨ med < -64 then s.acquire
  else { s with time := { s.time with slewLeft := max (-16) (min 16 (eighthsOf med)) } }

/-- A sample while in ACQUIRE: the eighth small one in a row locks; a large one asks for a step, or is slewed towards (R373, R374). -/
def State.acquireSample (s : State) (offset : Int) : State :=
  if -8 ≤ offset ∧ offset ≤ 8 then
    let n := s.time.good + 1
    let s : State := { s with time := { s.time with good := n, stepWant := none } }
    let s := s.fset Reg.timeStatus F.timeStatus_stepWait 0
    if 8 ≤ n then s.toTime tsLocked else s
  else
    let s : State := { s with time := { s.time with good := 0, stepWant := some offset, slewLeft := if s.quiet then 0 else eighthsOf (2 * offset) } }
    s.fset Reg.timeStatus F.timeStatus_stepWait (if s.quiet then 0 else 1)

/-- A valid sample moves the follower through its states (R373). DEDUCED: assumption 53. -/
def State.takeSample (s : State) (offset delay : Int) : State :=
  let s := s.addSample offset delay
  if s.timeState = tsHoldover then
    (if -1024 ≤ offset ∧ offset ≤ 1024 then s.toTime tsLocked else s.acquire)
  else if s.timeState = tsLocked then s.lockedSample offset
  else s.acquireSample offset

/-- TIME_REPLY: the upstream part's reply yields a sample (R372). -/
def execTimeReply (port : Nat) (flit : Bytes) (s : State) : Res :=
  match s.time.exchange with
  | none => .next s
  | some t1 =>
    s.act (s.role == 2 && s.upLinks.contains port && !s.time.answered && timeField flit 0 1 == 1 && timeField flit 23 67 == t1 % 2 ^ 67)
      (let hops := timeField flit 2 5
       if timeField flit 1 1 = 1 ∨ hops = 31 then s.fset Reg.timeEvents F.timeEvents_upNotReady 1
       else
         let t2 : Int := timeField flit 90 67
         let t3 : Int := timeField flit 157 67
         let t4 : Int := s.stamp
         let asym : Int := bsgn F.timeAsym_value (s.rget (Reg.timeAsym (s.fget Reg.timeCtrl F.timeCtrl_upport)))
         let s : State := { s.bump with time := { s.time with answered := true, missed := 0 } }
         let s := s.takeSample ((t2 - t1) - (t4 - t3) - asym) ((t4 - t1) - (t3 - t2))
         if s.timeState = tsLocked then s.showHops hops (timeField flit 7 16) else s)

/-- COUNTER_STEP: a follower in ACQUIRE that is quiet steps by its sample, in a tick in which no waiting command has become free (R368,
R373, R374). -/
def execCounterStep (s : State) : Res :=
  match s.time.stepWant with
  | none => .next s
  | some o =>
    s.act (s.role == 2 && s.timeState == tsAcquire && s.quiet && !s.host.relNow)
      (let e := eighthsOf (2 * o)
       let n : Int := (8 * s.now + s.time.sub : Nat) + e
       let s := s.rset Reg.gcValue (BitVec.ofNat 64 (toTwos 64 (n / 8)))
       let s : State := { s with time := { s.time with
         sub := (n % 8).toNat, applied := s.time.applied + e, stepWant := none, slewLeft := 0, samples := [], delays := [], good := 0 } }
       (s.fset Reg.timeStatus F.timeStatus_stepWait 0).stepped)

/-! ## The flip of the route version (R531, R532) -/

/-- A packet of this tick that goes by the epoch of its first cell carries the new one, and where none of its cells has moved it goes by
the new version (R525, R532). DEDUCED: assumption 54. -/
def State.restamp (s : State) (pid : Nat) : State :=
  match s.pk pid with
  | none => s
  | some k =>
    let mine := s.copiesOf pid
    if k.since != s.now || s.stampEpoch k == k || (k.routed && (mine.isEmpty || mine.any (fun c => c.next != 0))) then s
    else if k.routed then
      let s := s.modPk pid (fun k => { s.stampEpoch k with refs := k.refs.map (· + 1) })
      let s := s.each mine State.dropCopy
      match s.pk pid with
      | some k => s.sendOn k
      | none => s
    else s.modPk pid s.stampEpoch

/-- The active version flips. DEDUCED: assumption 54. -/
def State.flip (s : State) : State :=
  let s := (s.fset Reg.routeStatus F.routeStatus_active (1 - s.activeEpoch)).fset Reg.routeStatus F.routeStatus_staged 0
  s.each (s.xb.pkts.map Pk.pid) State.restamp

/-- At the start of the tick of a swap that waits for it the version flips (R531). -/
def State.flipAt (s : State) : State :=
  if s.host.ctxs.any (fun x => x.opcode == 0x15 && x.phase == .run && decide (x.p 0 64 ≤ s.now) && x.p 64 1 != s.activeEpoch) then s.flip
  else s

/-! ## TICK (R365, R368, R396, R540, R541, R559, R564) -/

/-- One bucket's tokens after a tick. -/
def refilled (rate burst : Nat) (t : Int) : Int := if rate = 0 then t else min (t + rate) (1024 * burst)

/-- Token buckets rise. -/
def State.refill (s : State) : State :=
  s.each (s.regs.filter (fun e => decide (0x401000 ≤ e.1 ∧ e.1 < 0x403000 ∧ (e.1 - 0x401000) % 64 < 24))) (fun s e =>
    let p := (e.1 - 0x401000) / 64
    let k := (e.1 - 0x401000) % 64 / 4
    let key := 4 * p + k % 3 + 1
    let rate := bget F.bucket_rate (s.qosReg e.1)
    let burst := bget F.bucket_burst (s.qosReg e.1)
    if k < 3 then { s with xb := { s.xb with shape := tset 0 s.xb.shape key (refilled rate burst (tget 0 s.xb.shape key)) } }
    else { s with xb := { s.xb with police := tset 0 s.xb.police key (refilled rate burst (tget 0 s.xb.police key)) } })

/-- Writes of the tick to SHAPE, POLICE, MARK_DEPTH and WEIGHTS take effect, and a new BURST caps the tokens held (R565). -/
def State.qosTick (s : State) : State :=
  let s := s.each s.xb.qos (fun s e => s.capTokens e.1)
  { s with xb := { s.xb with qos := [] } }

/-- The depth bin of R560. -/
def depthBin (d : Nat) : Nat :=
  if d = 0 then 0 else if d < 16 then 1 else if d < 64 then 2 else if d < 256 then 3 else if d < 1024 then 4
  else if d < 4096 then 5 else if d < 16384 then 6 else 7

/-- The queue depths of the ports are sampled (R559). -/
def State.sampleDepths (s : State) : State :=
  if s.flag Reg.telemCtrl F.telemCtrl_enable && s.now % 2 ^ 10 == 0 then
    s.each (List.range 512) (fun s key =>
      let d := s.depth (key / 4) (key % 4)
      let t := s.xb.telem
      let h := 8 * key + depthBin d
      { s with xb := { s.xb with telem := { t with
        hist := tset 0 t.hist h (tget 0 t.hist h + 1), maxDepth := tset 0 t.maxDepth key (max d (tget 0 t.maxDepth key)) } } })
  else s

/-- The level of pin TICK_OUT under its pulses (R396). -/
def State.pulse (s : State) : State :=
  let p := s.fget Reg.tickOutCtrl F.tickOutCtrl_period
  let p := if 10 ≤ p ∧ p ≤ 30 then p else 20
  let v := s.flag Reg.tickOutCtrl F.tickOutCtrl_enable && decide (s.now % 2 ^ p < 2 ^ (p - 1))
  { s with pwr := { s.pwr with tickOut := v } }

/-- A tick of a follower: one eighth of the correction that is left, at most once in 1,024 ticks whatever steps the counter makes, in
ACQUIRE and LOCKED alone (R368, R373); and the interval of exchanges runs (R370). -/
def TimeSt.advance (t : TimeSt) (slews : Bool) : TimeSt :=
  let t := { t with exchWait := t.exchWait - 1, stepNow := false }
  if slews && t.slewLeft != 0 && t.slewWait == 0 then
    let e : Int := if 0 < t.slewLeft then 1 else -1
    { t with slewLeft := t.slewLeft - e, applied := t.applied + e, slewWait := 1023 }
  else { t with slewWait := t.slewWait - 1 }

def State.slew (s : State) : State :=
  { s with time := s.time.advance (s.timeState == tsAcquire || s.timeState == tsLocked) }

/-- Ages of the longest-held buffers of each pool (R564): those of pool 0 that hold cells of packets, and the engines'. -/
def State.ageBuffers (s : State) : State :=
  s.each (List.range 24) (fun s i =>
    let d := i / 6
    let pool := i % 6
    let since := if pool = 0 then (s.xb.pkts.filter (fun k => s.ioDie k.inp == d && decide (k.freed + k.own < k.n))).map Pk.since
      else (s.xb.bufs.filter (fun b => b.die == d && b.pool == pool)).map EngBuf.since
    let age := since.foldl (fun a t => max a ((s.now - t) / 2 ^ 14)) 0
    s.fset (poolReg d pool) F.poolStatus0_oldest (min age (2 ^ 14 - 1)))

/-- Offset and width of the five counters of STACK_CNT (R700). -/
def stackCounters : List (Nat × Nat) := [(0, 64), (8, 64), (0x10, 32), (0x14, 32), (0x18, 32)]

/-- The counters of the stacks that serve traffic run on and wrap (R700). DESIGN CHOICE: assumption 79. -/
def State.countLines (s : State) : State :=
  let ready := (List.range 24).filter (fun k => s.fget (Reg.stackStatus k) F.stackStatus_state == 1)
  if ready.isEmpty then s
  else (s.each ready (fun t k => t.each stackCounters.zipIdx (fun t x =>
    let a := Reg.stackRdLines k + x.1.1
    t.fset a ⟨0, x.1.2⟩ (t.fget a ⟨0, x.1.2⟩ + Config.stackTraffic s.freeCtr (5 * k + x.2))))).bump

/-- One tick of the global counter, with what happens at every tick: at the end of a tick a snapshot of a SURVEY that started in it is
taken (R457), claims apply (R582), a balanced program that has faulted stops (R352), and eligible commands are stamped.
DESIGN CHOICE: assumption 5. DEDUCED: assumptions 29 and 53. -/
def State.tick (s : State) : State :=
  let s := s.deadlines.applyClaims.svTick.vyTick
  let s := s.stampEligible
  let s : State := { s with host := { s.host with tickSignals := [], tickSets := [], relNow := false } }
  let s := s.rset Reg.gcValue (s.rget Reg.gcValue + 1)
  s.flipAt.refill.qosTick.rollTelem.sampleDepths.pulse.slew.ageBuffers.shedTick.checkTick.scrubTick.countLines.takeLoad

/-- TICK: the counter advances by one (R365). DESIGN CHOICE: assumption 5. -/
def execTick (s : State) : Res := s.act true s.tick

end Sys2Proof.Machine
end

