-- ==== Sys2Proof/Machine/Routing.lean ====
section
/-! DEFINITION. The fabric commands: schedules, and the staging and swapping of routes. -/
namespace Sys2Proof.Machine

/-- The work of a fabric command: it needs FABRIC's owner behind its ring (R581). DESIGN CHOICE: assumption 6. -/
def State.fabric (s : State) (c : Ref) (op : Nat) (turn : Bool) (f : Ctx → State) : Res :=
  match s.ctx c with
  | none => .next s
  | some x =>
    s.act (x.phase == .free && x.opcode == op && turn)
      (if s.ownerOf (s.ringJob c.ring) != s.ownerOf resFabric then s.rejectCmd c stNotOwner else f x)

/-- A DMA read of an image failed (R442). -/
def State.imageFault (s : State) (c : Ref) : State :=
  (s.hostReadErr (s.ringCard c.ring) c.ring (some (s.ringJob c.ring))).endCmd c stHostFault

/-! ## Schedules (R543 to R547) -/

/-- The bank that is not in force. -/
def State.freeBank (s : State) : Nat :=
  if s.flag Reg.schedStatus F.schedStatus_inForce then 1 - s.fget Reg.schedStatus F.schedStatus_bank else 0

def State.setBank (s : State) (n : Nat) (b : SchedBank) : State :=
  if n = 0 then { s with xb := { s.xb with bank0 := some b } } else { s with xb := { s.xb with bank1 := some b } }

/-- An OWNER entry of an output is valid (R544). -/
def ownerOk (grafted : Bool) (e v : Nat) : Bool :=
  if grafted || decide (e < 128) then decide (v ≤ 0x100) || v == 0xFFFF else v == 0xFFFF

/-- The owners that an image of n rows names, and whether every entry is valid. -/
def ownersOf (grafted : Bool) (n : Nat) (b : Bytes) : Bool × Tab Nat :=
  (List.range (256 * n)).foldl (fun x i =>
    let v := numAt b (2 * i) 2
    (x.1 && ownerOk grafted (i % 256) v, if v = 0xFFFF then x.2 else x.2 ++ [(i, v)])) (true, [])

/-- A bank is loaded: it awaits its START, or takes force in the next tick (R545). DEDUCED: assumption 54. -/
def State.loadBank (s : State) (c : Ref) (start slotLog2 n : Nat) (clear : Bool) (owners : Tab Nat) : State :=
  let late := decide (start ≤ s.now)
  let s := s.setBank s.freeBank ⟨start, max start (s.now + 1), slotLog2, n, clear, owners⟩
  (s.fset Reg.schedStatus F.schedStatus_pending 1).endCmd c (if late then stLate else stOk)

/-- SCHEDULE_LOAD: it waits while a loaded bank awaits its START (R545). -/
def execScheduleLoad (c : Ref) (image : Option Bytes) (s : State) : Res :=
  s.fabric c 0x13 (!s.flag Reg.schedStatus F.schedStatus_pending) (fun x =>
    let n := x.p 157 13
    let sl := x.p 152 5
    if x.p 170 1 = 1 then s.loadBank c (x.p 88 64) sl n true []
    else if x.p 0 64 % 64 != 0 || !decide (6 ≤ sl ∧ sl ≤ 20) || !decide (1 ≤ n ∧ n ≤ 4096) || x.p 64 24 != 512 * n then
      s.rejectCmd c stBadField
    else if !s.linkUp (s.ringCard c.ring) then s
    else
      let s := s.hostRead (s.ringCard c.ring) (x.p 0 64) (x.p 64 24)
      match image with
      | none => s.imageFault c
      | some b =>
        let (ok, owners) := ownersOf (s.flag Reg.partId F.partId_grafted) n b
        if ok then s.loadBank c (x.p 88 64) sl n false owners else s.rejectCmd c stBadField)

/-- The bank that awaits its START. -/
def State.waitingBank (s : State) : Option SchedBank :=
  if s.flag Reg.schedStatus F.schedStatus_pending then (if s.freeBank = 0 then s.xb.bank0 else s.xb.bank1) else none

/-- SCHEDULE_START: a loaded bank takes force (R545). -/
def execScheduleStart (s : State) : Res :=
  match s.waitingBank with
  | none => .next s
  | some b =>
    s.act (decide (b.force ≤ s.now))
      (let n := s.freeBank
       let a := Reg.schedStatus
       let s := (s.fset a F.schedStatus_bank n).fset a F.schedStatus_inForce (if b.clear then 0 else 1)
       let s := (s.fset a F.schedStatus_pending 0).fset a F.schedStatus_slot (if b.clear then 0 else b.slotAt s.now)
       s.rset Reg.schedStart (BitVec.ofNat 64 b.start))

/-- SLOT_BOUNDARY: the slot in force is that of the counter (R546). -/
def execSlotBoundary (s : State) : Res :=
  match s.bank with
  | none => .next s
  | some b => s.act true (s.fset Reg.schedStatus F.schedStatus_slot (b.slotAt s.now))

/-! ## Route images (R528 to R530, R534) -/

/-- Bytes of an entry, and entries of a table, by KIND. -/
def entrySize : Nat → Nat
  | 0 => 2
  | 1 => 32
  | _ => 128
def tableSize : Nat → Nat
  | 0 => 65536
  | 1 => 255
  | _ => 4096

/-- The sections of an image, none where its form is broken: a cut section, a reserved KIND or bit, or an index past a table. -/
def parseSections : Nat → Bytes → Option (List RouteSection)
  | _, [] => some []
  | 0, _ => none
  | fuel + 1, b =>
    let h := numAt b 0 16
    let kind := nbits h 0 2
    let first := nbits h 2 16
    let count := nbits h 18 17
    let size := entrySize kind
    let len := ceilDiv (size * count) 16 * 16
    if b.length < 16 + len ∨ kind = 3 ∨ nbits h 35 93 ≠ 0 ∨ count = 0 ∨ tableSize kind < first + count
        ∨ numAt b (16 + size * count) (len - size * count) ≠ 0 then none
    else
      match parseSections fuel (b.drop (16 + len)) with
      | none => none
      | some l => some (⟨kind, first, (List.range count).map (fun i => numAt b (16 + size * i) size)⟩ :: l)

/-- One route version with an entry of a section applied. -/
def RouteVer.put (v : RouteVer) (kind i e : Nat) : RouteVer :=
  if kind = 0 then { v with table := tset 0xFF v.table i e }
  else if kind = 1 then { v with groups := tset 0 v.groups i (BitVec.ofNat 256 e) }
  else { v with masks := tset 0 v.masks i (BitVec.ofNat 1024 e) }

/-- The sections applied in order (R529). -/
def RouteVer.apply (v : RouteVer) (l : List RouteSection) : RouteVer :=
  l.foldl (fun v x => (List.range x.entries.length).foldl (fun v i => v.put x.kind (x.first + i) (x.entries.getD i 0)) v) v

/-- A port group: 1 to 16 ports of the logical switch. -/
def groupOk (ports : Nat) (e : Nat) : Bool :=
  let n := nbits e 0 5
  decide (1 ≤ n ∧ n ≤ 16) && (List.range n).all (fun m => decide (nbits e (9 * m + 5) 9 < ports)) && e / 2 ^ 149 == 0

/-- The chain of a mask entry has at most `fuel` entries. -/
def chainOk (v : RouteVer) : Nat → Nat → Bool
  | 0, _ => false
  | fuel + 1, i =>
    let e := tget 0 v.masks i
    !bflag ⟨530, 1⟩ e || chainOk v fuel (bget ⟨518, 12⟩ e)

/-- A mask entry of an image keeps R534, in the version that the image makes. -/
def State.maskOk (s : State) (v : RouteVer) (e : BitVec 1024) : Bool :=
  decide (bget ⟨256, 6⟩ e ≤ 16) && bget ⟨531, 493⟩ e == 0 && (entryParts e).all (fun c => !s.namesSelf c)
    && (!bflag ⟨530, 1⟩ e || chainOk v 15 (bget ⟨518, 12⟩ e))

/-- Ports of the logical switch (R522). -/
def State.portTotal (s : State) : Nat := if s.flag Reg.partId F.partId_grafted then 256 else 128

/-- An entry of a section is valid in the version that the image makes. -/
def State.sectionOk (s : State) (v : RouteVer) (x : RouteSection) : Bool :=
  (List.range x.entries.length).all (fun i =>
    let e := x.entries.getD i 0
    if x.kind = 0 then e / 256 == 0 else if x.kind = 1 then groupOk s.portTotal e else s.maskOk v (BitVec.ofNat 1024 e))

/-- The active and the inactive route version. -/
def State.activeRoutes (s : State) : RouteVer := s.route s.activeEpoch
def State.idleRoutes (s : State) : RouteVer := s.route (1 - s.activeEpoch)

/-- The version that a stage makes. -/
def State.stagedRoutes (s : State) (copy : Bool) (l : List RouteSection) : RouteVer :=
  (if copy then s.activeRoutes else s.idleRoutes).apply l

/-- Order of acceptance: in one tick lower ring first, then in ring order (R530). -/
def Ctx.acceptedBefore (x y : Ctx) : Bool :=
  decide (x.accTick < y.accTick) || (x.accTick == y.accTick && (decide (x.ring < y.ring) || (x.ring == y.ring && earlier x.idx y.idx)))

/-- Route commands run one at a time, in the order of their acceptance, and one that has waited is judged in the tick after the earlier one
completes (R530, R531). DEDUCED: assumption 54. -/
def State.routeTurn (s : State) (c : Ref) : Bool :=
  s.xb.routeTick != some s.now && s.host.ctxs.all (fun y => !isRouteCmd y || !(s.ctx c).any (fun x => y.acceptedBefore x))

/-- ROUTE_STAGE: the whole image is checked, and then waits to be written (R530). -/
def execRouteStage (c : Ref) (image : Option Bytes) (s : State) : Res :=
  s.fabric c 0x14 (s.routeTurn c) (fun x =>
    if x.p 0 64 % 64 != 0 then s.rejectCmd c stBadField
    else if !s.linkUp (s.ringCard c.ring) then s
    else
      let s := s.hostRead (s.ringCard c.ring) (x.p 0 64) (x.p 64 24)
      match image with
      | none => s.imageFault c
      | some b =>
        match parseSections (x.p 64 24) (bytesAt b 0 (x.p 64 24)) with
        | none => s.rejectCmd c stBadField
        | some l =>
          let copy := x.p 88 1 == 1
          let v := s.stagedRoutes copy l
          if l.all (s.sectionOk v) then
            let s := s.modCtx c (Ctx.start s.now)
            { s with xb := { s.xb with staged := some ⟨c.ring, c.idx, copy, l, s.now⟩ } }
          else s.rejectCmd c stBadField)

/-- The part holds a cell of the inactive epoch. -/
def State.holdsIdle (s : State) : Bool :=
  let idle (p : Packet) : Bool := pget p Ph.repoch != s.activeEpoch
  s.xb.pkts.any (fun k => idle k.pkt && (!k.routed || k.refs.any (· != 0)))

/-- ROUTE_STAGE_WRITE: in a tick without a cell of the inactive epoch the version is written and STAGED (R530). -/
def execRouteStageWrite (s : State) : Res :=
  match s.xb.staged with
  | none => .next s
  | some r =>
    s.act (!s.holdsIdle && decide (s.now ≤ r.since + 2 ^ 20))
      (let v := s.stagedRoutes r.copyActive r.sections
       let s : State := if s.activeEpoch = 0 then { s with xb := { s.xb with route1 := v, staged := none } }
         else { s with xb := { s.xb with route0 := v, staged := none } }
       let s := (s.fset Reg.routeStatus F.routeStatus_staged 1).fset Reg.routeStatus F.routeStatus_writing 1
       s.endCmd ⟨r.ring, r.idx⟩ stOk)

/-- ROUTE_STAGE_TIMEOUT: no such tick within 2^20 ticks, and nothing is written (R530). -/
def execRouteStageTimeout (s : State) : Res :=
  match s.xb.staged with
  | none => .next s
  | some r =>
    s.act (decide (r.since + 2 ^ 20 ≤ s.now))
      (({ s with xb := { s.xb with staged := none } } : State).endCmd ⟨r.ring, r.idx⟩ stTimeout)

/-! ## Swaps (R531, R532) -/

/-- ROUTE_SWAP: judged when its turn comes (R531). -/
def execRouteSwap (c : Ref) (s : State) : Res :=
  s.fabric c 0x15 (s.routeTurn c) (fun x =>
    let at_ := x.p 0 64
    if x.p 64 1 = s.activeEpoch then s.rejectCmd c stBadField
    else if !s.flag Reg.routeStatus F.routeStatus_staged then s.rejectCmd c stNotPermitted
    else if at_ = 0 ∨ at_ = s.now then s.flip.endCmd c stOk
    else if at_ < s.now then s.flip.endCmd c stLate
    else s.modCtx c (Ctx.start s.now))

/-- ROUTE_SWAP_AT: the tick of a swap that waits for it has come, at whose start the version has flipped (R531). -/
def execRouteSwapAt (s : State) : Res :=
  match s.host.ctxs.find? (fun x => x.opcode == 0x15 && x.phase == .run) with
  | none => .next s
  | some x => s.act (decide (x.p 0 64 ≤ s.now)) ((if x.p 64 1 = s.activeEpoch then s else s.flip).endCmd x.ref stOk)

end Sys2Proof.Machine
end

