-- ==== Sys2Proof/Machine/Shed.lean ====
section
/-! DEFINITION. What Shed does by itself: restarts, throttling, health scores and the end of a grant. -/
namespace Sys2Proof.Machine

/-- WATCHDOG_EXPIRY: the controller restarts from flash (R594). -/
def execWatchdogExpiry (s : State) : Res := s.actShed (s.bootState == bsRunning) s.restartShed

/-- SHED_SRAM_UNCORRECTABLE: the controller restarts from flash (R594). -/
def execShedSramUncorrectable (_addr : Nat) (s : State) : Res := s.actShed (s.bootState == bsRunning) s.restartShed

/-- FIRMWARE_RESTARTED: the valid image runs again (R594). DEDUCED: assumption 62. -/
def execFirmwareRestarted (s : State) : Res :=
  s.actShed (s.bootState == bsRestarting)
    (if s.imageValid then s.shedRuns else s.toBoot bsRecovery)

/-- HEARTBEAT: COUNT rises by 1 for every 2^20 ticks in which firmware has run, and wraps (R409). -/
def execHeartbeat (s : State) : Res :=
  s.act (s.bootState == bsRunning && decide (2 ^ 20 ≤ s.sinceTick 0))
    ((s.fset Reg.heartbeat F.heartbeat_count (s.fget Reg.heartbeat F.heartbeat_count + 1)).restartTick 0)

/-! ## EVALUATION_INTERVAL (R604 to R610, R615, R686) -/

/-- A sensor register takes a reading, or loses VALID (R598). -/
def State.sense (s : State) (a : Nat) (v : Option Int) : State :=
  match v with
  | some x => (s.fset a F.temp_value (toTwos 12 x)).fset a F.temp_valid 1
  | none => s.fset a F.temp_valid 0

/-- Operating windows of the rails that Shed measures, in percent of nominal (R685). -/
def railWindow : List Nat := [3, 3, 5, 3, 3, 3, 3, 3, 5]

/-- A rail was outside its operating window for the whole interval: its highest voltage below it, or its lowest above (R610, R686). -/
def railOut (rail : Nat) (r : RailReading) : Bool :=
  let n := railNominal.getD rail 0
  let w := railWindow.getD rail 0
  decide (100 * r.maxMv < (100 - w) * n ∨ (100 + w) * n < 100 * r.minMv)

/-- Package power of the interval in millionths of a watt (R604). -/
def powerOf (rails : List RailReading) : Nat := rails.foldl (fun p r => p + r.mv * r.ma) 0

/-- The cap in force (R605). -/
def State.capNow (s : State) : Nat := s.shed.caps.foldl (fun w c => min w c.2) 2600

/-- A reading that is present, or the one before every reading. -/
def hottest (l : List (Option Int)) : Int := l.foldl (fun m v => match v with | some x => max m x | none => m) (-2048)

/-- The cut and the calm intervals after an evaluation (R606). -/
def nextCut (cut calm : Nat) (hot cool : Bool) : Nat × Nat :=
  if hot then (min (cut + 1) 12, 0)
  else if cool then
    if calm + 1 = 8 then (cut - 1, 0) else (cut, calm + 1)
  else (cut, 0)

/-- The reading of the inlet: none where it lies outside 0 °C to 80 °C (R695). -/
def inletOf (r : Readings) : Option Int := r.coolant.filter (fun x => decide (0 ≤ x ∧ x ≤ 640))

/-- The registers that an evaluation fills. -/
def State.takeReadings (s : State) (r : Readings) : State :=
  let s := s.each (List.range 72) (fun s n => s.sense (Reg.temp n) (r.temp.getD n none))
  let s := s.each (List.range 24) (fun s n => s.sense (Reg.hbmTemp n) (r.hbm.getD n none))
  let s := s.sense Reg.coolantIn (inletOf r)
  let s := s.fset Reg.powerNow F.powerNow_watts (min (powerOf r.rails / 1000000) 4095)
  let s := s.fset Reg.powerCap F.powerCap_watts s.capNow
  { s with
    pwr := { s.pwr with dead := s.pwr.dead.filter (fun i => (r.rails.map RailReading.mv).getD i 0 == 0) }
    shed := { s.shed with rails := r.rails.map (fun x => (x.mv, x.ma)) } }

/-- A stack's refresh rate and its points (R608, R615). -/
def State.heatStack (s : State) (k : Nat) (v : Option Int) : State :=
  match v with
  | some x =>
    let s := s.fset (Reg.stackStatus k) F.stackStatus_refresh2x (if 680 ≤ x then 1 else 0)
    if 760 ≤ x then s.addPoints (unitStack k) 8 else s
  | none => s

/-- The inlet is at 40 °C or above, or absent: INLET_HIGH, and an entry at most once every 2^30 ticks (R607). -/
def State.inletCheck (s : State) (c : Option Int) : State :=
  let high := match c with | some x => decide (320 ≤ x) | none => true
  if high then
    let s := s.fset Reg.shedEvents F.shedEvents_inletHigh 1
    let due := match s.shed.inletLog with | some t => decide (t + 2 ^ 30 ≤ s.now) | none => true
    if due then
      let s : State := { s with shed := { s.shed with inletLog := some s.now } }
      s.logEvent 0x02 3 0 0 0 none
    else s
  else { s with shed := { s.shed with inletLog := none } }

/-- The evaluation of a set of readings (R606). DEDUCED: assumption 63. -/
def State.evaluate (s : State) (r : Readings) : State :=
  let s := s.takeReadings r
  let s := s.each (List.range 24) (fun s k => s.heatStack k (r.hbm.getD k none))
  let s := s.inletCheck (inletOf r)
  let bad := (List.range 9).filter (fun i => match r.rails[i]? with | some x => railOut i x | none => false)
  let s := s.each bad (fun s i => (s.fset Reg.shedEvents F.shedEvents_railFault 1).logEvent 0x02 5 0 i ((r.rails.map RailReading.mv).getD i 0) none)
  let tDie := hottest (r.temp.take 68)
  let tHbm := hottest (r.hbm.take 24)
  let cap := 1000000 * s.capNow
  let p := powerOf r.rails
  let powerHot := decide (cap ≤ p) || !bad.isEmpty
  let hot := decide (800 ≤ tDie) || decide (760 ≤ tHbm) || powerHot
  let cool := decide (tDie ≤ 760) && decide (tHbm ≤ 720) && decide (100 * p ≤ 97 * cap)
  let (cut, calm) := nextCut s.shed.cut s.shed.calm hot cool
  let floor := match inletOf r with | some x => if 360 ≤ x then 8 else 0 | none => 8
  let s : State := { s with shed := { s.shed with cut := cut, calm := calm } }
  let cause := (if 800 ≤ tDie then 1 else 0) + (if 760 ≤ tHbm then 2 else 0) + (if powerHot then 4 else 0) + (if floor = 8 then 8 else 0)
  s.applyThrottle (max cut floor) cause

/-- EVALUATION_INTERVAL: at the end of each 2^17 ticks Shed samples the sensors and sets the throttle depth. DESIGN CHOICE: assumption 9. -/
def execEvaluationInterval (r : Readings) (s : State) : Res :=
  s.act (s.bootState == bsRunning && decide (2 ^ 17 ≤ s.sinceTick 1)) ((s.evaluate r).restartTick 1)

/-! ## SCORING_INTERVAL (R615 to R619) -/

/-- SCORE after an interval (R616). -/
def nextScore (score p : Nat) : Nat := min 255 (score - score / 8 + min p 255)

/-- Points of a lane for the n codewords corrected in the interval (R615). -/
def fecPoints (n : Nat) : Nat := Nat.log2 n - 20

/-- A unit's score, its thresholds, and the entries for those it rises through; a lane brings its corrected codewords, and a bed the corrected
errors of its SRAMs, which no row carries (R615, R617, R619). DESIGN CHOICE: assumption 79. -/
def State.scoreUnit (s : State) (u : Nat) : State :=
  let n := if u < 656 then fecPoints (tget 0 s.shed.corrected u) else if isBedUnit u then Config.bedEcc s.freeCtr (bedOf u) else 0
  let s := if n = 0 then s else s.addPoints u n
  let v := tget 0 s.shed.scores u
  let old := v % 256
  let new := nextScore old (tget 0 s.shed.points u)
  let w := v - old - 2 ^ 13 * nbits v 13 2 + new + (if 32 ≤ new then 2 ^ 13 else 0) + (if 128 ≤ new then 2 ^ 14 else 0)
  let s : State := { s with shed := { s.shed with scores := tset 0 s.shed.scores u w } }
  s.scoreRise u old new

/-- SCORING_INTERVAL: every unit's score takes the points of 2^27 ticks. DEDUCED: assumption 63. -/
def execScoringInterval (s : State) : Res :=
  s.act (s.bootState == bsRunning && decide (2 ^ 27 ≤ s.sinceTick 2))
    (let s := ((s.each (List.range unitTotal) State.scoreUnit).restartTick 2).bump
     { s with shed := { s.shed with points := [], corrected := s.shed.corrected.filter (fun e => decide (656 ≤ e.1)) } })

/-- GRANT_EXPIRY: the lifetime of a grant has ended; before INIT_DONE the gate stays open as reset left it (R462). DEDUCED: assumption 42. -/
def execGrantExpiry (s : State) : Res :=
  match s.shed.grantEnd with
  | none => .next s
  | some t =>
    s.act (decide (t ≤ s.now))
      (let s : State := { s with shed := { s.shed with grantEnd := none } }
       if s.flag Reg.service F.service_initDone then s.closeGate else s.fset Reg.expertGate F.expertGate_cause 0)

end Sys2Proof.Machine
end

