-- ==== Sys2Proof/WellFormed.lean ====
section
/-! DEFINITION. Which commands are well formed: every operand within the range that the chapters give it. -/
namespace Sys2Proof

/-- Rings of a package (R412). -/
def ringWf (n : Nat) : Bool := decide (n < 16384)
/-- Jobs (R447). -/
def jobWf (n : Nat) : Bool := decide (n < 4096)
/-- Tags of operations (R225). -/
def tagWf (n : Nat) : Bool := decide (n < 1024)
/-- HBM stacks of a package (R2). -/
def stackWf (n : Nat) : Bool := decide (n < 24)
/-- Mirror sessions (R555). -/
def sessionWf (n : Nat) : Bool := decide (n < 8)
/-- Health units (R602). -/
def unitWf (n : Nat) : Bool := decide (n < 1720)
/-- Runner lanes of a package (R502). -/
def laneWf (n : Nat) : Bool := decide (n < 512)
/-- Lanes of the expert lane registers (R405). -/
def expertLaneWf (n : Nat) : Bool := decide (n < 656)
/-- Graft trunks (R570). -/
def trunkWf (n : Nat) : Bool := decide (n < 4)
/-- Resources (R580). -/
def resourceWf (n : Nat) : Bool := decide (n < 8192)
/-- Physical beds (R3). -/
def bedWf (n : Nat) : Bool := decide (n < 272)
/-- Tiles of a program (R283) and threads of a tile. -/
def tileWf (n : Nat) : Bool := decide (n < 256)
def threadWf (n : Nat) : Bool := decide (n < 512)
/-- Buffer pools of an I/O die (R550). -/
def poolWf (n : Nat) : Bool := decide (n < 6)
/-- I/O dies and compute dies of a package (R2). -/
def ioDieWf (n : Nat) : Bool := decide (n < 4)
def computeDieWf (n : Nat) : Bool := decide (n < 8)
/-- Links: Runner ports, and the trunks as 128 to 131. -/
def linkWf (n : Nat) : Bool := decide (n < 133)
/-- Inputs of the crossbar: links, the part's engines as 0x100 and the Taproot bridge as 0x101 (R519). -/
def inputWf (n : Nat) : Bool := decide (n < 128 ∨ n = 0x100 ∨ n = 0x101 ∨ 0x200 ≤ n ∧ n < 0x204)
/-- Die sensors 0 to 71, and stack s as 72 + s (R603). -/
def sensorWf (n : Nat) : Bool := decide (n < 96)
/-- Lines of 512 B of the HBM store (R654). -/
def lineWf (n : Nat) : Bool := decide (n < 24 * 2 ^ 26)
/-- What a scrub finds: a sound line, a corrected one or an uncorrectable one. -/
def foundWf (n : Nat) : Bool := decide (n < 3)
/-- Rails of R685. -/
def railWf (n : Nat) : Bool := decide (n < 10)
/-- The reference, or the lock of the root PLL (R363). -/
def causeWf (n : Nat) : Bool := decide (n < 2)
/-- Accesses of 4 B and 8 B are those that act; every other size is one that the card turns away (R404). -/
def sizeWf (n : Nat) : Bool := decide (0 < n ∧ n ≤ 8)
/-- Byte addresses of the register space of 64 MiB, and of BAR2 of 64 KiB after it (R398). PRESUMED: assumption 69. -/
def addrWf (n : Nat) : Bool := decide (n < 2 ^ 26 + 2 ^ 16)
/-- A flit of 272 B, and its payload of 256 B (R470). -/
def flitWf (b : Bytes) : Bool := decide (b.length = 272)
def flitPayloadWf (b : Bytes) : Bool := decide (b.length = 256)
/-- PCIe at 2.5 to 64 GT/s, generations 1 to 6, and at x16, x8, x4, x2 and x1 (R398). -/
def pcieWf (gen width : Nat) : Bool := decide (1 ≤ gen ∧ gen ≤ 6) && [1, 2, 4, 8, 16].contains width
/-- Sense voltages of the eight contacts (R683). -/
def voltsWf (l : List Nat) : Bool := decide (l.length = 8)

/-- A command of a ring: pointer values are 32 bits (R419). -/
def Ref.wf (c : Ref) : Bool := ringWf c.ring && decide (c.idx < 2 ^ 32)
/-- A packet: four classes, and at most 4,096 cells, as CSEQ counts them (R506). -/
def Packet.wf (p : Packet) : Bool := decide (p.cls < 4) && decide (p.payload.length ≤ 224 + 4095 * 248)
/-- A thread of a program (R283). -/
def VOp.wf (v : VOp) : Bool := tileWf v.tile && threadWf v.tid
/-- A report of a receiver: lanes of the package, or of a link, and the 24 taps of a lane's DFE (R467). -/
def Fec.wf (f : Fec) : Bool :=
  f.fixed.all (fun x => laneWf x.1) && f.bad.all laneWf && f.taps.all (fun x => laneWf x.1 && decide (x.2.1 < 24))
/-- Readings: 72 die sensors, 24 stacks, and the nine rails that Shed measures, in 12 bits each (R598, R603, R685). -/
def Readings.wf (r : Readings) : Bool :=
  let fits (v : Option Int) : Bool := match v with | some x => decide (-2048 ≤ x ∧ x < 2048) | none => true
  decide (r.temp.length = 72) && decide (r.hbm.length = 24) && decide (r.rails.length = 9) && r.temp.all fits && r.hbm.all fits
    && fits r.coolant

/-- A command's operands lie within their ranges. -/
def Instr.wf : Instr → Bool
  | .nop c | .openBucket c | .closeBucket c | .allreduce c | .reduceScatter c | .allgather c | .shift c | .permute c |
    .norm c _ | .step c _ | .publish c | .park c | .fetch c | .checkpoint c | .restore c _ | .sieveRun c _ | .fence c |
    .unfence c | .launchAt c | .scheduleLoad c _ | .routeStage c _ | .routeSwap c | .survey c | .waitRelease c _ | .admitOp c |
    .normDeadline c | .stepStart c _ | .publishStart c | .checkpointStart c | .commandComplete c | .launchMature c |
    .programStart c _ _ | .programDeadline c => c.wf
  | .br v | .jmp v | .call v | .ret v | .halt v | .barT v | .barG v | .syncL v | .syncG v | .waitx v | .add v | .sub v | .mul v |
    .mulh v | .mulhu v | .div v | .divu v | .rem v | .remu v | .and v | .or v | .xor v | .shl v | .shr v | .sar v | .rotl v |
    .min v | .max v | .minu v | .maxu v | .mov v | .cmpEq v | .cmpLt v | .cmpLtu v | .fadd v | .fsub v | .fmul v | .fma v |
    .fnma v | .fdiv v | .fsqrt v | .fmax v | .fmin v | .fabs v | .fsign v | .fsel v | .fmov v | .fcmpEq v | .fcmpLt v |
    .fcmpLe v | .dec v | .enc v | .wclr v | .wacc v | .wdot v | .wadd v | .wread v | .maxr v | .ld v | .lds v | .st v | .pld v |
    .pst v | .aadd v | .amin v | .amax v | .aminu v | .amaxu v | .aand v | .aor v | .aswp v | .acas v | .sacc v | .sld v |
    .bxferI v | .bxferO v | .gets v | .seed v | .wqtake v => v.wf
  | .evaluationInterval r => r.wf
  | .descriptorRead x _ _ | .irqDelay x | .doorbell _ x _ _ | .ringEnable _ x _ | .ringDisable _ x _ => ringWf x
  | .contrib port p | .xp port p _ | .result port p | .ready port p | .ready2 port p | .summary port p | .abort port p |
    .normMax port ⟨p, _⟩ | .normSum port p _ | .pubMax port p | .block port p | .stats port p | .allgatherData port p |
    .shiftData port p | .permuteCounts port p | .permuteRows port p | .parkData port p | .imageData port p => inputWf port && p.wf
  | .rakeAccumulate x _ => bedWf x
  | .chunkFinal job tag _ _ | .bucketComplete job tag | .nonrootComplete job tag | .xpSend job tag _ _ |
    .bucketDeadline job tag => jobWf job && tagWf tag
  | .packetRoute inp p => inputWf inp && p.wf
  | .transferComplete tile tid _ => tileWf tile && threadWf tid
  | .jobEnable _ x | .jobDisable _ x | .jobEndComplete x => jobWf x
  | .layoutCommit _ _ | .partReset _ _ | .initDone _ | .expertGateClose _ | .surveyGo _ | .surveyComplete _ | .gcLoad _ _ |
    .timeCtrl _ _ | .tickOutEnable _ _ | .debugClockEnable _ _ | .telemetryEnable _ _ | .telemetryInterval | .identity _ _ |
    .quote _ _ | .logFetch _ _ | .logAck _ _ | .sensors _ _ | .healthDetail _ _ | .powerCap _ _ | .gateChallenge _ _ |
    .gateGrant _ _ | .fwBegin _ _ | .fwChunk _ _ | .fwCommit _ _ | .shutdown _ _ | .slice _ _ | .repair _ _ | .fuse _ _ |
    .lifecycle _ _ | .ownerEnroll _ _ | .porAssert | .porRelease _ | .rootPllLock | .firmwareBoot | .wipeComplete |
    .seedlingExit | .standbyPowerLoss | .fullRateAdvertise | .timeExchange | .counterStep | .mergeComplete | .slotBoundary |
    .scheduleStart | .routeSwapAt | .routeStageWrite | .routeStageTimeout | .watchdogExpiry | .firmwareRestarted | .heartbeat |
    .scoringInterval | .grantExpiry | .tick | .cellTime | .shedSramUncorrectable _ | .standbyPowerApplied => true
  | .portEnable _ x | .portDisable _ x | .portRetrain _ x | .capTimer x | .stageTimeout x | .squelchEnd x | .ackTimer x |
    .farRetrain x | .retrainComplete x | .linkLost x _ | .fullRateRetry x | .flitSlot x => linkWf x
  | .lxCtrl _ x _ | .lxPrbsErrRead _ x => expertLaneWf x
  | .mirrorEnable _ x _ | .mirrorDisable _ x _ | .mirHead _ x _ => sessionWf x
  | .claim _ x | .release _ x => resourceWf x
  | .hppr _ x _ | .sppr _ x _ | .pprComplete x _ _ | .mrSel _ x _ _ | .stackTraining x _ _ => stackWf x
  | .registerWrite _ addr size _ => addrWf addr && sizeWf size
  | .clockFailure x => causeWf x
  | .railCollapse x _ => railWf x
  | .thermalTrip x => sensorWf x
  | .taprootLinkDown ⟨x, _⟩ => decide (x < 2)
  | .taprootLinkUp x width mode => decide (x < 2) && pcieWf mode.gen width
  | .detectTest port lanes => linkWf port && decide (lanes.length ≤ 16)
  | .trainComplete port lanes => linkWf port && decide (lanes.length ≤ 32)
  | .lockComplete port markers => linkWf port && decide (markers.length ≤ 32)
  | .capFlit port cap => linkWf port && flitPayloadWf cap
  | .cellFlit ⟨port, lane⟩ fec flit => linkWf port && decide (lane < 32) && fec.wf && flitWf flit
  | .timeRequest port flit | .timeReply port flit => linkWf port && flitPayloadWf flit
  | .graftSense x => voltsWf x
  | .pairFlit trunk pair => trunkWf trunk && flitPayloadWf pair
  | .pairingTimeout x => trunkWf x
  | .poolWaitGrant die pool => ioDieWf die && poolWf pool
  | .periodicSlice x => computeDieWf x
  | .sliceBegin x | .sliceDeferred x | .sliceEnd x _ => unitWf x
  | .patrolScrub line found => lineWf line && foundWf found
  | .fullBistComplete x => x.all unitWf

end Sys2Proof
end

