-- ==== Sys2Proof/Machine/Taproot.lean ====
section
/-! DEFINITION. The Taproot link of a card: its loss and its return (R400, R401). -/
namespace Sys2Proof.Machine

/-- TAPROOT_LINK_DOWN: a card's link goes down, or its endpoint enters D3hot; traffic through the card is held from now on. -/
def execTaprootLinkDown (loss : TapLoss) (s : State) : Res :=
  s.act (s.hasCard loss.card && s.linkUp loss.card)
    (if loss.d3hot then (s.fset (Reg.tapStatus + cardSpan * loss.card) F.tapStatus_d3hot 1).tapGone loss.card else s.loseTap loss.card)

/-- TAPROOT_LINK_UP: a card serves host memory over one of the rates and widths of R398; the package's own, once its Taproot link has come through
the five stages (R400). The completions held for it are written in completion order, and a program that waited for
it goes on. DESIGN CHOICE: assumption 78. -/
def execTaprootLinkUp (card width : Nat) (mode : TapMode) (s : State) : Res :=
  s.act (s.hasCard card && !s.linkUp card && pcieWf mode.gen width && (card != s.pkgNo || s.tapUp))
    (let c := cardSpan * card
     let s := ((s.fset (Reg.tapStatus + c) F.tapStatus_linkUp 1).fset (Reg.tapStatus + c) F.tapStatus_d3hot 0)
     let s := (s.fset (Reg.tapStatus + c) F.tapStatus_pcieGen mode.gen).fset (Reg.tapStatus + c) F.tapStatus_pcieWidth width
     (s.fset (Reg.tapStatus + c) F.tapStatus_flit (if mode.flit then 1 else 0)).flushHeld.vyResume)

end Sys2Proof.Machine
end

