-- ==== Sys2Proof/Machine/VyControl.lean ====
section
/-! DEFINITION. Vyush control operations: branches, calls, barriers and synchronisation. -/
namespace Sys2Proof.Machine

/-- BR: to the instruction index in operand B when Q[D[2:0]] is 1 (R294). DEDUCED: assumption 33. -/
def execBr (v : VOp) (s : State) : Res :=
  s.vyIssue v 0 0 ⟨32, 1, 32, 1, 1⟩ (fun _ v p t =>
    .done p (if t.qget v.d then { t with pc := (opB v t).toNat % 2 ^ 14 } else t))

/-- JMP: to the instruction index in operand B. -/
def execJmp (v : VOp) (s : State) : Res :=
  s.vyIssue v 0 1 ⟨1, 1, 32, 1, 1⟩ (fun _ v p t => .done p { t with pc := (opB v t).toNat % 2 ^ 14 })

/-- CALL: the next instruction's index is pushed; 16 entries in use fault (R290, R351). -/
def execCall (v : VOp) (s : State) : Res :=
  s.vyIssue v 0 2 ⟨1, 1, 32, 1, 1⟩ (fun _ v p t =>
    if 16 ≤ t.stack.length then .fault vkStack 0 none
    else .done p { t with pc := (opB v t).toNat % 2 ^ 14, stack := t.pc :: t.stack })

/-- RET: to the index on top of the return stack; an empty one faults (R351). -/
def execRet (v : VOp) (s : State) : Res :=
  s.vyIssue v 0 3 ⟨1, 1, 1, 1, 0⟩ (fun _ _ p t =>
    match t.stack with
    | [] => .fault vkStack 0 none
    | x :: r => .done p { t with pc := x, stack := r })

/-- HALT: the thread counts as arrived at every later barrier (R305, R328); for a library program, its threads have done their work.
DESIGN CHOICE: assumption 36. -/
def execHalt (v : VOp) (s : State) : Res :=
  if s.vy.any (fun p => p.lib != 0) then s.libraryHalt v
  else s.vyIssue v 0 4 ⟨1, 1, 1, 1, 0⟩ (fun s _ p t => .done { p with halted := s.now } { t with stat := .halt })

/-- BAR.T: the thread waits for every live thread of its tile; it includes a SYNC.L (R305, R312). -/
def execBarT (v : VOp) (s : State) : Res :=
  s.vyIssue v 0 5 ⟨1, 1, 1, 1, 0⟩ (fun _ _ p t => .done p { t with stat := .barT })

/-- BAR.G: the thread waits for every live thread of the program; it includes a SYNC.G (R305, R312). -/
def execBarG (v : VOp) (s : State) : Res :=
  s.vyIssue v 0 6 ⟨1, 1, 1, 1, 0⟩ (fun _ _ p t => .done p { t with stat := .barG })

/-- SYNC.L: stores act on windows directly in balanced mode, and it completes at once in deterministic mode (R310, R312). -/
def execSyncL (v : VOp) (s : State) : Res :=
  s.vyIssue v 0 7 ⟨1, 1, 1, 1, 0⟩ (fun _ _ p t => .done p t)

/-- SYNC.G: in balanced mode the thread's SACC requests become visible (R310, R316). -/
def execSyncG (v : VOp) (s : State) : Res :=
  s.vyIssue v 0 8 ⟨1, 1, 1, 1, 0⟩ (fun _ v p t =>
    .done (if p.balanced then p.showAdds (fun a => a.tile == v.tile && a.tid == v.tid) else p) t)

/-- WAITX: in balanced mode the thread waits for its transfers (R310, R320). -/
def execWaitx (v : VOp) (s : State) : Res :=
  s.vyIssue v 0 9 ⟨1, 1, 1, 1, 0⟩ (fun _ v p t =>
    if p.balanced && p.xfers.any (fun x => x.tile == v.tile && x.tid == v.tid && !x.done) then .wait else .done p t)

end Sys2Proof.Machine
end

