-- ==== Sys2Proof/Machine/VyFloat.lean ====
section
/-! DEFINITION. Vyush floating operations and compares, and conversions from and to the formats. -/
namespace Sys2Proof.Machine

/-- The low 32 bits of an operand (R297). -/
def lo32 (x : Word64) : Nat := x.toNat % 2 ^ 32

/-- A floating operation by its code: c is the old value of D (R174, R297). `binary` says whether operand B is used. -/
def State.vyFloat (s : State) (v : VOp) (op : Nat) (binary : Bool) : Res :=
  s.vyIssue v 2 op ⟨32, 32, if binary then 32 else 1, 1, if binary then 1 else 0⟩ (fun _ v p t =>
    let b := if binary then lo32 (opB v t) else 0
    match floatOp op (lo32 (t.gget v.a)) b (lo32 (t.gget v.d)) with
    | some r => .done p (t.gset v.d (BitVec.ofNat 64 (r % 2 ^ 32)))
    | none => .done p t)

/-- Values that are no NaN compare by value, zeros equal; a NaN compares false. -/
def numLt : Num → Num → Bool
  | .nan, _ | _, .nan => false
  | .fin s p, .fin t q => decide (signed s p < signed t q)
  | x, y => x.lt y
def numEq : Num → Num → Bool
  | .nan, _ | _, .nan => false
  | x, y => !numLt x y && !numLt y x

/-- A floating compare into Q[D[2:0]] (R294). -/
def State.vyFcmp (s : State) (v : VOp) (k : Nat) (f : Num → Num → Bool) : Res :=
  s.vyIssue v 2 k ⟨32, 32, 32, 1, 1⟩ (fun _ v p t =>
    .done p (t.qset v.d (f (f32 (lo32 (t.gget v.a))) (f32 (lo32 (opB v t))))))

/-- FADD: a + b (R174, R297). -/
def execFadd (v : VOp) (s : State) : Res := s.vyFloat v 1 true
/-- FSUB: a − b (R174, R297). -/
def execFsub (v : VOp) (s : State) : Res := s.vyFloat v 2 true
/-- FMUL: a × b (R174, R297). -/
def execFmul (v : VOp) (s : State) : Res := s.vyFloat v 3 true
/-- FMA: a × b + c, rounded once (R174, R297). DEDUCED: assumption 33. -/
def execFma (v : VOp) (s : State) : Res := s.vyFloat v 4 true
/-- FNMA: c − a × b (R174, R297). -/
def execFnma (v : VOp) (s : State) : Res := s.vyFloat v 5 true
/-- FDIV: a ÷ b (R174, R297). -/
def execFdiv (v : VOp) (s : State) : Res := s.vyFloat v 6 true
/-- FSQRT: √a (R174, R297). -/
def execFsqrt (v : VOp) (s : State) : Res := s.vyFloat v 7 false
/-- FMAX: the larger of a and b (R174, R297). -/
def execFmax (v : VOp) (s : State) : Res := s.vyFloat v 8 true
/-- FMIN: the smaller of a and b (R174, R297). -/
def execFmin (v : VOp) (s : State) : Res := s.vyFloat v 9 true
/-- FABS: |a| (R174, R297). -/
def execFabs (v : VOp) (s : State) : Res := s.vyFloat v 10 false
/-- FSIGN: the sign of a as ±1.0 (R174, R297). -/
def execFsign (v : VOp) (s : State) : Res := s.vyFloat v 11 false
/-- FSEL: a when c is a zero or positive, else b (R174, R297). -/
def execFsel (v : VOp) (s : State) : Res := s.vyFloat v 12 true
/-- FMOV: a (R174, R297). -/
def execFmov (v : VOp) (s : State) : Res := s.vyFloat v 13 false
/-- FCMP.EQ. -/
def execFcmpEq (v : VOp) (s : State) : Res := s.vyFcmp v 16 numEq
/-- FCMP.LT. -/
def execFcmpLt (v : VOp) (s : State) : Res := s.vyFcmp v 17 numLt
/-- FCMP.LE. -/
def execFcmpLe (v : VOp) (s : State) : Res := s.vyFcmp v 18 (fun x y => numLt x y || numEq x y)

/-! ## Control words (R298) -/

abbrev Cw.fmt : Bits := ⟨0, 4⟩
abbrev Cw.mode : Bits := ⟨4, 2⟩
abbrev Cw.sat : Bits := ⟨6, 1⟩
abbrev Cw.draw : Bits := ⟨8, 24⟩

/-- A control word that is bad encoding. -/
def badControl (w : Word64) : Bool :=
  let f := bget Cw.fmt w
  f == 8 || f == 9 || f == 10 || f == 15 || bget Cw.mode w == 3 || bget ⟨7, 1⟩ w != 0 || bget ⟨32, 32⟩ w != 0

/-- A value encoded by a control word, with its events (R79 to R87). -/
def encodeBy (w : Word64) (x : Num) : Nat × Cnt :=
  encodeNum (bget Cw.fmt w) (bget Cw.mode w) (bflag Cw.sat w) (bget Cw.draw w) x

/-- DEC: the encoding in the low bits of G[A], decoded to FP32; INT32 rounds once by MODE (R298). -/
def execDec (v : VOp) (s : State) : Res :=
  s.vyIssue v 3 0 ⟨32, 32, 32, 1, 1⟩ (fun _ v p t =>
    let w := opB v t
    if badControl w then .fault vkBadOpcode 0 none
    else
      let f := bget Cw.fmt w
      let x := decodeNum f ((t.gget v.a).toNat % 2 ^ elemBits f)
      .done p (t.gset v.d (BitVec.ofNat 64 (encodeFloat fp32 (bget Cw.mode w) (bflag Cw.sat w) (bget Cw.draw w) x).1)))

/-- ENC: the FP32 value in G[A], encoded; its events are counted (R298, R301). -/
def execEnc (v : VOp) (s : State) : Res :=
  s.vyIssue v 3 1 ⟨32, 32, 32, 1, 1⟩ (fun _ v p t =>
    let w := opB v t
    if badControl w then .fault vkBadOpcode 0 none
    else
      let (c, n) := encodeBy w (f32 (lo32 (t.gget v.a)))
      .done { p with cnt := p.cnt.add n } (t.gset v.d (BitVec.ofNat 64 c)))

end Sys2Proof.Machine
end

