-- ==== Sys2Proof/Machine/VyExact.lean ====
section
/-! DEFINITION. The exact unit of Vyush and the scratch slots. -/
namespace Sys2Proof.Machine

/-- The source value of WACC and SACC: FP32, or INT64 when MOD is 1 (R299, R315). -/
def exactSource (mod : Nat) (x : Word64) : Num := if mod = 1 then Num.ofRat false (x.toInt : Rat) else f32 (lo32 x)

/-- The events of one term are counted (R301). -/
def VyProg.countTerm (p : VyProg) (c : InCnt) : VyProg := { p with aovf := p.aovf + c.aovf, gzero := p.gzero + c.gzero }

/-- WCLR: a new anchor and headroom, and an empty sum (R299). -/
def execWclr (v : VOp) (s : State) : Res :=
  s.vyIssue v 4 0 ⟨4, 32, 32, 1, 1⟩ (fun _ v p t =>
    let h := (opB v t).toNat
    if h < 20 ∨ 40 < h then .fault vkBadOpcode 0 none
    else .done p (t.wset v.d ⟨Slot.empty, bsgn ⟨0, 10⟩ (t.gget v.a), h, 0⟩))

/-- A term enters an accumulator, unless its count would pass 2^H (R300). -/
def addTerm (p : VyProg) (t : VyThread) (d : Nat) (f : WAcc → Slot × InCnt) : VyRes :=
  let w := t.wget d
  if 2 ^ w.head < w.count + 1 then .fault vkAccLimit d none
  else
    let (x, c) := f w
    .done (p.countTerm c) (t.wset d { w with slot := x, count := w.count + 1 })

/-- WACC: the value in G[A] by R121 (R299). -/
def execWacc (v : VOp) (s : State) : Res :=
  s.vyIssue v 4 1 ⟨4, 32, 1, 2, 0⟩ (fun _ v p t =>
    addTerm p t v.d (fun w => accumulate (2 ^ (127 - w.head)) w.anchor w.slot (exactSource v.mod (t.gget v.a))))

/-- WDOT: the exact product of two FP32 values (R299). -/
def execWdot (v : VOp) (s : State) : Res :=
  s.vyIssue v 4 2 ⟨4, 32, 32, 1, 1⟩ (fun _ v p t =>
    addTerm p t v.d (fun w => dotTerm w.anchor w.head w.slot (f32 (lo32 (t.gget v.a))) (f32 (lo32 (opB v t)))))

/-- WADD: Wa combined into Wd (R299). DESIGN CHOICE: assumption 37. -/
def execWadd (v : VOp) (s : State) : Res :=
  s.vyIssue v 4 3 ⟨4, 4, 1, 1, 0⟩ (fun _ v p t =>
    let x := t.wget v.d
    let y := t.wget v.a
    if x.anchor ≠ y.anchor ∨ x.head ≠ y.head then .fault vkAnchor (Config.anchorDiffAddr v.d v.a) none
    else if 2 ^ x.head < x.count + y.count then .fault vkAccLimit v.d none
    else .done p (t.wset v.d { x with slot := x.slot.join y.slot, count := x.count + y.count }))

/-- WREAD: Wa read out into a format; its events are counted (R299, R301). -/
def execWread (v : VOp) (s : State) : Res :=
  s.vyIssue v 4 4 ⟨32, 4, 32, 1, 1⟩ (fun _ v p t =>
    let w := opB v t
    if badControl w then .fault vkBadOpcode 0 none
    else
      let x := t.wget v.a
      let (c, n) := encodeBy w (readSlot x.anchor x.slot)
      .done { p with cnt := p.cnt.add n } (t.gset v.d (BitVec.ofNat 64 c)))

/-- MAXR: the larger of a MAXREC and of |x| (R299). -/
def execMaxr (v : VOp) (s : State) : Res :=
  s.vyIssue v 4 5 ⟨32, 32, 32, 1, 1⟩ (fun _ v p t =>
    .done p (t.gset v.d (BitVec.ofNat 64
      (maxrecAdd (BitVec.ofNat 32 (lo32 (t.gget v.a))) (f32 (lo32 (opB v t)))).toNat)))

/-- SACC: a request to add into a scratch slot; one beyond the limit of its stripe adds nothing, and in deterministic mode the thread runs
on (R315 to R317, R352). DEDUCED: assumption 34. -/
def execSacc (v : VOp) (s : State) : Res :=
  s.vyIssue v 8 0 ⟨1, 32, 32, 2, 1⟩ (fun _ v p t =>
    let i := (t.gget v.a).toNat
    if 256 * p.stripes ≤ i then .fault vkScratch i none
    else
      let k := i / 256
      if 1048576 < tget 0 p.reqs k + 1 then
        if p.balanced then .fault vkAccLimit k (some 0) else .done (p.note vkAccLimit 0 k) t
      else .done { p with adds := p.adds ++ [⟨v.tile, v.tid, i, exactSource v.mod (opB v t)⟩],
                          reqs := tset 0 p.reqs k (tget 0 p.reqs k + 1) } t)

/-- SLD: a scratch slot's visible value into Wd (R315). -/
def execSld (v : VOp) (s : State) : Res :=
  s.vyIssue v 8 1 ⟨4, 32, 1, 1, 0⟩ (fun _ v p t =>
    let i := (t.gget v.a).toNat
    if 256 * p.stripes ≤ i then .fault vkScratch i none
    else .done p (t.wset v.d ⟨tget Slot.empty p.slots i, p.anchor, 20, tget 0 p.seen (i / 256)⟩))

end Sys2Proof.Machine
end

