-- ==== Sys2Proof/Machine/VyInt.lean ====
section
/-! DEFINITION. Vyush integer operations and integer compares. -/
namespace Sys2Proof.Machine

/-- A 64-bit integer operation of operands A and B into D (R294, R296). -/
def State.vyInt (s : State) (v : VOp) (k : Nat) (op : IntOp) : Res :=
  s.vyIssue v 1 k ⟨32, 32, 32, 1, 1⟩ (fun _ v p t => .done p (t.gset v.d (intOp op (t.gget v.a) (opB v t))))

/-- A compare of operands A and B into Q[D[2:0]] (R294). -/
def State.vyCmp (s : State) (v : VOp) (k : Nat) (f : Word64 → Word64 → Bool) : Res :=
  s.vyIssue v 1 k ⟨32, 32, 32, 1, 1⟩ (fun _ v p t => .done p (t.qset v.d (f (t.gget v.a) (opB v t))))

/-- ADD: the sum (R296). -/
def execAdd (v : VOp) (s : State) : Res := s.vyInt v 0 .add
/-- SUB: the difference (R296). -/
def execSub (v : VOp) (s : State) : Res := s.vyInt v 1 .sub
/-- MUL: the low 64 bits of the product (R296). -/
def execMul (v : VOp) (s : State) : Res := s.vyInt v 2 .mul
/-- MULH: the high 64 bits of the signed product (R296). -/
def execMulh (v : VOp) (s : State) : Res := s.vyInt v 3 .mulh
/-- MULHU: the high 64 bits of the unsigned product (R296). -/
def execMulhu (v : VOp) (s : State) : Res := s.vyInt v 4 .mulhu
/-- DIV: the signed quotient; all ones for a zero divisor (R296). -/
def execDiv (v : VOp) (s : State) : Res := s.vyInt v 5 .div
/-- DIVU: the unsigned quotient; all ones for a zero divisor (R296). -/
def execDivu (v : VOp) (s : State) : Res := s.vyInt v 6 .divu
/-- REM: the signed remainder; the dividend for a zero divisor (R296). -/
def execRem (v : VOp) (s : State) : Res := s.vyInt v 7 .rem
/-- REMU: the unsigned remainder; the dividend for a zero divisor (R296). -/
def execRemu (v : VOp) (s : State) : Res := s.vyInt v 8 .remu
/-- AND: the bitwise and (R296). -/
def execAnd (v : VOp) (s : State) : Res := s.vyInt v 9 .and
/-- OR: the bitwise or (R296). -/
def execOr (v : VOp) (s : State) : Res := s.vyInt v 10 .or
/-- XOR: the bitwise exclusive or (R296). -/
def execXor (v : VOp) (s : State) : Res := s.vyInt v 11 .xor
/-- SHL: A shifted left by bits [5:0] of B (R296). -/
def execShl (v : VOp) (s : State) : Res := s.vyInt v 12 .shl
/-- SHR: A shifted right, zeros entering (R296). -/
def execShr (v : VOp) (s : State) : Res := s.vyInt v 13 .shr
/-- SAR: A shifted right, its sign entering (R296). -/
def execSar (v : VOp) (s : State) : Res := s.vyInt v 14 .sar
/-- ROTL: A rotated left (R296). -/
def execRotl (v : VOp) (s : State) : Res := s.vyInt v 15 .rotl
/-- MIN: the smaller, signed (R296). -/
def execMin (v : VOp) (s : State) : Res := s.vyInt v 16 .min
/-- MAX: the larger, signed (R296). -/
def execMax (v : VOp) (s : State) : Res := s.vyInt v 17 .max
/-- MINU: the smaller, unsigned (R296). -/
def execMinu (v : VOp) (s : State) : Res := s.vyInt v 18 .minu
/-- MAXU: the larger, unsigned (R296). -/
def execMaxu (v : VOp) (s : State) : Res := s.vyInt v 19 .maxu
/-- MOV: operand A (R294). DEDUCED: assumption 33. -/
def execMov (v : VOp) (s : State) : Res :=
  s.vyIssue v 1 20 ⟨32, 32, 1, 1, 0⟩ (fun _ v p t => .done p (t.gset v.d (intOp .mov (t.gget v.a) 0)))
/-- CMP.EQ: Q[D[2:0]] is 1 when the operands are equal. -/
def execCmpEq (v : VOp) (s : State) : Res := s.vyCmp v 21 (fun a b => a == b)
/-- CMP.LT: signed less. -/
def execCmpLt (v : VOp) (s : State) : Res := s.vyCmp v 22 (fun a b => decide (a.toInt < b.toInt))
/-- CMP.LTU: unsigned less. -/
def execCmpLtu (v : VOp) (s : State) : Res := s.vyCmp v 23 (fun a b => decide (a.toNat < b.toNat))

end Sys2Proof.Machine
end

