-- ==== Sys2Proof/Machine/VyMemory.lean ====
section
/-! DEFINITION. Vyush memory: window and peer accesses, atomics, buffer transfers, special registers, Seedline and work items. -/
namespace Sys2Proof.Machine

/-- The address of a memory operation: G[A] plus the immediate (R303). DEDUCED: assumption 33. -/
def memAddr (v : VyIns) (t : VyThread) : Word64 :=
  t.gget v.a + (match v.imm with
    | some w => w.signExtend 64
    | none => 0)

/-- Size of an access by MOD: 1, 2, 4 or 8 B (R294). -/
def memSize (v : VyIns) : Nat := 2 ^ v.mod

/-- Tile and offset of an access, or its fault (R303, R304). -/
def memPlace (p : VyProg) (v : VyIns) (peer : Bool) (a : Word64) : (Nat × Nat) ⊕ Nat :=
  let n := memSize v
  let off := if peer then a.toNat % 2 ^ 21 else a.toNat
  let tile := if peer then a.toNat / 2 ^ 56 else v.tile
  if a.toNat % n ≠ 0 then .inr vkMisaligned
  else if peer && (decide (p.ntiles ≤ tile) || nbits a.toNat 21 35 != 0) then .inr vkPeer
  else if windowSize p.balanced < off + n then .inr vkWindow
  else .inl (tile, off)

/-- A load into D (R304, R307). -/
def State.vyLoad (s : State) (v : VOp) (cls k : Nat) (peer sign : Bool) : Res :=
  s.vyIssue v cls k ⟨32, 32, 1, 4, 2⟩ (fun _ v p t =>
    let a := memAddr v t
    match memPlace p v peer a with
    | .inr k => .fault k a.toNat none
    | .inl (tile, off) =>
      let x := p.load v.tile v.tid tile off (memSize v)
      .done p (t.gset v.d (if sign then BitVec.ofInt 64 (ofTwos (8 * memSize v) x) else BitVec.ofNat 64 x)))

/-- A write of G[B]: logged in deterministic mode, done at once in balanced mode; a log that is full is a fault of its tile, and the thread
runs on (R306, R309, R311, R352). DEDUCED: assumption 34. -/
def writeMem (p : VyProg) (t : VyThread) (v : VyIns) (peer : Bool) (op : VyStore) : VyRes :=
  let a := memAddr v t
  match memPlace p v peer a with
  | .inr k => .fault k a.toNat none
  | .inl (tile, off) =>
    let n := memSize v
    let e : VyWrite := ⟨v.tile, v.tid, tile, off, n, op, t.gget v.b, t.gget v.d, v.d⟩
    if p.balanced then
      let old := p.winNum tile off n
      let p' := { p with win := putBytes p.win tile off (leBytes n (atomicResult op n old e.value.toNat e.other.toNat)) }
      .done p' (if op == .store then t else t.gset v.d (BitVec.ofNat 64 old))
    else
      let p := if 8192 ≤ tget 0 p.logCount tile then p.note vkLogFull tile tile else p
      .done { p with log := p.log ++ [e], logCount := tset 0 p.logCount tile (tget 0 p.logCount tile + 1) } t

/-- A store (R304, R306). -/
def State.vyStore (s : State) (v : VOp) (cls k : Nat) (peer : Bool) : Res :=
  s.vyIssue v cls k ⟨1, 32, 32, 4, 2⟩ (fun _ v p t => writeMem p t v peer .store)

/-- An atomic of 4 or 8 B, own window or peer (R294, R308, R311). -/
def State.vyAtomic (s : State) (v : VOp) (k : Nat) (op : VyStore) : Res :=
  s.vyIssue v 7 k ⟨32, 32, 32, 4, 2⟩ (fun _ v p t => writeMem p t v v.peer op)

/-- LD: zero-extended. -/
def execLd (v : VOp) (s : State) : Res := s.vyLoad v 5 0 false false
/-- LDS: sign-extended. -/
def execLds (v : VOp) (s : State) : Res := s.vyLoad v 5 1 false true
/-- ST. -/
def execSt (v : VOp) (s : State) : Res := s.vyStore v 5 2 false
/-- PLD: a load from another tile's window. -/
def execPld (v : VOp) (s : State) : Res := s.vyLoad v 6 0 true false
/-- PST: a store into another tile's window. -/
def execPst (v : VOp) (s : State) : Res := s.vyStore v 6 1 true
/-- AADD. -/
def execAadd (v : VOp) (s : State) : Res := s.vyAtomic v 0 .add
/-- AMIN. -/
def execAmin (v : VOp) (s : State) : Res := s.vyAtomic v 1 .min
/-- AMAX. -/
def execAmax (v : VOp) (s : State) : Res := s.vyAtomic v 2 .max
/-- AMINU. -/
def execAminu (v : VOp) (s : State) : Res := s.vyAtomic v 3 .minu
/-- AMAXU. -/
def execAmaxu (v : VOp) (s : State) : Res := s.vyAtomic v 4 .maxu
/-- AAND. -/
def execAand (v : VOp) (s : State) : Res := s.vyAtomic v 5 .and
/-- AOR. -/
def execAor (v : VOp) (s : State) : Res := s.vyAtomic v 6 .or
/-- ASWP. -/
def execAswp (v : VOp) (s : State) : Res := s.vyAtomic v 7 .swap
/-- ACAS. -/
def execAcas (v : VOp) (s : State) : Res := s.vyAtomic v 8 .cas

/-! ## Transfers (R318 to R320) -/

/-- A transfer begins: its buffer, its offsets and its length are checked (R318, R319). -/
def startXfer (p : VyProg) (t : VyThread) (v : VyIns) (out : Bool) : VyRes :=
  let w := match v.imm with
    | some w => w.toNat
    | none => 0
  let n := (t.gget v.a).toNat % 32
  let boff := (t.gget v.b).toNat
  let woff := nbits w 0 21
  let len := 64 * nbits w 21 11
  let b := p.buf n
  if len = 0 then .fault vkBadOpcode 0 none
  else if p.bufs.length ≤ n then .fault vkBufRange n none
  else if boff % 64 ≠ 0 then .fault vkMisaligned boff none
  else if woff % 64 ≠ 0 then .fault vkMisaligned woff none
  else if b.length < boff + len ∨ windowSize p.balanced < woff + len then .fault vkBufRange n none
  else if (out && !b.writable) || (!out && b.kind == 3) then .fault vkBufAccess n none
  else if 4 ≤ (p.xfers.filter (fun x => x.tile == v.tile && x.tid == v.tid && !x.done)).length then .wait
  else
    let data : Bytes := if out && !p.balanced then (List.range len).map (fun i => tget 0 p.snap (winKey v.tile (woff + i))) else []
    .done { p with xfers := p.xfers ++ [⟨v.tile, v.tid, out, n, boff, woff, len, data, false⟩] } t

/-- BXFER.I: bytes from a buffer into the window. DEDUCED: assumption 35. -/
def execBxferI (v : VOp) (s : State) : Res := s.vyIssue v 9 0 ⟨1, 32, 32, 1, 3⟩ (fun _ v p t => startXfer p t v false)
/-- BXFER.O: bytes from the window to a buffer. DEDUCED: assumption 35. -/
def execBxferO (v : VOp) (s : State) : Res := s.vyIssue v 9 1 ⟨1, 32, 32, 1, 3⟩ (fun _ v p t => startXfer p t v true)

/-- The bytes that a transfer brings, or the status on which the program stops (R325, R354, R442). -/
def State.xferData (s : State) (p : VyProg) (x : VyXfer) (data : Option Bytes) : Bytes ⊕ Nat :=
  let b := p.buf x.buf
  if x.out then .inl x.data
  else if b.kind = 0 then
    match data with
    | none => .inr stHostFault
    | some d => .inl (bytesAt d 0 x.len)
  else if s.bufferLost p.job b x.boff x.len then .inr stDataLost
  else .inl (s.ownBuffer p.job b x.boff x.len)

/-- The trouble-log entry of a transfer that fails (R651). -/
def State.xferError (s : State) (p : VyProg) (x : VyXfer) (st : Nat) : State :=
  if st = stHostFault then s.hostReadErr (s.ringCard p.ring) p.ring (some p.job)
  else s.logBuffer p (p.buf x.buf) x.boff x.len

/-- The bytes that a transfer brings from a HOST buffer are read there (R325). -/
def State.xferRead (s : State) (p : VyProg) (x : VyXfer) : State :=
  let b := p.buf x.buf
  if !x.out && b.kind == 0 then s.hostRead (s.ringCard p.ring) (b.addr + x.boff) x.len else s

/-- TRANSFER_COMPLETE: the oldest outstanding transfer of a thread completes (R320), once no slice runs where its bytes are (R642). -/
def execTransferComplete (tile tid : Nat) (data : Option Bytes) (s : State) : Res :=
  match s.vy with
  | none => .next s
  | some p =>
    match p.xfers.find? (fun x => x.tile == tile && x.tid == tid && !x.done) with
    | none => .next s
    | some x =>
      s.act (((p.buf x.buf).kind != 0 || s.linkUp (s.ringCard p.ring)) && !s.sliced (s.bufferSectors p.job (p.buf x.buf) x.boff x.len))
        (let s := s.xferRead p x
         match s.xferData p x data with
          | .inr st => (s.xferError p x st).vyEnd p st none 0
          | .inl d =>
            if !p.balanced then
              s.vySettle { p with xfers := updFirst (fun y => y == x) (fun y => { y with data := d, done := true }) p.xfers }
            else
              let p' := { p with xfers := p.xfers.erase x }
              if x.out then
                (s.toBuffer p.job (p.buf x.buf) x.boff ((List.range x.len).map (fun i => p.byte tile (x.woff + i)))).vySettle p'
              else s.vySettle { p' with win := putBytes p.win tile x.woff d })

/-! ## Special class (R291, R302, R321) -/

/-- A special register, by its place in the table of R291. DEDUCED: assumption 33. -/
def specialReg (s : State) (p : VyProg) (v : VyIns) (n : Nat) : Nat :=
  match n with
  | 0 => v.tid
  | 1 => v.tile
  | 2 => p.ntiles
  | 3 => p.threads
  | 4 => p.gen
  | 21 => p.bufs.length
  | 22 => if p.balanced then s.now else 0
  | k => (p.args.getD (k - 5) 0).toNat

/-- GETS. -/
def execGets (v : VOp) (s : State) : Res :=
  s.vyIssue v 10 0 ⟨32, 23, 1, 1, 0⟩ (fun s v p t => .done p (t.gset v.d (BitVec.ofNat 64 (specialReg s p v v.a))))

/-- SEED: draw[MOD] under the job key (R302). -/
def execSeed (v : VOp) (s : State) : Res :=
  s.vyIssue v 10 1 ⟨32, 32, 32, 4, 1⟩ (fun s v p t =>
    let a := (t.gget v.a).toNat
    let b := (opB v t).toNat
    .done p (t.gset v.d (BitVec.ofNat 64 (seedDraw ((s.job p.job).get J.key) (a % 2 ^ 48) (b / 2 ^ 40) (b % 2 ^ 40) v.mod))))

/-- WQTAKE: the thread's next work item below the limit in G[A], or all ones (R321). -/
def execWqtake (v : VOp) (s : State) : Res :=
  s.vyIssue v 10 2 ⟨32, 32, 1, 1, 0⟩ (fun _ v p t =>
    let limit := (t.gget v.a).toNat
    let item := if p.balanced then p.nextItem else t.wq * 256 * p.threads + (v.tile * p.threads + v.tid)
    let t := t.gset v.d (if item < limit then BitVec.ofNat 64 item else BitVec.allOnes 64)
    if p.balanced then .done { p with nextItem := item + 1 } t
    else .done p { t with wq := t.wq + 1 })

end Sys2Proof.Machine
end

