-- ==== Sys2Proof/Machine/Dispatch.lean ====
section
/-! DEFINITION. What each command does: one arm for each row of the table. -/
namespace Sys2Proof.Machine

/-- The effect of a command on everything but the queue of waiting commands. -/
def exec (i : Instr) (s : State) : Host.Outcome State Fault Refusal :=
  match i with
  | .nop c => Sys2Proof.Machine.execNop c s
  | .openBucket c => Sys2Proof.Machine.execOpenBucket c s
  | .closeBucket c => Sys2Proof.Machine.execCloseBucket c s
  | .allreduce c => Sys2Proof.Machine.execAllreduce c s
  | .reduceScatter c => Sys2Proof.Machine.execReduceScatter c s
  | .allgather c => Sys2Proof.Machine.execAllgather c s
  | .shift c => Sys2Proof.Machine.execShift c s
  | .permute c => Sys2Proof.Machine.execPermute c s
  | .norm c upset => Sys2Proof.Machine.execNorm c upset s
  | .step c fault => Sys2Proof.Machine.execStep c fault s
  | .publish c => Sys2Proof.Machine.execPublish c s
  | .park c => Sys2Proof.Machine.execPark c s
  | .fetch c => Sys2Proof.Machine.execFetch c s
  | .checkpoint c => Sys2Proof.Machine.execCheckpoint c s
  | .restore c image => Sys2Proof.Machine.execRestore c image s
  | .sieveRun c block => Sys2Proof.Machine.execSieveRun c block s
  | .fence c => Sys2Proof.Machine.execFence c s
  | .unfence c => Sys2Proof.Machine.execUnfence c s
  | .launchAt c => Sys2Proof.Machine.execLaunchAt c s
  | .scheduleLoad c image => Sys2Proof.Machine.execScheduleLoad c image s
  | .routeStage c image => Sys2Proof.Machine.execRouteStage c image s
  | .routeSwap c => Sys2Proof.Machine.execRouteSwap c s
  | .survey c => Sys2Proof.Machine.execSurvey c s
  | .descriptorRead ring desc upset => Sys2Proof.Machine.execDescriptorRead ring desc upset s
  | .waitRelease c upset => Sys2Proof.Machine.execWaitRelease c upset s
  | .admitOp c => Sys2Proof.Machine.execAdmitOp c s
  | .contrib port p => Sys2Proof.Machine.execContrib port p s
  | .rakeAccumulate bed upset => Sys2Proof.Machine.execRakeAccumulate bed upset s
  | .xp port p upset => Sys2Proof.Machine.execXp port p upset s
  | .chunkFinal job tag chunk upset => Sys2Proof.Machine.execChunkFinal job tag chunk upset s
  | .bucketComplete job tag => Sys2Proof.Machine.execBucketComplete job tag s
  | .nonrootComplete job tag => Sys2Proof.Machine.execNonrootComplete job tag s
  | .result port p => Sys2Proof.Machine.execResult port p s
  | .ready port p => Sys2Proof.Machine.execReady port p s
  | .ready2 port p => Sys2Proof.Machine.execReady2 port p s
  | .summary port p => Sys2Proof.Machine.execSummary port p s
  | .abort port p => Sys2Proof.Machine.execAbort port p s
  | .normMax port c => Sys2Proof.Machine.execNormMax port c s
  | .normSum port p upset => Sys2Proof.Machine.execNormSum port p upset s
  | .pubMax port p => Sys2Proof.Machine.execPubMax port p s
  | .block port p => Sys2Proof.Machine.execBlock port p s
  | .stats port p => Sys2Proof.Machine.execStats port p s
  | .allgatherData port p => Sys2Proof.Machine.execAllgatherData port p s
  | .shiftData port p => Sys2Proof.Machine.execShiftData port p s
  | .permuteCounts port p => Sys2Proof.Machine.execPermuteCounts port p s
  | .permuteRows port p => Sys2Proof.Machine.execPermuteRows port p s
  | .parkData port p => Sys2Proof.Machine.execParkData port p s
  | .imageData port p => Sys2Proof.Machine.execImageData port p s
  | .packetRoute inp p => Sys2Proof.Machine.execPacketRoute inp p s
  | .xpSend job tag chunk upset => Sys2Proof.Machine.execXpSend job tag chunk upset s
  | .bucketDeadline job tag => Sys2Proof.Machine.execBucketDeadline job tag s
  | .normDeadline c => Sys2Proof.Machine.execNormDeadline c s
  | .stepStart c fault => Sys2Proof.Machine.execStepStart c fault s
  | .publishStart c => Sys2Proof.Machine.execPublishStart c s
  | .checkpointStart c => Sys2Proof.Machine.execCheckpointStart c s
  | .commandComplete c => Sys2Proof.Machine.execCommandComplete c s
  | .irqDelay ring => Sys2Proof.Machine.execIrqDelay ring s
  | .launchMature c => Sys2Proof.Machine.execLaunchMature c s
  | .programStart c text bufs => Sys2Proof.Machine.execProgramStart c text bufs s
  | .programDeadline c => Sys2Proof.Machine.execProgramDeadline c s
  | .br v => Sys2Proof.Machine.execBr v s
  | .jmp v => Sys2Proof.Machine.execJmp v s
  | .call v => Sys2Proof.Machine.execCall v s
  | .ret v => Sys2Proof.Machine.execRet v s
  | .halt v => Sys2Proof.Machine.execHalt v s
  | .barT v => Sys2Proof.Machine.execBarT v s
  | .barG v => Sys2Proof.Machine.execBarG v s
  | .syncL v => Sys2Proof.Machine.execSyncL v s
  | .syncG v => Sys2Proof.Machine.execSyncG v s
  | .waitx v => Sys2Proof.Machine.execWaitx v s
  | .add v => Sys2Proof.Machine.execAdd v s
  | .sub v => Sys2Proof.Machine.execSub v s
  | .mul v => Sys2Proof.Machine.execMul v s
  | .mulh v => Sys2Proof.Machine.execMulh v s
  | .mulhu v => Sys2Proof.Machine.execMulhu v s
  | .div v => Sys2Proof.Machine.execDiv v s
  | .divu v => Sys2Proof.Machine.execDivu v s
  | .rem v => Sys2Proof.Machine.execRem v s
  | .remu v => Sys2Proof.Machine.execRemu v s
  | .and v => Sys2Proof.Machine.execAnd v s
  | .or v => Sys2Proof.Machine.execOr v s
  | .xor v => Sys2Proof.Machine.execXor v s
  | .shl v => Sys2Proof.Machine.execShl v s
  | .shr v => Sys2Proof.Machine.execShr v s
  | .sar v => Sys2Proof.Machine.execSar v s
  | .rotl v => Sys2Proof.Machine.execRotl v s
  | .min v => Sys2Proof.Machine.execMin v s
  | .max v => Sys2Proof.Machine.execMax v s
  | .minu v => Sys2Proof.Machine.execMinu v s
  | .maxu v => Sys2Proof.Machine.execMaxu v s
  | .mov v => Sys2Proof.Machine.execMov v s
  | .cmpEq v => Sys2Proof.Machine.execCmpEq v s
  | .cmpLt v => Sys2Proof.Machine.execCmpLt v s
  | .cmpLtu v => Sys2Proof.Machine.execCmpLtu v s
  | .fadd v => Sys2Proof.Machine.execFadd v s
  | .fsub v => Sys2Proof.Machine.execFsub v s
  | .fmul v => Sys2Proof.Machine.execFmul v s
  | .fma v => Sys2Proof.Machine.execFma v s
  | .fnma v => Sys2Proof.Machine.execFnma v s
  | .fdiv v => Sys2Proof.Machine.execFdiv v s
  | .fsqrt v => Sys2Proof.Machine.execFsqrt v s
  | .fmax v => Sys2Proof.Machine.execFmax v s
  | .fmin v => Sys2Proof.Machine.execFmin v s
  | .fabs v => Sys2Proof.Machine.execFabs v s
  | .fsign v => Sys2Proof.Machine.execFsign v s
  | .fsel v => Sys2Proof.Machine.execFsel v s
  | .fmov v => Sys2Proof.Machine.execFmov v s
  | .fcmpEq v => Sys2Proof.Machine.execFcmpEq v s
  | .fcmpLt v => Sys2Proof.Machine.execFcmpLt v s
  | .fcmpLe v => Sys2Proof.Machine.execFcmpLe v s
  | .dec v => Sys2Proof.Machine.execDec v s
  | .enc v => Sys2Proof.Machine.execEnc v s
  | .wclr v => Sys2Proof.Machine.execWclr v s
  | .wacc v => Sys2Proof.Machine.execWacc v s
  | .wdot v => Sys2Proof.Machine.execWdot v s
  | .wadd v => Sys2Proof.Machine.execWadd v s
  | .wread v => Sys2Proof.Machine.execWread v s
  | .maxr v => Sys2Proof.Machine.execMaxr v s
  | .ld v => Sys2Proof.Machine.execLd v s
  | .lds v => Sys2Proof.Machine.execLds v s
  | .st v => Sys2Proof.Machine.execSt v s
  | .pld v => Sys2Proof.Machine.execPld v s
  | .pst v => Sys2Proof.Machine.execPst v s
  | .aadd v => Sys2Proof.Machine.execAadd v s
  | .amin v => Sys2Proof.Machine.execAmin v s
  | .amax v => Sys2Proof.Machine.execAmax v s
  | .aminu v => Sys2Proof.Machine.execAminu v s
  | .amaxu v => Sys2Proof.Machine.execAmaxu v s
  | .aand v => Sys2Proof.Machine.execAand v s
  | .aor v => Sys2Proof.Machine.execAor v s
  | .aswp v => Sys2Proof.Machine.execAswp v s
  | .acas v => Sys2Proof.Machine.execAcas v s
  | .sacc v => Sys2Proof.Machine.execSacc v s
  | .sld v => Sys2Proof.Machine.execSld v s
  | .bxferI v => Sys2Proof.Machine.execBxferI v s
  | .bxferO v => Sys2Proof.Machine.execBxferO v s
  | .transferComplete tile tid data => Sys2Proof.Machine.execTransferComplete tile tid data s
  | .gets v => Sys2Proof.Machine.execGets v s
  | .seed v => Sys2Proof.Machine.execSeed v s
  | .wqtake v => Sys2Proof.Machine.execWqtake v s
  | .doorbell m ring half value => Sys2Proof.Machine.execDoorbell m ring half value s
  | .ringEnable m ring ctrl => Sys2Proof.Machine.execRingEnable m ring ctrl s
  | .ringDisable m ring ctrl => Sys2Proof.Machine.execRingDisable m ring ctrl s
  | .jobEnable m job => Sys2Proof.Machine.execJobEnable m job s
  | .jobDisable m job => Sys2Proof.Machine.execJobDisable m job s
  | .jobEndComplete job => Sys2Proof.Machine.execJobEndComplete job s
  | .layoutCommit m value => Sys2Proof.Machine.execLayoutCommit m value s
  | .partReset m value => Sys2Proof.Machine.execPartReset m value s
  | .initDone m => Sys2Proof.Machine.execInitDone m s
  | .expertGateClose m => Sys2Proof.Machine.execExpertGateClose m s
  | .surveyGo m => Sys2Proof.Machine.execSurveyGo m s
  | .surveyComplete failed => Sys2Proof.Machine.execSurveyComplete failed s
  | .gcLoad m w => Sys2Proof.Machine.execGcLoad m w s
  | .timeCtrl m value => Sys2Proof.Machine.execTimeCtrl m value s
  | .tickOutEnable m value => Sys2Proof.Machine.execTickOutEnable m value s
  | .debugClockEnable m value => Sys2Proof.Machine.execDebugClockEnable m value s
  | .portEnable m port => Sys2Proof.Machine.execPortEnable m port s
  | .portDisable m port => Sys2Proof.Machine.execPortDisable m port s
  | .portRetrain m port => Sys2Proof.Machine.execPortRetrain m port s
  | .lxCtrl m lane value => Sys2Proof.Machine.execLxCtrl m lane value s
  | .lxPrbsErrRead m lane => Sys2Proof.Machine.execLxPrbsErrRead m lane s
  | .mirrorEnable m session value => Sys2Proof.Machine.execMirrorEnable m session value s
  | .mirrorDisable m session value => Sys2Proof.Machine.execMirrorDisable m session value s
  | .mirHead m session value => Sys2Proof.Machine.execMirHead m session value s
  | .telemetryEnable m value => Sys2Proof.Machine.execTelemetryEnable m value s
  | .telemetryInterval => Sys2Proof.Machine.execTelemetryInterval s
  | .claim m resource => Sys2Proof.Machine.execClaim m resource s
  | .release m resource => Sys2Proof.Machine.execRelease m resource s
  | .hppr m stack value => Sys2Proof.Machine.execHppr m stack value s
  | .sppr m stack value => Sys2Proof.Machine.execSppr m stack value s
  | .pprComplete stack ok left => Sys2Proof.Machine.execPprComplete stack ok left s
  | .mrSel m stack value data => Sys2Proof.Machine.execMrSel m stack value data s
  | .registerWrite m addr size value => Sys2Proof.Machine.execRegisterWrite m addr size value s
  | .identity m req => Sys2Proof.Machine.execIdentity m req s
  | .quote m req => Sys2Proof.Machine.execQuote m req s
  | .logFetch m req => Sys2Proof.Machine.execLogFetch m req s
  | .logAck m req => Sys2Proof.Machine.execLogAck m req s
  | .sensors m req => Sys2Proof.Machine.execSensors m req s
  | .healthDetail m req => Sys2Proof.Machine.execHealthDetail m req s
  | .powerCap m req => Sys2Proof.Machine.execPowerCap m req s
  | .gateChallenge m req => Sys2Proof.Machine.execGateChallenge m req s
  | .gateGrant m req => Sys2Proof.Machine.execGateGrant m req s
  | .fwBegin m req => Sys2Proof.Machine.execFwBegin m req s
  | .fwChunk m req => Sys2Proof.Machine.execFwChunk m req s
  | .fwCommit m req => Sys2Proof.Machine.execFwCommit m req s
  | .shutdown m req => Sys2Proof.Machine.execShutdown m req s
  | .slice m req => Sys2Proof.Machine.execSlice m req s
  | .repair m req => Sys2Proof.Machine.execRepair m req s
  | .fuse m req => Sys2Proof.Machine.execFuse m req s
  | .lifecycle m req => Sys2Proof.Machine.execLifecycle m req s
  | .ownerEnroll m req => Sys2Proof.Machine.execOwnerEnroll m req s
  | .porAssert => Sys2Proof.Machine.execPorAssert s
  | .porRelease railsOk => Sys2Proof.Machine.execPorRelease railsOk s
  | .rootPllLock => Sys2Proof.Machine.execRootPllLock s
  | .firmwareBoot => Sys2Proof.Machine.execFirmwareBoot s
  | .wipeComplete => Sys2Proof.Machine.execWipeComplete s
  | .seedlingExit => Sys2Proof.Machine.execSeedlingExit s
  | .clockFailure cause => Sys2Proof.Machine.execClockFailure cause s
  | .railCollapse rail millivolts => Sys2Proof.Machine.execRailCollapse rail millivolts s
  | .thermalTrip sensor => Sys2Proof.Machine.execThermalTrip sensor s
  | .standbyPowerLoss => Sys2Proof.Machine.execStandbyPowerLoss s
  | .taprootLinkDown loss => Sys2Proof.Machine.execTaprootLinkDown loss s
  | .taprootLinkUp card width mode => Sys2Proof.Machine.execTaprootLinkUp card width mode s
  | .detectTest port lanes => Sys2Proof.Machine.execDetectTest port lanes s
  | .trainComplete port lanes => Sys2Proof.Machine.execTrainComplete port lanes s
  | .lockComplete port markers => Sys2Proof.Machine.execLockComplete port markers s
  | .capTimer port => Sys2Proof.Machine.execCapTimer port s
  | .capFlit port cap => Sys2Proof.Machine.execCapFlit port cap s
  | .stageTimeout port => Sys2Proof.Machine.execStageTimeout port s
  | .squelchEnd port => Sys2Proof.Machine.execSquelchEnd port s
  | .cellFlit place fec flit => Sys2Proof.Machine.execCellFlit place fec flit s
  | .ackTimer port => Sys2Proof.Machine.execAckTimer port s
  | .farRetrain port => Sys2Proof.Machine.execFarRetrain port s
  | .retrainComplete port => Sys2Proof.Machine.execRetrainComplete port s
  | .linkLost port replayEcc => Sys2Proof.Machine.execLinkLost port replayEcc s
  | .fullRateAdvertise => Sys2Proof.Machine.execFullRateAdvertise s
  | .fullRateRetry port => Sys2Proof.Machine.execFullRateRetry port s
  | .timeExchange => Sys2Proof.Machine.execTimeExchange s
  | .timeRequest port flit => Sys2Proof.Machine.execTimeRequest port flit s
  | .timeReply port flit => Sys2Proof.Machine.execTimeReply port flit s
  | .counterStep => Sys2Proof.Machine.execCounterStep s
  | .graftSense volts => Sys2Proof.Machine.execGraftSense volts s
  | .pairFlit trunk pair => Sys2Proof.Machine.execPairFlit trunk pair s
  | .pairingTimeout trunk => Sys2Proof.Machine.execPairingTimeout trunk s
  | .mergeComplete => Sys2Proof.Machine.execMergeComplete s
  | .slotBoundary => Sys2Proof.Machine.execSlotBoundary s
  | .scheduleStart => Sys2Proof.Machine.execScheduleStart s
  | .routeSwapAt => Sys2Proof.Machine.execRouteSwapAt s
  | .routeStageWrite => Sys2Proof.Machine.execRouteStageWrite s
  | .routeStageTimeout => Sys2Proof.Machine.execRouteStageTimeout s
  | .poolWaitGrant die pool => Sys2Proof.Machine.execPoolWaitGrant die pool s
  | .watchdogExpiry => Sys2Proof.Machine.execWatchdogExpiry s
  | .firmwareRestarted => Sys2Proof.Machine.execFirmwareRestarted s
  | .heartbeat => Sys2Proof.Machine.execHeartbeat s
  | .evaluationInterval r => Sys2Proof.Machine.execEvaluationInterval r s
  | .scoringInterval => Sys2Proof.Machine.execScoringInterval s
  | .grantExpiry => Sys2Proof.Machine.execGrantExpiry s
  | .periodicSlice die => Sys2Proof.Machine.execPeriodicSlice die s
  | .sliceBegin unit => Sys2Proof.Machine.execSliceBegin unit s
  | .sliceDeferred unit => Sys2Proof.Machine.execSliceDeferred unit s
  | .sliceEnd unit passed => Sys2Proof.Machine.execSliceEnd unit passed s
  | .patrolScrub line found => Sys2Proof.Machine.execPatrolScrub line found s
  | .tick => Sys2Proof.Machine.execTick s
  | .cellTime => Sys2Proof.Machine.execCellTime s
  | .flitSlot port => Sys2Proof.Machine.execFlitSlot port s
  | .fullBistComplete failed => Sys2Proof.Machine.execFullBistComplete failed s
  | .shedSramUncorrectable addr => Sys2Proof.Machine.execShedSramUncorrectable addr s
  | .standbyPowerApplied => Sys2Proof.Machine.execStandbyPowerApplied s
  | .stackTraining stack ok retries => Sys2Proof.Machine.execStackTraining stack ok retries s

end Sys2Proof.Machine
end

