-- ==== Sys2Proof/Safety.lean ====
section
/-! DEFINITION. What counts as a safe step, and the invariant that every step keeps. -/
namespace Sys2Proof.Safety
open Sys2Proof.Machine

/-- The register store is in canonical form: its addresses rise strictly, and no listed register holds the reset value of its
address. -/
def regsCanonical (t : Tab Word64) : Prop := (t.map Prod.fst).Pairwise (· < ·) ∧ ∀ e ∈ t, e.2 ≠ regReset e.1

/-- What fuses hold only moves one way: serial number, grade and stepping stay, the SVN floor never falls (R625), an identity stays
(R627), and burnt rows stay burnt (R647, R648). -/
def fusesKept (a b : Nv) : Prop :=
  b.serial = a.serial ∧ b.grade = a.grade ∧ b.stepping = a.stepping ∧ a.svnFloor ≤ b.svnFloor
    ∧ (a.identity = true → b.identity = true) ∧ a.fusedRows <+: b.fusedRows

/-- The invariant of every step from fuses `n`: the register store is canonical, the trouble log holds at most 4,096 entries
(R611, R613), and the fuses are `n` or later. -/
def StepInv (n : Nv) (s : State) : Prop := regsCanonical s.regs ∧ s.aon.log.length ≤ 4096 ∧ fusesKept n s.nv

/-! ## Words of a program -/

/-- How operations use the fields of their word (R294): D, A and B; D and A; B alone; none; loads, stores, atomics and transfers. -/
abbrev useDAB : VyUse := ⟨32, 32, 32, 1, 1⟩
abbrev useDA : VyUse := ⟨32, 32, 1, 1, 0⟩
abbrev useB : VyUse := ⟨1, 1, 32, 1, 1⟩
abbrev useNone : VyUse := ⟨1, 1, 1, 1, 0⟩
abbrev useLoad : VyUse := ⟨32, 32, 1, 4, 2⟩
abbrev useStore : VyUse := ⟨1, 32, 32, 4, 2⟩
abbrev useAtomic : VyUse := ⟨32, 32, 32, 4, 2⟩
abbrev useXfer : VyUse := ⟨1, 32, 32, 1, 3⟩

/-- The row of a program's instruction: the thread that issues, its class, its place in the class, and its use of the fields. -/
structure VyRow where
  op : VOp
  cls : Nat
  place : Nat
  use : VyUse

/-- The row of an operation. -/
def word (o : VOp) (cls place : Nat) (use : VyUse) : Option VyRow := some ⟨o, cls, place, use⟩

/-- The rows of R294, with the classes of its table. -/
def rowOf : Instr → Option VyRow
  | .br o => word o 0 0 ⟨32, 1, 32, 1, 1⟩
  | .jmp o => word o 0 1 useB
  | .call o => word o 0 2 useB
  | .ret o => word o 0 3 useNone
  | .halt o => word o 0 4 useNone
  | .barT o => word o 0 5 useNone
  | .barG o => word o 0 6 useNone
  | .syncL o => word o 0 7 useNone
  | .syncG o => word o 0 8 useNone
  | .waitx o => word o 0 9 useNone
  | .add o => word o 1 0 useDAB
  | .sub o => word o 1 1 useDAB
  | .mul o => word o 1 2 useDAB
  | .mulh o => word o 1 3 useDAB
  | .mulhu o => word o 1 4 useDAB
  | .div o => word o 1 5 useDAB
  | .divu o => word o 1 6 useDAB
  | .rem o => word o 1 7 useDAB
  | .remu o => word o 1 8 useDAB
  | .and o => word o 1 9 useDAB
  | .or o => word o 1 10 useDAB
  | .xor o => word o 1 11 useDAB
  | .shl o => word o 1 12 useDAB
  | .shr o => word o 1 13 useDAB
  | .sar o => word o 1 14 useDAB
  | .rotl o => word o 1 15 useDAB
  | .min o => word o 1 16 useDAB
  | .max o => word o 1 17 useDAB
  | .minu o => word o 1 18 useDAB
  | .maxu o => word o 1 19 useDAB
  | .mov o => word o 1 20 useDA
  | .cmpEq o => word o 1 21 useDAB
  | .cmpLt o => word o 1 22 useDAB
  | .cmpLtu o => word o 1 23 useDAB
  | .fadd o => word o 2 1 useDAB
  | .fsub o => word o 2 2 useDAB
  | .fmul o => word o 2 3 useDAB
  | .fma o => word o 2 4 useDAB
  | .fnma o => word o 2 5 useDAB
  | .fdiv o => word o 2 6 useDAB
  | .fsqrt o => word o 2 7 useDA
  | .fmax o => word o 2 8 useDAB
  | .fmin o => word o 2 9 useDAB
  | .fabs o => word o 2 10 useDA
  | .fsign o => word o 2 11 useDA
  | .fsel o => word o 2 12 useDAB
  | .fmov o => word o 2 13 useDA
  | .fcmpEq o => word o 2 16 useDAB
  | .fcmpLt o => word o 2 17 useDAB
  | .fcmpLe o => word o 2 18 useDAB
  | .dec o => word o 3 0 useDAB
  | .enc o => word o 3 1 useDAB
  | .wclr o => word o 4 0 ⟨4, 32, 32, 1, 1⟩
  | .wacc o => word o 4 1 ⟨4, 32, 1, 2, 0⟩
  | .wdot o => word o 4 2 ⟨4, 32, 32, 1, 1⟩
  | .wadd o => word o 4 3 ⟨4, 4, 1, 1, 0⟩
  | .wread o => word o 4 4 ⟨32, 4, 32, 1, 1⟩
  | .maxr o => word o 4 5 useDAB
  | .ld o => word o 5 0 useLoad
  | .lds o => word o 5 1 useLoad
  | .st o => word o 5 2 useStore
  | .pld o => word o 6 0 useLoad
  | .pst o => word o 6 1 useStore
  | .aadd o => word o 7 0 useAtomic
  | .amin o => word o 7 1 useAtomic
  | .amax o => word o 7 2 useAtomic
  | .aminu o => word o 7 3 useAtomic
  | .amaxu o => word o 7 4 useAtomic
  | .aand o => word o 7 5 useAtomic
  | .aor o => word o 7 6 useAtomic
  | .aswp o => word o 7 7 useAtomic
  | .acas o => word o 7 8 useAtomic
  | .sacc o => word o 8 0 ⟨1, 32, 32, 2, 1⟩
  | .sld o => word o 8 1 ⟨4, 32, 1, 1, 0⟩
  | .bxferI o => word o 9 0 useXfer
  | .bxferO o => word o 9 1 useXfer
  | .gets o => word o 10 0 ⟨32, 23, 1, 1, 0⟩
  | .seed o => word o 10 1 ⟨32, 32, 32, 4, 1⟩
  | .wqtake o => word o 10 2 useDA
  | _ => none

/-- A thread `t` of the program `p` is running at an instruction `v` of a row: the word at its PC names the row's operation, lies in the
text and keeps R295. -/
structure AtRow (s : State) (r : VyRow) (p : VyProg) (t : VyThread) (v : VyIns) : Prop where
  clocks : s.clocked = true
  prog : s.vy = some p
  own : p.lib = 0
  tile : r.op.tile < p.ntiles
  tid : r.op.tid < p.threads
  thread : p.thread r.op.tile r.op.tid = t
  runs : t.stat = .run
  clean : r.op.upset = .clean
  word : p.fields r.op.tile r.op.tid t.pc = v
  names : s.vyDecode p t.pc = some (r.cls, r.place)
  text : t.pc + opWords v ≤ p.text.length
  good : r.use.bad v (r.cls == 7) = false

/-- The row `i` is what the thread issues next. -/
def Issues (s : State) (i : Instr) (p : VyProg) (t : VyThread) (v : VyIns) : Prop :=
  match rowOf i with
  | some r => AtRow s r p t v
  | none => False

/-- The instruction's guard, turned by PNEG, is 1 (R293). -/
def guarded (v : VyIns) (t : VyThread) : Prop := (t.qget v.guard == v.gneg) = false

/-- The row `i` is what the thread issues next, and its instruction runs. -/
def Runs (s : State) (i : Instr) (p : VyProg) (t : VyThread) (v : VyIns) : Prop := Issues s i p t v ∧ guarded v t

/-- The thread with its PC past the instruction. -/
def past (v : VyIns) (t : VyThread) : VyThread := { t with pc := t.pc + opWords v }

/-- The answer of an instruction that leaves a program and a thread: the thread is put back, and barriers that it completes are passed. -/
def leaves (s : State) (v : VyIns) (p : VyProg) (t : VyThread) : Res := .next (s.vySettle (p.setThread v.tile v.tid t))

/-- The answer of an instruction whose one effect is a value in its register D. -/
def writesG (s : State) (v : VyIns) (p : VyProg) (t : VyThread) (r : Word64) : Res := leaves s v p ((past v t).gset v.d r)

/-- The answer of an instruction whose one effect is a bit in the guard register D. -/
def writesQ (s : State) (v : VyIns) (p : VyProg) (t : VyThread) (b : Bool) : Res := leaves s v p ((past v t).qset v.d b)

/-! ## Commands of a ring -/

/-- The command `c` of a ring, with opcode `op`, is free of its waits: its own row comes next (R423, R433). -/
structure Free (s : State) (c : Ref) (op : Nat) (x : Ctx) : Prop where
  clocks : s.clocked = true
  ctx : s.ctx c = some x
  phase : x.phase = .free
  opcode : x.opcode = op

/-! ## Packets at the engines -/

/-- A packet whose cells are all sound, and that is whole, comes to an engine (R653, R664). -/
structure Arrives (s : State) (p : Packet) : Prop where
  clocks : s.clocked = true
  sound : s.spoiled p = false
  whole : p.aborted = false

/-- The packet is a CONTROL packet of a subtype (R512). -/
def isControl (p : Packet) (sub : Nat) : Bool := pget p Ph.type == ptControl && pget p Ph.subtype == sub

/-- The packet is a DATA packet of a subtype (R512). -/
def isData (p : Packet) (sub : Nat) : Bool := pget p Ph.type == ptData && pget p Ph.dataSub == sub

/-- The rows that bring a whole packet to an engine, each with the kind of packet that it takes; a record waits for a full bed (R51). -/
def arrivals (s : State) (port : Nat) (p : Packet) : List (Instr × Bool) :=
  [(.xp port p .clean, pget p Ph.type == ptXp && !(s.recordBed p).any s.bedFull), (.result port p, pget p Ph.type == ptResult), (.ready port p, isControl p 0),
   (.ready2 port p, isControl p 1), (.summary port p, isControl p 2), (.abort port p, isControl p 3),
   (.normMax port ⟨p, .clean⟩, isControl p 4), (.normSum port p .clean, isControl p 5), (.pubMax port p, isControl p 6),
   (.block port p, isControl p 7), (.stats port p, isControl p 8), (.parkData port p, isData p dsPark), (.imageData port p, isData p dsImage)]

/-! ## The mailbox -/

/-- A host asks for operation `op` with a request that the part has read, and that keeps its checks (R599, R600). -/
structure Asks (s : State) (m : Master) (req : MbxReq) (q : Mail) (op need : Nat) : Prop where
  clocks : s.clocked = true
  host : m ≠ .shed
  idle : s.flag (cardReg m Reg.mbxStatus) F.mbxStatus_busy = false
  read : req.bytes.map readMail = some q
  names : q.op = op
  known : 0 < op ∧ op ≤ 0x12
  here : q.package = s.pkgNo
  checks : s.mailCheck q need = none

/-! ## Sums whose order does not matter (R137) -/

/-- The tables of an operation are in canonical order: its stripes, and the slots of each, rise strictly. -/
def risingTables (o : Op) : Prop :=
  (o.stripes.map Prod.fst).Pairwise (· < ·) ∧ ∀ e ∈ o.stripes, (e.2.slots.map Prod.fst).Pairwise (· < ·)

/-- What a bed or a record adds to an operation: one contributed value (R50), or one partial of a child (R144). -/
def addIn (o : Op) : BedVal ⊕ XpRec → Op
  | .inl v => o.rake v
  | .inr r => o.setStripe r.stripe ((o.stripe r.stripe).combine r)

/-- A record whose fields all fit the header of R139. -/
structure Fits (r : XpRec) : Prop where
  stripe : r.stripe < 2 ^ 24
  anchor : -512 ≤ r.anchor ∧ r.anchor ≤ 511
  nelem : r.nelem = r.slots.length
  some : 0 < r.nelem
  most : r.nelem ≤ 256
  res : r.res < 128
  ncontrib : r.ncontrib < 2 ^ 21
  first : r.firstFlag < 2 ^ 20
  counters : r.cnt.nan < 2 ^ 32 ∧ r.cnt.inf < 2 ^ 32 ∧ r.cnt.aovf < 2 ^ 32 ∧ r.cnt.gzero < 2 ^ 32

/-! ## Rows that need no clock, and rows of one owner -/

/-- The rows of power, of the start of the clocks, and of Shed's own restarts: every other row needs the five clocks (R362, R363).
DESIGN CHOICE: assumption 8. -/
def needsNoClock : Instr → Bool
  | .porAssert | .porRelease _ | .rootPllLock | .railCollapse _ _ | .thermalTrip _ | .standbyPowerLoss | .standbyPowerApplied => true
  | .watchdogExpiry | .shedSramUncorrectable _ | .firmwareRestarted => true
  | _ => false

/-- Writes that only the owner of a resource may make (R402): the master, the resource, and whether the register exists. -/
def ownerOnly (s : State) : Instr → Option (Master × Nat × Bool)
  | .doorbell m ring _ _ | .ringEnable m ring _ | .ringDisable m ring _ => some (m, s.ringJob ring, decide (ring < 16384))
  | .jobEnable m j | .jobDisable m j => some (m, j, decide (j < 4096))
  | .gcLoad m _ | .timeCtrl m _ | .tickOutEnable m _ => some (m, s.resTimeOwn, true)
  | .portEnable m p | .portDisable m p | .portRetrain m p => some (m, s.portsOwn, decide (p < 128))
  | .mirrorEnable m n _ | .mirrorDisable m n _ | .mirHead m n _ => some (m, resFabric, decide (n < 8))
  | .telemetryEnable m _ => some (m, resFabric, true)
  | _ => none

end Sys2Proof.Safety
end

