-- ==== Sys2Proof/Certificates/Slice0/Obligations.lean ====
section
/-! DEFINITION. The statements for the provers. -/
open Sys2Proof Sys2Proof.Machine Sys2Proof.Safety


/-! ## Words of a program -/

/-- Integer words (R294, R296): their 64-bit results, MOV, and the compares into Q[D]. A zero divisor gives all ones, and the
dividend as the remainder. -/
def Obligations.IntegerWords : Prop :=
  ∀ (s : State) (o : VOp) (p : VyProg) (t : VyThread) (v : VyIns),
    let a := t.gget v.a
    let b := opB v t
    let k := b.toNat % 64
    let gives (i : Instr) (r : Word64) : Prop := Runs s i p t v → exec i s = writesG s v p t r
    let sets (i : Instr) (q : Bool) : Prop := Runs s i p t v → exec i s = writesQ s v p t q
    gives (.add o) (a + b) ∧ gives (.sub o) (a - b) ∧ gives (.mul o) (a * b)
    ∧ gives (.mulh o) (BitVec.ofInt 64 (a.toInt * b.toInt / 2 ^ 64))
    ∧ gives (.mulhu o) (BitVec.ofNat 64 (a.toNat * b.toNat / 2 ^ 64))
    ∧ gives (.div o) (if b = 0 then BitVec.allOnes 64 else a.sdiv b)
    ∧ gives (.divu o) (if b = 0 then BitVec.allOnes 64 else a / b)
    ∧ gives (.rem o) (if b = 0 then a else a.srem b)
    ∧ gives (.remu o) (if b = 0 then a else a % b)
    ∧ gives (.and o) (a &&& b) ∧ gives (.or o) (a ||| b) ∧ gives (.xor o) (a ^^^ b)
    ∧ gives (.shl o) (a <<< k) ∧ gives (.shr o) (a >>> k) ∧ gives (.sar o) (a.sshiftRight k) ∧ gives (.rotl o) (a.rotateLeft k)
    ∧ gives (.min o) (if a.slt b then a else b) ∧ gives (.max o) (if a.slt b then b else a)
    ∧ gives (.minu o) (if a.ult b then a else b) ∧ gives (.maxu o) (if a.ult b then b else a)
    ∧ gives (.mov o) a
    ∧ sets (.cmpEq o) (a == b) ∧ sets (.cmpLt o) (a.slt b) ∧ sets (.cmpLtu o) (a.ult b)

/-- Floating words (R174, R294, R297): one rounding of the exact result by mode 0, into bits 31 to 0 of D, with bits 63 to 32 zero.
A compare with a NaN is false, and zeros of either sign are equal. DEC and ENC follow a control word that keeps R298, and ENC counts
its events (R301).
The choices of the model in it: assumption 33. -/
def Obligations.FloatWords : Prop :=
  ∀ (s : State) (o : VOp) (p : VyProg) (t : VyThread) (v : VyIns),
    let x := f32 (lo32 (t.gget v.a))
    let y := f32 (lo32 (opB v t))
    let z := f32 (lo32 (t.gget v.d))
    let w := opB v t
    let f := bget Cw.fmt w
    let gives (i : Instr) (r : Nat) : Prop := Runs s i p t v → exec i s = writesG s v p t (BitVec.ofNat 64 (r % 2 ^ 32))
    let sets (i : Instr) (q : Bool) : Prop := Runs s i p t v → exec i s = writesQ s v p t q
    gives (.fadd o) (rne32 (x.add y)) ∧ gives (.fsub o) (rne32 (x.add y.neg)) ∧ gives (.fmul o) (rne32 (x.mul y))
    ∧ gives (.fma o) (rne32 ((x.mul y).add z)) ∧ gives (.fnma o) (rne32 (z.add (x.mul y).neg)) ∧ gives (.fdiv o) (rne32 (x.div y))
    ∧ gives (.fmax o) (if x.isNan || y.isNan then 0x7FC00000 else rne32 (if x.lt y then y else x))
    ∧ gives (.fmin o) (if x.isNan || y.isNan then 0x7FC00000 else rne32 (if x.lt y then x else y))
    ∧ (∀ n q, z = .fin n q → gives (.fsel o) (rne32 (if q = 0 ∨ n = false then x else y)))
    ∧ (z = .inf false → gives (.fsel o) (rne32 x))
    ∧ (z = .inf true ∨ z = .nan → gives (.fsel o) (rne32 y))
    ∧ sets (.fcmpEq o) (numEq x y) ∧ sets (.fcmpLt o) (numLt x y) ∧ sets (.fcmpLe o) (numLt x y || numEq x y)
    ∧ gives (.fmov o) (rne32 x)
    ∧ (∀ n q, x = .fin n q →
        gives (.fabs o) (rne32 (.fin false q))
        ∧ gives (.fsqrt o) (if q = 0 then rne32 x else if n then 0x7FC00000 else sqrt32 q)
        ∧ gives (.fsign o) (if q = 0 then 0 else if n then 0xBF800000 else 0x3F800000))
    ∧ (∀ n, x = .inf n →
        gives (.fabs o) (rne32 (.inf false))
        ∧ gives (.fsqrt o) (if n then 0x7FC00000 else rne32 (.inf false))
        ∧ gives (.fsign o) (if n then 0xBF800000 else 0x3F800000))
    ∧ (x = .nan → gives (.fabs o) (rne32 .nan) ∧ gives (.fsqrt o) 0x7FC00000 ∧ gives (.fsign o) 0x7FC00000)
    ∧ (badControl w = false →
      (Runs s (.dec o) p t v → exec (.dec o) s = writesG s v p t (BitVec.ofNat 64 (encodeFloat fp32 (bget Cw.mode w) (bflag Cw.sat w)
        (bget Cw.draw w) (decodeNum f ((t.gget v.a).toNat % 2 ^ elemBits f))).1))
      ∧ (Runs s (.enc o) p t v → exec (.enc o) s =
        (let e := encodeNum f (bget Cw.mode w) (bflag Cw.sat w) (bget Cw.draw w) x
         leaves s v { p with cnt := p.cnt.add e.2 } ((past v t).gset v.d (BitVec.ofNat 64 e.1)))))

/-- Control words (R294, R305, R310, R312): branches, calls and returns, halting, barriers, and SYNC and WAITX. HALT notes the tick, at which
a program ends whose threads have all halted (R330).
The choices of the model in it: assumptions 33 and 34. -/
def Obligations.ControlWords : Prop :=
  ∀ (s : State) (o : VOp) (p : VyProg) (t : VyThread) (v : VyIns),
    let n := (opB v t).toNat % 2 ^ 14
    let goes (i : Instr) (t' : VyThread) : Prop := Runs s i p t v → exec i s = leaves s v p t'
    goes (.jmp o) { t with pc := n }
    ∧ (t.stack.length < 16 → goes (.call o) { t with pc := n, stack := (past v t).pc :: t.stack })
    ∧ goes (.br o) (if t.qget v.d then { t with pc := n } else past v t)
    ∧ (∀ n r, t.stack = n :: r → goes (.ret o) { t with pc := n, stack := r })
    ∧ (Runs s (.halt o) p t v → exec (.halt o) s = leaves s v { p with halted := s.now } { past v t with stat := .halt })
    ∧ goes (.barT o) { past v t with stat := .barT }
    ∧ goes (.barG o) { past v t with stat := .barG }
    ∧ goes (.syncL o) (past v t)
    ∧ (p.balanced = false → goes (.syncG o) (past v t) ∧ goes (.waitx o) (past v t))
    ∧ (p.balanced = true →
        (Runs s (.syncG o) p t v →
          exec (.syncG o) s = leaves s v (p.showAdds (fun a => a.tile == v.tile && a.tid == v.tid)) (past v t))
        ∧ (p.xfers.any (fun x => x.tile == v.tile && x.tid == v.tid && !x.done) = false → goes (.waitx o) (past v t))
        ∧ (p.xfers.any (fun x => x.tile == v.tile && x.tid == v.tid && !x.done) = true → Runs s (.waitx o) p t v →
          exec (.waitx o) s = .next s))

/-- Loads and stores (R303, R304, R306, R307, R309, R311): where the access keeps its bounds, LD and PLD zero-extend, LDS sign-extends, and
a store is done at once in balanced mode and logged in deterministic mode, where a log that is full is noted as a fault of its tile.
The choices of the model in it: assumption 33. -/
def Obligations.LoadAndStoreWords : Prop :=
  ∀ (s : State) (o : VOp) (p : VyProg) (t : VyThread) (v : VyIns) (tile off : Nat),
    let x := p.load v.tile v.tid tile off (2 ^ v.mod)
    let q : VyProg := if 8192 ≤ tget 0 p.logCount tile then p.note vkLogFull tile tile else p
    let stores (i : Instr) : Prop := Runs s i p t v →
      (p.balanced = true → exec i s = leaves s v
        { p with win := putBytes p.win tile off (leBytes (2 ^ v.mod) ((t.gget v.b).toNat % 2 ^ (8 * 2 ^ v.mod))) } (past v t))
      ∧ (p.balanced = false → exec i s = leaves s v { q with
        log := p.log ++ [⟨v.tile, v.tid, tile, off, 2 ^ v.mod, .store, t.gget v.b, t.gget v.d, v.d⟩]
        logCount := tset 0 p.logCount tile (tget 0 p.logCount tile + 1) } (past v t))
    (memPlace p v false (memAddr v t) = .inl (tile, off) →
      (Runs s (.ld o) p t v → exec (.ld o) s = writesG s v p t (BitVec.ofNat 64 x))
      ∧ (Runs s (.lds o) p t v → exec (.lds o) s = writesG s v p t (BitVec.ofInt 64 (ofTwos (8 * 2 ^ v.mod) x)))
      ∧ stores (.st o))
    ∧ (memPlace p v true (memAddr v t) = .inl (tile, off) →
      (Runs s (.pld o) p t v → exec (.pld o) s = writesG s v p t (BitVec.ofNat 64 x)) ∧ stores (.pst o))

/-- Atomics (R294, R306, R308, R309, R311): in balanced mode one indivisible read and write, and D gets the value found; in deterministic
mode the write is logged, and D keeps its value until the barrier that applies it.
The choices of the model in it: assumptions 33 and 34. -/
def Obligations.AtomicWords : Prop :=
  ∀ (s : State) (o : VOp) (p : VyProg) (t : VyThread) (v : VyIns) (tile off : Nat),
    memPlace p v v.peer (memAddr v t) = .inl (tile, off) →
    let n := 2 ^ v.mod
    let w := 8 * n
    let old := p.winNum tile off n
    let val := (t.gget v.b).toNat % 2 ^ w
    let q : VyProg := if 8192 ≤ tget 0 p.logCount tile then p.note vkLogFull tile tile else p
    let does (i : Instr) (op : VyStore) (r : Nat) : Prop := Runs s i p t v →
      (p.balanced = true → exec i s = leaves s v { p with win := putBytes p.win tile off (leBytes n r) }
        ((past v t).gset v.d (BitVec.ofNat 64 old)))
      ∧ (p.balanced = false → exec i s = leaves s v { q with
        log := p.log ++ [⟨v.tile, v.tid, tile, off, n, op, t.gget v.b, t.gget v.d, v.d⟩]
        logCount := tset 0 p.logCount tile (tget 0 p.logCount tile + 1) } (past v t))
    does (.aadd o) .add ((old + val) % 2 ^ w)
    ∧ does (.amin o) .min (if ofTwos w val < ofTwos w old then val else old)
    ∧ does (.amax o) .max (if ofTwos w old < ofTwos w val then val else old)
    ∧ does (.aminu o) .minu (min old val)
    ∧ does (.amaxu o) .maxu (max old val)
    ∧ does (.aand o) .and (old &&& val)
    ∧ does (.aor o) .or (old ||| val)
    ∧ does (.aswp o) .swap val
    ∧ does (.acas o) .cas (if old = (t.gget v.d).toNat % 2 ^ w then val else old)

/-- The exact unit (R299, R300, R301) and the scratch slots (R315, R317), within their limits. -/
def Obligations.ExactWords : Prop :=
  ∀ (s : State) (o : VOp) (p : VyProg) (t : VyThread) (v : VyIns),
    let a := t.gget v.a
    let x := t.wget v.d
    let y := t.wget v.a
    let i := a.toNat
    let term (e : Slot × InCnt) : Res := leaves s v { p with aovf := p.aovf + e.2.aovf, gzero := p.gzero + e.2.gzero }
      ((past v t).wset v.d ⟨e.1, x.anchor, x.head, x.count + 1⟩)
    (Runs s (.wclr o) p t v → 20 ≤ (opB v t).toNat → (opB v t).toNat ≤ 40 →
      exec (.wclr o) s = leaves s v p ((past v t).wset v.d ⟨Slot.empty, bsgn ⟨0, 10⟩ a, (opB v t).toNat, 0⟩))
    ∧ (Runs s (.wacc o) p t v → x.count + 1 ≤ 2 ^ x.head →
      exec (.wacc o) s = term (accumulate (2 ^ (127 - x.head)) x.anchor x.slot (exactSource v.mod a)))
    ∧ (Runs s (.wdot o) p t v → x.count + 1 ≤ 2 ^ x.head →
      exec (.wdot o) s = term (accumulate (2 ^ (127 - x.head)) x.anchor x.slot ((f32 (lo32 a)).mul (f32 (lo32 (opB v t))))))
    ∧ (Runs s (.wadd o) p t v → x.anchor = y.anchor → x.head = y.head → x.count + y.count ≤ 2 ^ x.head →
      exec (.wadd o) s = leaves s v p ((past v t).wset v.d ⟨x.slot.join y.slot, x.anchor, x.head, x.count + y.count⟩))
    ∧ (Runs s (.wread o) p t v → badControl (opB v t) = false →
      exec (.wread o) s =
        (let e := encodeBy (opB v t) (readSlot y.anchor y.slot)
         leaves s v { p with cnt := p.cnt.add e.2 } ((past v t).gset v.d (BitVec.ofNat 64 e.1))))
    ∧ (Runs s (.maxr o) p t v →
      exec (.maxr o) s = writesG s v p t (BitVec.ofNat 64 (maxrecAdd (BitVec.ofNat 32 (lo32 a)) (f32 (lo32 (opB v t)))).toNat))
    ∧ (Runs s (.sacc o) p t v → i < 256 * p.stripes → tget 0 p.reqs (i / 256) + 1 ≤ 1048576 →
      exec (.sacc o) s = leaves s v { p with adds := p.adds ++ [⟨v.tile, v.tid, i, exactSource v.mod (opB v t)⟩],
                                             reqs := tset 0 p.reqs (i / 256) (tget 0 p.reqs (i / 256) + 1) } (past v t))
    ∧ (Runs s (.sld o) p t v → i < 256 * p.stripes →
      exec (.sld o) s = leaves s v p
        ((past v t).wset v.d ⟨tget Slot.empty p.slots i, p.anchor, 20, tget 0 p.seen (i / 256)⟩))

/-- Special registers, Seedline and work items (R291, R302, R321), and transfers (R318 to R320): a transfer that keeps its bounds
joins the outstanding ones of its thread, and its completion reads host memory where that is its source (R325) and moves its bytes, once
no slice runs where they are (R642).
The choices of the model in it: assumptions 33 and 34. -/
def Obligations.SpecialWordsAndTransfers : Prop :=
  (∀ (s : State) (o : VOp) (p : VyProg) (t : VyThread) (v : VyIns),
    let n := (t.gget v.a).toNat
    let item := t.wq * 256 * p.threads + (v.tile * p.threads + v.tid)
    let took (k : Nat) : VyThread := (past v t).gset v.d (if k < n then BitVec.ofNat 64 k else BitVec.allOnes 64)
    let pick := n % 32
    let boff := (t.gget v.b).toNat
    (Runs s (.gets o) p t v → exec (.gets o) s = writesG s v p t (BitVec.ofNat 64 (specialReg s p v v.a)))
    ∧ (Runs s (.seed o) p t v → exec (.seed o) s = writesG s v p t (BitVec.ofNat 64 (seedDraw ((s.job p.job).get J.key) (n % 2 ^ 48)
      ((opB v t).toNat / 2 ^ 40) ((opB v t).toNat % 2 ^ 40) v.mod)))
    ∧ (Runs s (.wqtake o) p t v →
      (p.balanced = false → exec (.wqtake o) s = leaves s v p { took item with wq := t.wq + 1 })
      ∧ (p.balanced = true → exec (.wqtake o) s = leaves s v { p with nextItem := p.nextItem + 1 } (took p.nextItem)))
    ∧ ∀ w : Word32, v.imm = some w →
      let woff := nbits w.toNat 0 21
      let len := 64 * nbits w.toNat 21 11
      len ≠ 0 → pick < p.bufs.length → boff % 64 = 0 → woff % 64 = 0 → boff + len ≤ (p.buf pick).length →
      woff + len ≤ windowSize p.balanced → (p.xfers.filter (fun x => x.tile == v.tile && x.tid == v.tid && !x.done)).length < 4 →
      (Runs s (.bxferI o) p t v → (p.buf pick).kind ≠ 3 → exec (.bxferI o) s =
        leaves s v { p with xfers := p.xfers ++ [⟨v.tile, v.tid, false, pick, boff, woff, len, [], false⟩] } (past v t))
      ∧ (Runs s (.bxferO o) p t v → (p.buf pick).writable = true → exec (.bxferO o) s =
        leaves s v { p with xfers := p.xfers ++ [⟨v.tile, v.tid, true, pick, boff, woff, len,
          if p.balanced then [] else (List.range len).map (fun i => tget 0 p.snap (winKey v.tile (woff + i))), false⟩] } (past v t)))
  ∧ ∀ (s : State) (p : VyProg) (x : VyXfer) (tile tid : Nat) (data : Option Bytes), s.clocked = true → s.vy = some p →
    p.xfers.find? (fun x => x.tile == tile && x.tid == tid && !x.done) = some x →
    let waits := s.sliced (s.bufferSectors p.job (p.buf x.buf) x.boff x.len)
    (waits = true → exec (.transferComplete tile tid data) s = .next s)
    ∧ (waits = false → ((p.buf x.buf).kind ≠ 0 ∨ s.linkUp (s.ringCard p.ring) = true) →
      let u := s.xferRead p x
      (∀ st, u.xferData p x data = .inr st → exec (.transferComplete tile tid data) s = .next ((u.xferError p x st).vyEnd p st none 0))
      ∧ ∀ d, u.xferData p x data = .inl d →
        (p.balanced = false → exec (.transferComplete tile tid data) s =
          .next (u.vySettle { p with xfers := updFirst (fun y => y == x) (fun y => { y with data := d, done := true }) p.xfers }))
        ∧ (p.balanced = true → x.out = false → exec (.transferComplete tile tid data) s =
          .next (u.vySettle { p with xfers := p.xfers.erase x, win := putBytes p.win tile x.woff d }))
        ∧ (p.balanced = true → x.out = true → exec (.transferComplete tile tid data) s =
          .next ((u.toBuffer p.job (p.buf x.buf) x.boff ((List.range x.len).map (fun i => p.byte tile (x.woff + i)))).vySettle
            { p with xfers := p.xfers.erase x })))

/-- A word whose guard, turned by PNEG, is 0 only moves its thread's PC past it (R293). -/
def Obligations.GuardedWords : Prop :=
  ∀ (s : State) (i : Instr) (p : VyProg) (t : VyThread) (v : VyIns), Issues s i p t v → (t.qget v.guard == v.gneg) = true →
    exec i s = leaves s v p (past v t)

/-- Words that fault (R295, R300, R304, R309, R315, R317 to R319, R351), with the kind and the address of R351: a PC beyond the text, an
immediate word beyond it, a reserved CLASS or OP, and a field that breaks R295, for every row; and the faults of one operation. An error
that a check of the bed finds ends the program (R353, R354).
The choices of the model in it: assumptions 32, 34 and 37. -/
def Obligations.FaultingWords : Prop :=
  (∀ (s : State) (i : Instr) (r : VyRow) (p : VyProg), rowOf i = some r → s.clocked = true → s.vy = some p → p.lib = 0 →
    r.op.tile < p.ntiles → r.op.tid < p.threads →
    let t := p.thread r.op.tile r.op.tid
    let v := p.fields r.op.tile r.op.tid t.pc
    t.stat = .run →
    (r.op.upset ≠ .clean → exec i s = .next (s.vyUpset p r.op.tile r.op.upset))
    ∧ (r.op.upset = .clean →
      (p.text.length ≤ t.pc → exec i s = .next (s.vyFault p v t.pc vkPc 0 none))
      ∧ (t.pc < p.text.length → s.vyDecode p t.pc = none →
        exec i s = .next (s.vyFault p v t.pc vkBadOpcode (p.text.getD t.pc 0).toNat none))
      ∧ (s.vyDecode p t.pc = some (r.cls, r.place) →
        (t.pc < p.text.length → p.text.length < t.pc + opWords v → exec i s = .next (s.vyFault p v t.pc vkPc 0 none))
        ∧ (t.pc + opWords v ≤ p.text.length → r.use.bad v (r.cls == 7) = true →
          exec i s = .next (s.vyFault p v t.pc vkBadOpcode (p.text.getD t.pc 0).toNat none)))))
  ∧ ∀ (s : State) (o : VOp) (p : VyProg) (t : VyThread) (v : VyIns),
    let faults (i : Instr) (kind addr : Nat) : Prop := Runs s i p t v → exec i s = .next (s.vyFault p v t.pc kind addr none)
    let i := (t.gget v.a).toNat
    (∀ k, (memPlace p v false (memAddr v t) = .inr k → ∀ i ∈ [Instr.ld o, .lds o, .st o], faults i k (memAddr v t).toNat)
      ∧ (memPlace p v true (memAddr v t) = .inr k → ∀ i ∈ [Instr.pld o, .pst o], faults i k (memAddr v t).toNat)
      ∧ (memPlace p v v.peer (memAddr v t) = .inr k →
        ∀ i ∈ [Instr.aadd o, .amin o, .amax o, .aminu o, .amaxu o, .aand o, .aor o, .aswp o, .acas o], faults i k (memAddr v t).toNat))
    ∧ (2 ^ (t.wget v.d).head < (t.wget v.d).count + 1 → faults (.wacc o) vkAccLimit v.d ∧ faults (.wdot o) vkAccLimit v.d)
    ∧ ((t.wget v.d).anchor ≠ (t.wget v.a).anchor → faults (.wadd o) vkAnchor (Config.anchorDiffAddr v.d v.a))
    ∧ (256 * p.stripes ≤ i → faults (.sacc o) vkScratch i ∧ faults (.sld o) vkScratch i)
    ∧ (i < 256 * p.stripes → 1048576 ≤ tget 0 p.reqs (i / 256) → Runs s (.sacc o) p t v →
      (p.balanced = true → exec (.sacc o) s = .next (s.vyFault p v t.pc vkAccLimit (i / 256) (some 0)))
      ∧ (p.balanced = false → exec (.sacc o) s = leaves s v (p.note vkAccLimit 0 (i / 256)) (past v t)))
    ∧ (16 ≤ t.stack.length → faults (.call o) vkStack 0)
    ∧ (t.stack = [] → faults (.ret o) vkStack 0)

/-! ## Rings and commands -/

/-- A tagged command is checked, and queued for admission or rejected with the status of its check (R232, R265, R267, R270, R428).
ADMIT (R45, R236): an eligible command that is first in its order takes its slots and its stage, a SIEVE_RUN with scratch slots its stripes; one of a past epoch is rejected.
The choices of the model in it: assumptions 6 and 19. -/
def Obligations.TaggedCommandsAndAdmission : Prop :=
  (∀ (s : State) (c : Ref) (x : Ctx) (i : Instr) (op : Nat) (check : Option Nat), Free s c op x →
    (i, op, check) ∈ [(.openBucket c, 0x01, s.redCheck x), (.allreduce c, 0x03, s.redCheck x), (.reduceScatter c, 0x04, s.redCheck x),
      (.allgather c, 0x05, s.dataCheck x (if x.p 84 40 = 0 then some stBadField
        else if x.p 124 4 = 0xF ∨ x.p 128 4 = 0xF ∨ x.p 132 2 = 3 then some stBadFormat else none)),
      (.shift c, 0x06, s.dataCheck x none),
      (.permute c, 0x07, s.dataCheck x (if x.p 20 16 = 0 ∨ x.p 36 16 = 0 then some stBadField else none))] →
    (check = none → exec i s = .next (s.modCtx c (fun y => { y with phase := .queued })))
    ∧ ∀ st, check = some st → exec i s = .next (s.modCtx c (Ctx.reject st)))
  ∧ (∀ (s : State) (c : Ref) (x : Ctx), s.clocked = true → s.stampEligible.ctx c = some x → x.phase = .queued →
    (isTagged x.opcode = true ∨ x.opcode = 0x0F) →
    let t := s.stampEligible
    (∀ u place, t.judgeAgain x = none → (t.eligible x = true ∨ t.sieveEligible x = true) → t.firstEligible x = true →
      t.makeRoom x.stripes = some u → u.placement x.stripes = some place →
      exec (.admitOp c) s = .next (if isTagged x.opcode then u.takeIn x place else u.admitSieve x place))
    ∧ (isTagged x.opcode = true → epochCase (t.job (t.ringJob x.ring)) x = .stale →
      exec (.admitOp c) s = .next (t.modCtx c (Ctx.reject stStaleEpoch))))

/-- NOP, whose settings take effect as it completes, LAUNCH_AT, what it cancels, and its maturity (R382 to R387, R433 to R435).
The choices of the model in it: assumption 24. -/
def Obligations.EventCommands : Prop :=
  (∀ (s : State) (c : Ref) (x : Ctx), Free s c 0x00 x →
    (x.p 0 2 = 0 → exec (.nop c) s = .next (s.modCtx c (Ctx.finish stOk)))
    ∧ (x.p 0 2 = 1 → 0 < x.p 18 17 → x.p 18 17 ≤ 65536 →
        let b := s.job (s.ringJob c.ring)
        exec (.nop c) s = .next (s.modCtx c
          (if b.hasEvent (x.p 2 16) && b.hasEvent (x.p 2 16 + x.p 18 17 - 1) then Ctx.finish stOk else Ctx.reject stBadEvent)))
    ∧ (1 < x.p 0 2 → exec (.nop c) s = .next (s.modCtx c (Ctx.reject stBadField))))
  ∧ (∀ (s : State) (x : Ctx), x.opcode = 0x00 → x.rejected = false → x.status = stOk → x.p 0 2 = 1 →
    s.nopClose x = s.eventSet ⟨x.freeTick, x.ring, x.idx, x.p 2 16, x.p 18 17⟩ (x.p 35 32) (x.p 67 32))
  ∧ (∀ (s : State) (c : Ref) (x : Ctx), Free s c 0x12 x → x.p 66 1 = 1 →
    let l := s.cancelTargets x
    exec (.launchAt c) s =
      .next ((s.each l (fun s y => s.launchEnd y stCancelled false)).launchEnd x (if l = [] then stNoOperation else stOk) false))
  ∧ (∀ (s : State) (c : Ref) (x : Ctx), Free s c 0x12 x → x.p 66 1 = 0 →
    (x.freeTick ≤ x.p 0 64 → exec (.launchAt c) s = .next (s.modCtx c (Ctx.start s.now)))
    ∧ (x.p 0 64 < x.freeTick → x.p 64 1 = 1 → exec (.launchAt c) s = .next (s.launchEnd x stLate false))
    ∧ (x.p 0 64 < x.freeTick → x.p 64 1 = 0 → (x.p 65 1 = 0 ∨ s.locked = true) →
        exec (.launchAt c) s = .next (s.launchEnd x stLate true)))
  ∧ ∀ (s : State) (c : Ref) (x : Ctx), s.clocked = true → s.ctx c = some x → x.opcode = 0x12 → x.phase = .run → x.p 0 64 ≤ s.now →
    ((x.p 65 1 = 0 ∨ s.locked = true) → exec (.launchMature c) s = .next (s.launchEnd x stOk true))
    ∧ (x.p 65 1 = 1 → s.locked = false → exec (.launchMature c) s = .next (s.launchEnd x stNotLocked false))

/-- FENCE, UNFENCE and CLOSE_BUCKET (R260, R445, R446).
The choices of the model in it: assumption 6. -/
def Obligations.FenceAndClose : Prop :=
  (∀ (s : State) (c : Ref) (x : Ctx), Free s c 0x10 x →
    (s.ownPort (x.p 0 23) = false → exec (.fence c) s = .next (s.modCtx c (Ctx.reject stBadField)))
    ∧ (s.ownPort (x.p 0 23) = true → s.fenced (x.p 0 23) (s.ringJob c.ring) = true → exec (.fence c) s = .next (s.modCtx c (Ctx.finish stOk)))
    ∧ (s.ownPort (x.p 0 23) = true → s.fenced (x.p 0 23) (s.ringJob c.ring) = false → 8192 ≤ s.fences.length →
      exec (.fence c) s = .next (s.modCtx c (Ctx.reject stBudget))))
  ∧ (∀ (s : State) (c : Ref) (x : Ctx), Free s c 0x10 x → s.ownPort (x.p 0 23) = true → s.fenced (x.p 0 23) (s.ringJob c.ring) = false →
    s.fences.length < 8192 →
    exec (.fence c) s = .next (({ s with fences := s.fences ++ [⟨x.p 0 23, s.ringJob c.ring⟩] } : State).each
        (s.ops.filter (fun o => o.job == s.ringJob c.ring)) (fun s o => s.fenceOp (x.p 0 23) o)
      |>.modCtx c (Ctx.finish stOk)))
  ∧ (∀ (s : State) (c : Ref) (x : Ctx), Free s c 0x11 x → s.ownPort (x.p 0 23) = true →
    (s.fenced (x.p 0 23) (s.ringJob c.ring) = true → exec (.unfence c) s =
      .next (({ s with fences := s.fences.erase ⟨x.p 0 23, s.ringJob c.ring⟩ } : State).modCtx c (Ctx.finish stOk)))
    ∧ (s.fenced (x.p 0 23) (s.ringJob c.ring) = false → exec (.unfence c) s = .next (s.modCtx c (Ctx.reject stNoOperation))))
  ∧ ∀ (s : State) (c : Ref) (x : Ctx), Free s c 0x02 x →
    let j := s.ringJob c.ring
    (x.p 98 1 = 0 → ∀ o, s.ops.find? (fun o => o.live && Op.named j (x.p 0 10) o && (!(o.isRed || o.opcode == 0x05) || o.gen == x.p 34 48))
        = some o → exec (.closeBucket c) s = .next ((s.abortOwn o stCancelled).modCtx c (Ctx.finish stOk)))
    ∧ (x.p 98 1 = 1 → ∀ h, s.held.find? (fun h => h.job == j && h.tensor == x.p 10 24 && h.gen == x.p 34 48 && h.tseq == x.p 82 16) = some h →
        exec (.closeBucket c) s = .next ((s.dropHeld h).modCtx c (Ctx.finish stOk)))
    ∧ (x.p 98 1 = 1 → s.held.find? (fun h => h.job == j && h.tensor == x.p 10 24 && h.gen == x.p 34 48 && h.tseq == x.p 82 16) = none →
        exec (.closeBucket c) s = .next (s.modCtx c (Ctx.finish stNoOperation)))

/-- Planting schedules (R543 to R547): loading a bank, its start, and its slots. The fabric routes the packets that wait at its inputs
and moves their cells (R516, R518, R548), sends its congestion maps (R559, R561) and grants the buffers that wait (R551).
The choices of the model in it: assumptions 47 and 54. -/
def Obligations.Schedules : Prop :=
  (∀ s : State, s.clocked = true → exec .cellTime s = .next s.cellTime)
  ∧ (∀ (s : State) (inp : Nat) (p : Packet) (k : Pk), s.clocked = true → s.quiesced = false → inp ≠ inEngines → p.bad = false →
    s.xb.pkts.find? (fun k => k.inp == inp && !k.routed && k.pkt.hdr == p.hdr && k.pkt.cls == p.cls) = some k →
    exec (.packetRoute inp p) s = .next (s.routePk k))
  ∧ (∀ (s : State) (t : Telem) (rest : List Telem), s.clocked = true → s.xb.telemDone = t :: rest → t.seq < 2 ^ 32 → s.poolFree 0 4 ≠ 0 →
    ∃ u, exec .telemetryInterval s = .next u ∧ u.fget Reg.telemSeq F.telemSeq_value = t.seq)
  ∧ (∀ (s : State) (die pool : Nat) (w : PoolWait) (a : Nat) (b : Bytes), s.clocked = true →
    s.xb.poolWait.find? (fun w => w.die == die && w.pool == pool) = some w → w.use = .record a b → w.use.need pool ≤ s.poolFree die pool →
    ∃ t, exec (.poolWaitGrant die pool) s = .next t ∧ t.out = s.out ++ [.hostWrite a b] ∧ t.xb.poolWait = s.xb.poolWait.erase w)
  ∧   (∀ (s : State) (c : Ref) (x : Ctx) (b : Bytes) (owners : Tab Nat), Free s c 0x13 x → s.flag Reg.schedStatus F.schedStatus_pending = false →
    s.ownerOf (s.ringJob c.ring) = s.ownerOf resFabric →
    (x.p 170 1 = 1 → ∀ img, exec (.scheduleLoad c img) s = .next (s.loadBank c (x.p 88 64) (x.p 152 5) (x.p 157 13) true []))
    ∧ (x.p 170 1 = 0 → x.p 0 64 % 64 = 0 → 6 ≤ x.p 152 5 → x.p 152 5 ≤ 20 → 1 ≤ x.p 157 13 → x.p 157 13 ≤ 4096 →
        x.p 64 24 = 512 * x.p 157 13 →
        (s.linkUp (s.ringCard c.ring) = false → ∀ img, exec (.scheduleLoad c img) s = .next s)
        ∧ (s.linkUp (s.ringCard c.ring) = true →
          let u := s.hostRead (s.ringCard c.ring) (x.p 0 64) (x.p 64 24)
          exec (.scheduleLoad c none) s = .next (u.imageFault c)
          ∧ (ownersOf (u.flag Reg.partId F.partId_grafted) (x.p 157 13) b = (true, owners) →
            exec (.scheduleLoad c (some b)) s = .next (u.loadBank c (x.p 88 64) (x.p 152 5) (x.p 157 13) false owners)))))
  ∧ (∀ (s : State) (b : SchedBank), s.clocked = true → s.waitingBank = some b → b.force ≤ s.now →
    exec .scheduleStart s = .next
      (((((s.fset Reg.schedStatus F.schedStatus_bank s.freeBank).fset Reg.schedStatus F.schedStatus_inForce (if b.clear then 0 else 1)).fset
        Reg.schedStatus F.schedStatus_pending 0).fset Reg.schedStatus F.schedStatus_slot (if b.clear then 0 else b.slotAt s.now)).rset
        Reg.schedStart (BitVec.ofNat 64 b.start)))
  ∧ ∀ (s : State) (b : SchedBank), s.clocked = true → s.bank = some b →
    exec .slotBoundary s = .next (s.fset Reg.schedStatus F.schedStatus_slot (b.slotAt s.now))

/-- Route images (R528 to R532): staging, the write at an idle moment or its timeout, and the swap now, late or at its tick, at whose start
the version has flipped.
The choices of the model in it: assumption 54. -/
def Obligations.RouteImages : Prop :=
  (∀ (s : State) (c : Ref) (x : Ctx) (b : Bytes) (l : List RouteSection), Free s c 0x14 x → s.routeTurn c = true →
    s.ownerOf (s.ringJob c.ring) = s.ownerOf resFabric → x.p 0 64 % 64 = 0 →
    (s.linkUp (s.ringCard c.ring) = false → exec (.routeStage c (some b)) s = .next s)
    ∧ (s.linkUp (s.ringCard c.ring) = true → parseSections (x.p 64 24) (bytesAt b 0 (x.p 64 24)) = some l →
      let u := s.hostRead (s.ringCard c.ring) (x.p 0 64) (x.p 64 24)
      let v := u.modCtx c (Ctx.start u.now)
      l.all (u.sectionOk (u.stagedRoutes (x.p 88 1 == 1) l)) = true →
      exec (.routeStage c (some b)) s = .next { v with xb := { v.xb with staged := some ⟨c.ring, c.idx, x.p 88 1 == 1, l, v.now⟩ } }))
  ∧ (∀ (s : State) (r : RouteStage), s.clocked = true → s.xb.staged = some r →
    (s.holdsIdle = false → s.now ≤ r.since + 2 ^ 20 →
      exec .routeStageWrite s = .next
        (((({ s with xb := if s.activeEpoch = 0 then { s.xb with route1 := s.stagedRoutes r.copyActive r.sections, staged := none }
              else { s.xb with route0 := s.stagedRoutes r.copyActive r.sections, staged := none } } : State).fset
          Reg.routeStatus F.routeStatus_staged 1).fset Reg.routeStatus F.routeStatus_writing 1).modCtx ⟨r.ring, r.idx⟩ (Ctx.finish stOk)))
    ∧ (r.since + 2 ^ 20 ≤ s.now → exec .routeStageTimeout s = .next
        (({ s with xb := { s.xb with staged := none } } : State).modCtx ⟨r.ring, r.idx⟩ (Ctx.finish stTimeout))))
  ∧ (∀ (s : State) (c : Ref) (x : Ctx), Free s c 0x15 x → s.routeTurn c = true → s.ownerOf (s.ringJob c.ring) = s.ownerOf resFabric →
    x.p 64 1 ≠ s.activeEpoch → s.flag Reg.routeStatus F.routeStatus_staged = true →
    ((x.p 0 64 = 0 ∨ x.p 0 64 = s.now) → exec (.routeSwap c) s = .next (s.flip.modCtx c (Ctx.finish stOk)))
    ∧ (0 < x.p 0 64 → x.p 0 64 < s.now → exec (.routeSwap c) s = .next (s.flip.modCtx c (Ctx.finish stLate)))
    ∧ (s.now < x.p 0 64 → exec (.routeSwap c) s = .next (s.modCtx c (Ctx.start s.now))))
  ∧ ∀ (s : State) (x : Ctx), s.clocked = true → s.host.ctxs.find? (fun x => x.opcode == 0x15 && x.phase == .run) = some x →
    x.p 0 64 ≤ s.now →
    exec .routeSwapAt s = .next ((if x.p 64 1 = s.activeEpoch then s else s.flip).modCtx x.ref (Ctx.finish stOk))

/-- SURVEY (R456 to R458, R600): the snapshot begins, is written to host memory, and ends with an interrupt or a completion.
The choices of the model in it: assumption 41. -/
def Obligations.Surveys : Prop :=
  (∀ (s : State) (c : Ref) (x : Ctx), Free s c 0x16 x →
    (surveyBytes ≤ x.p 64 40 → x.p 0 64 % 4096 = 0 → s.host.survey = none →
      exec (.survey c) s = .next ((s.modCtx c (fun y => { y.start s.now with result := svResult s.now })).svStart (some c) (s.ringCard c.ring) (x.p 0 64)))
    ∧ (x.p 64 40 < surveyBytes → exec (.survey c) s = .next (s.modCtx c (fun y => { y.reject stBadField with result := svResult 0 }))))
  ∧ (∀ (s : State) (m : Master), s.clocked = true →
    (s.host.survey = none → surveyBytes ≤ s.fget Reg.surveyLen F.surveyLen_len →
      exec (.surveyGo m) s = .next (s.svStart none (masterCard m) (s.rget Reg.surveyAddr).toNat))
    ∧ (s.host.survey ≠ none → exec (.surveyGo m) s = .next (s.fset Reg.surveyStatus F.surveyStatus_lost 1)))
  ∧ ∀ (s : State) (v : SurveyRun) (snap : List (Nat × Bytes)), s.clocked = true → s.host.survey = some v → v.snap = some snap →
    s.linkUp v.card = true →
    let u := (s.emit (.hostZero v.addr surveyBytes)).each (snap ++ s.svLate) (fun s e => s.emit (.hostWrite (v.addr + e.1) e.2))
    let t := ({ u with host := { u.host with survey := none } } : State).fset Reg.surveyStatus F.surveyStatus_busy 0
    (∀ c, v.cmd = some c → exec (.surveyComplete false) s =
      .next (t.modCtx c (fun y => { y.finish stOk with result := svResult v.snapTick })))
    ∧ (v.cmd = none → exec (.surveyComplete false) s = .next ((t.fset Reg.surveyStatus F.surveyStatus_done 1).msix v.card 0))

/-- The intake of a ring (R374, R420, R423, R428, R433, R651): a descriptor is read once, at its place in the ring, and accepted, and a
command whose events are set is free, but not in the tick of a step of the counter. A command whose context is uncorrectable is lost,
wherever it stands.
The choices of the model in it: assumptions 9 and 22. -/
def Obligations.RingIntake : Prop :=
  (∀ (s : State) (ring : Nat) (d : BitVec 512), s.clocked = true → s.nextRing = some ring →
    let u := s.hostRead (s.ringCard ring) (s.descAddr ring (s.cmdHead ring)) 64
    (∀ e, exec (.descriptorRead ring e .ecc) s = .next (s.jobTableLost (s.ringJob ring)))
    ∧ ((s.ringX ring).heldDesc = some d → ∀ e, exec (.descriptorRead ring e .clean) s = .next (s.accept ring d))
    ∧ ((s.ringX ring).heldDesc = none → exec (.descriptorRead ring (some d) .clean) s = .next (u.takeDesc ring d))
    ∧ ((s.ringX ring).heldDesc = none → exec (.descriptorRead ring none .clean) s =
        .next ((u.haltRing ring 2).hostReadErr (u.ringCard ring) ring (some (u.ringJob ring)))))
  ∧ (∀ (s : State) (c : Ref) (x : Ctx), s.clocked = true → s.ctx c = some x → x.phase = .waits → s.waitsSet x = true →
    s.time.stepNow = false →
    exec (.waitRelease c .clean) s = .next (s.freeWaits c) ∧ exec (.waitRelease c .residue) s = .next (s.freeWaits c))
  ∧ ∀ (s : State) (c : Ref) (x : Ctx), s.clocked = true → s.ctx c = some x → exec (.waitRelease c .ecc) s = .next (s.ctxLost x)

/-- The end of a command (R226, R426, R432, R436, R437): its row completes it once all that it sent has
left the part (R249) and no command has begun in the tick that its settings would hold back (R434), and its context leaves; its tag is free
once its entry is written.
The choices of the model in it: assumptions 10 and 65. -/
def Obligations.Completions : Prop :=
  (∀ (s : State) (c : Ref) (x : Ctx), s.clocked = true → s.ctx c = some x → x.phase = .ended →
    ((s.opOf c).all s.packetsOut = true → (x.opcode = 0x0A → s.pubOut x = true) → s.setsLate x = false →
      exec (.commandComplete c) s = .next (s.complete (s.withReport x)))
    ∧ ((s.opOf c).all s.packetsOut = false ∨ (x.opcode = 0x0A ∧ s.pubOut x = false) ∨ s.setsLate x = true →
      exec (.commandComplete c) s = .next s)
    ∧ (s.complete (s.withReport x)).ctx c = none)
  ∧ (∀ (s : State) (h : HeldCpl), ∀ o ∈ (s.writeCpl h).ops, ¬(o.ring = h.ring ∧ o.idx = bget ⟨32, 32⟩ h.entry))
  ∧ ∀ (s : State) (ring t : Nat), s.clocked = true → (s.ringX ring).firstTick = some t → s.flag (Reg.ringIrq ring) F.ringIrq_irqEn = true →
    0 < s.fget (Reg.ringIrq ring) F.ringIrq_delay → t + 1024 * s.fget (Reg.ringIrq ring) F.ringIrq_delay ≤ s.now →
    exec (.irqDelay ring) s = .next (s.ringMsix ring)

/-- Ring registers by the owner of the ring (R414 to R420): doorbells on a running ring, enabling and disabling. The Taproot link of a
card (R398, R400, R401) goes down or into D3hot, and comes up at a rate and a width of PCIe, the package's own once its Taproot link is active,
writes the completions held for it, and lets a program go on.
The choices of the model in it: assumptions 28 and 78. -/
def Obligations.RingRegistersAndLink : Prop :=
  (∀ (s : State) (m : Master) (ring : Nat), s.clocked = true → ring < 16384 → s.owns m (s.ringJob ring) = true →
    (∀ value : Word64, s.ringState ring = ringRunning →
      let tail := value.toNat % 2 ^ 32
      let head := value.toNat / 2 ^ 32
      let halted := (s.haltRing ring 1).logEvent 0x05 3 1 0 (logDetail (some (s.ringJob ring)) none 0 ring) none
      exec (.doorbell m ring .both value) s = .next (if s.badHead ring head || s.badTail ring tail head then halted
        else (s.fset (Reg.doorbell ring) F.doorbell_cmdTail tail).fset (Reg.doorbell ring) F.doorbell_cplHead head)
      ∧ exec (.doorbell m ring .tail value) s = .next (if s.badTail ring tail (s.cplHead ring) then halted
        else s.fset (Reg.doorbell ring) F.doorbell_cmdTail tail)
      ∧ exec (.doorbell m ring .head value) s = .next (if s.badHead ring tail then halted
        else s.fset (Reg.doorbell ring) F.doorbell_cplHead tail))
    ∧ (∀ half value, s.ringState ring ≠ ringRunning → exec (.doorbell m ring half value) s = .next s)
    ∧ (∀ ctrl,
      let on := (s.ringConfig ring ctrl).fset (Reg.ringCtrl ring) F.ringCtrl_enable 1
      let off := (s.ringConfig ring ctrl).fset (Reg.ringCtrl ring) F.ringCtrl_enable 0
      (s.ringState ring = ringIdle → on.ringMayRun m ring = true → exec (.ringEnable m ring ctrl) s = .next (on.startRing ring))
      ∧ (s.ringState ring = ringIdle → on.ringMayRun m ring = false →
          exec (.ringEnable m ring ctrl) s = .next (on.fset (Reg.ringStatus ring) F.ringStatus_cause 3))
      ∧ ((s.ringState ring = ringRunning ∨ s.ringState ring = ringHalted) → s.accepted ring = 0 → exec (.ringDisable m ring ctrl) s = .next (off.idleRing ring))
      ∧ ((s.ringState ring = ringRunning ∨ s.ringState ring = ringHalted) → 0 < s.accepted ring →
          exec (.ringDisable m ring ctrl) s = .next (off.setRingState ring ringDraining))))
  ∧ (∀ (s : State) (card : Nat), s.clocked = true → s.hasCard card = true → s.linkUp card = true →
    exec (.taprootLinkDown ⟨card, false⟩) s = .next (s.loseTap card)
    ∧ exec (.taprootLinkDown ⟨card, true⟩) s = .next ((s.fset (Reg.tapStatus + cardSpan * card) F.tapStatus_d3hot 1).tapGone card))
  ∧ ∀ (s : State) (card gen width : Nat) (flit : Bool), s.clocked = true → s.hasCard card = true → s.linkUp card = false →
    1 ≤ gen → gen ≤ 6 → width ∈ [1, 2, 4, 8, 16] → (card = s.pkgNo → s.tapUp = true) →
    let a := Reg.tapStatus + cardSpan * card
    let u := (((s.fset a F.tapStatus_linkUp 1).fset a F.tapStatus_d3hot 0).fset a F.tapStatus_pcieGen gen).fset a F.tapStatus_pcieWidth width
    exec (.taprootLinkUp card width ⟨gen, flit⟩) s = .next (u.fset a F.tapStatus_flit (if flit then 1 else 0)).flushHeld.vyResume

/-! ## Reductions and data exchanges -/

/-- CONTRIB (R51, R230, R239 to R242, R513, R651): at ingress a member's values for an open bucket are counted, and queued to their beds or
kept in the packet buffer while one of those is full (the model's depth of that queue is free); a contribution of another epoch, a foreign one
and one beyond what the member owes are not. One with an uncorrectable cell is not used.
The choices of the model in it: assumptions 16 and 71. -/
def Obligations.Contributions : Prop :=
  ∀ (s : State) (port : Nat) (p : Packet), s.clocked = true → pget p Ph.type = ptContrib → s.jobIs (pget p Ph.job) jobActive = true →
    let t := s.taken p
    (s.spoiled p = true → exec (.contrib port p) s = .next (t.bufferCell port p))
    ∧ (s.spoiled p = false → ∀ o, s.findOp (pget p Ph.job) (pget p Ph.tag) = some o →
      (o.epoch ≠ pget p Ph.epoch →
        exec (.contrib port p) s = .next ((t.mirrorTaken mrStale).setOp { o with stale := o.stale + t.packetCells p }))
      ∧ (o.epoch = pget p Ph.epoch → o.live = true →
        let q := s.entryBit port p
        let own := o.isRed = true ∧ o.src.contains q = true ∧ s.bitMember ((s.job o.job).layout o.layoutNo) q = some (pget p Ph.member)
        let k := contribSplit o.wireFmt o.nelem (pget p Ph.offset) (elemCount o.wireFmt p.payload)
        let sent := o.portSent q + k.1
        (¬own → exec (.contrib port p) s = .next ((t.mirrorTaken mrForeignIn).setOp { o with
            foreign := o.foreign + t.packetCells p }))
        ∧ (own → o.owed < sent → exec (.contrib port p) s = .next (t.abortOwn { o with foreign := o.foreign + k.2 } stOvercount))
        ∧ (own → sent ≤ o.owed →
            let o' : Op := { o with foreign := o.foreign + k.2, accepted := tset 0 o.accepted q sent, valuesIn := o.valuesIn + k.1 }
            exec (.contrib port p) s =
              .next ((s.setOp o').queueValues port p (o.values p (pget p Ph.offset) k.1 (pget p Ph.member))))))
    ∧ (s.spoiled p = false → s.findOp (pget p Ph.job) (pget p Ph.tag) = none → exec (.contrib port p) s = .next (t.strayCells p))
    ∧ (∀ l : List BedVal, s.inBuffer p = none → l.any (fun v => s.bedFull v.bed) = false →
      s.queueValues port p l = { s with bedQ := s.bedQ ++ l })

/-- RAKE_ACCUMULATE (R50, R121, R151, R244): a bed takes the value that has waited longest at it into its slot; at the root, a stripe that
is final with another count than TOTAL_COUNT aborts the bucket.
The choices of the model in it: assumption 15. -/
def Obligations.RakeAccumulate : Prop :=
  ∀ (s : State) (bed : Nat) (v : BedVal) (o : Op), s.clocked = true → s.bedQ.find? (fun v => v.bed == bed) = some v →
    ({ s with bedQ := s.bedQ.erase v } : State).findOp v.job v.tag = some o → o.live = true →
    let t : State := { s with bedQ := s.bedQ.erase v }
    let o' := o.rake v
    let k := v.elem / 256
    ((o'.root = false ∨ o'.stripeFinal k = false ∨ o'.covered k = o'.total) → exec (.rakeAccumulate bed .clean) s = .next (t.setOp o'))
    ∧ (o'.root = true → o'.stripeFinal k = true → o'.covered k ≠ o'.total →
      exec (.rakeAccumulate bed .clean) s = .next (t.abortOwn o' stCountMismatch))
    ∧ exec (.rakeAccumulate bed .residue) s = .next (t.bedUpset .residue 1 bed o)
    ∧ exec (.rakeAccumulate bed .ecc) s = .next (t.bedUpset .ecc 1 bed o)

/-- XP (R51, R144, R150, R151, R238, R244, R261): a child's record for a live reduction is combined into its stripe once its checks hold; it waits
while the bed of its stripe is full, and a check that fails in the decoder or in the adder aborts the bucket. One that does not match an
operation is dropped and counted.
The choices of the model in it: assumptions 15 and 37. -/
def Obligations.XpRecords : Prop :=
  ∀ (s : State) (port : Nat) (p : Packet), Arrives s p → pget p Ph.type = ptXp →
    ((s.recordBed p).any s.bedFull = true → ∀ u, exec (.xp port p u) s = .next s)
    ∧ ((s.recordBed p).any s.bedFull = false →
    ((s.taken p).findOp (pget p Ph.job) (pget p Ph.tag) = none → exec (.xp port p .clean) s = .next ((s.taken p).late p))
    ∧ ∀ o, (s.taken p).findOp (pget p Ph.job) (pget p Ph.tag) = some o → o.epoch = pget p Ph.epoch →
      (¬(o.live = true ∧ o.isRed = true ∧ o.matchesNotice p = true) → exec (.xp port p .clean) s = .next ((s.taken p).late p))
      ∧ (o.live = true → o.isRed = true → o.matchesNotice p = true →
        let r := xpParse p.payload
        let o' : Op := { o with originCoord := pkgOf p }
        ((o.nstripes ≤ r.stripe ∨ r.nelem ≠ o.stripeLen r.stripe) → exec (.xp port p .clean) s = .next ((s.taken p).abortOwn o' stXpCheck))
        ∧ (r.stripe < o.nstripes → r.nelem = o.stripeLen r.stripe →
          (xpResOk r = false → exec (.xp port p .clean) s = .next ((s.taken p).xpFault o r.stripe (pkgOf p)))
          ∧ (xpResOk r = true → r.anchor ≠ o.anchor → exec (.xp port p .clean) s = .next ((s.taken p).abortOwn o' stAnchorMismatch))
          ∧ (xpResOk r = true → r.anchor = o.anchor →
            (o.children ≤ (o.stripe r.stripe).records → exec (.xp port p .clean) s = .next ((s.taken p).abortOwn o stOvercount))
            ∧ ((o.stripe r.stripe).records < o.children → o.covered r.stripe + r.ncontrib ≤ 1048576 →
              exec (.xp port p .clean) s =
                .next ((s.taken p).stripeTaken (o.setStripe r.stripe ((o.stripe r.stripe).combine r)) r.stripe)
              ∧ exec (.xp port p .residue) s = .next ((s.taken p).bedUpset .residue 1 (o.place.getD r.stripe 0) o)))
          ∧ exec (.xp port p .readout) s = .next ((s.taken p).xpFault o r.stripe (pkgOf p)))))

/-- XP_SEND and CHUNK_FINAL (R126, R150, R151, R244 to R248): a chunk that is final is sent to the parent, or read out at the root; a check
that fails as it is read aborts the bucket.
The choices of the model in it: assumption 17. -/
def Obligations.Chunks : Prop :=
  (∀ (s : State) (job tag chunk : Nat) (o : Op), s.clocked = true → s.findOp job tag = some o → o.maySend chunk = true →
    exec (.xpSend job tag chunk .clean) s = .next (s.sendChunk o chunk)
    ∧ exec (.xpSend job tag chunk .residue) s = .next (s.chunkUpset .residue 2 o chunk))
  ∧ ∀ (s : State) (job tag chunk : Nat) (o : Op), s.clocked = true → s.findOp job tag = some o → o.live = true → o.isRed = true →
    chunk < o.nchunks → o.chunkFinal chunk = true → o.finalChunks.contains chunk = false →
    (∀ u, u ≠ .clean → exec (.chunkFinal job tag chunk u) s = .next (s.chunkUpset u (if o.root then 3 else 2) o chunk))
    ∧ (o.root = true → (o.chunkStripes chunk).any (fun k => o.covered k != o.total) = true →
      exec (.chunkFinal job tag chunk .clean) s = .next (s.abortOwn o stCountMismatch))
    ∧ (o.root = true → (o.chunkStripes chunk).any (fun k => o.covered k != o.total) = false → o.unopened = true →
      exec (.chunkFinal job tag chunk .clean) s = .next (s.setOp (o.afterFinal chunk)))
    ∧ (o.root = true → (o.chunkStripes chunk).any (fun k => o.covered k != o.total) = false → o.unopened = false →
      ∀ o', (s.readout o chunk).findOp job tag = some o' →
        exec (.chunkFinal job tag chunk .clean) s = .next ((s.readout o chunk).setOp (o'.afterFinal chunk)))
    ∧ (o.root = false → exec (.chunkFinal job tag chunk .clean) s = .next
        (if (o.afterFinal chunk).maySend chunk then (s.setOp (o.afterFinal chunk)).sendChunk (o.afterFinal chunk) chunk
         else s.setOp (o.afterFinal chunk)))

/-- The ends of a bucket (R249, R255 to R259): at the root, at a part below it, and at its deadline, judged once,
when every packet that has been accepted has been acted on: while it is still owed traffic it aborts.
The choices of the model in it: assumption 25. -/
def Obligations.BucketEnds : Prop :=
  ∀ (s : State) (job tag : Nat) (o : Op), s.clocked = true → s.findOp job tag = some o → o.live = true →
    (o.root = true → o.finalChunks.length = o.nchunks →
      (o.unopened = false → exec (.bucketComplete job tag) s = .next (s.rootDone o))
      ∧ (o.unopened = true → exec (.bucketComplete job tag) s = .next (s.abortOwn o stUnopened)))
    ∧ (o.root = false → o.isRed = true → o.unopened = false → o.sentChunks.length = o.nchunks →
      ((s.resultsOwed o).1 ≤ o.delivered ∧ (s.resultsOwed o).2 ≤ o.lasts →
        exec (.nonrootComplete job tag) s = .next ((s.finishOp o stOk).freeSlots { o with live := false }))
      ∧ (¬((s.resultsOwed o).1 ≤ o.delivered ∧ (s.resultsOwed o).2 ≤ o.lasts) →
        exec (.nonrootComplete job tag) s = .next (s.freeSlots { o with stage := .delivering })))
    ∧ (∀ d, o.deadline = some d → d ≤ s.now → s.untaken o = false →
      (s.isOwed o = true → exec (.bucketDeadline job tag) s = .next (s.abortOwn { o with
        missing := (s.owing o).foldl (fun m q => min m ((s.bitMember ((s.job o.job).layout o.layoutNo) q).getD noMember)) noMember
        portsShort := (s.owing o).length, childrenShort := o.childrenOwing } stTimeout))
      ∧ (s.isOwed o = false → exec (.bucketDeadline job tag) s = .next (s.setOp { o with deadline := none })))

/-- Notices and results of an operation (R237, R238, R248, R250, R251, R258): each goes to the live operation that it matches. A packet with
an uncorrectable cell is not used, and one cut short is discarded (R651, R653, R664).
The choices of the model in it: assumptions 13 and 19. -/
def Obligations.Notices : Prop :=
  (∀ (s : State) (port : Nat) (p : Packet) (i : Instr) (kind : Bool), s.clocked = true → (i, kind) ∈ arrivals s port p → kind = true →
    (s.spoiled p = true → exec i s = .next ((s.taken p).bufferCell port p))
    ∧ (s.spoiled p = false → p.aborted = true → exec i s = .next (((s.taken p).mirrorTaken mrDownDrop).downDrop port
      ((s.taken p).packetCells p))))
  ∧ ∀ (s : State) (port : Nat) (p : Packet), Arrives s p →
    (pget p Ph.type = ptResult → ∀ o, (s.taken p).matchOp p = some o → (pget p Ph.mcast = 1 ∨ (s.taken p).destIsDst o p = true) →
      exec (.result port p) s = .next (((s.taken p).setOp { o with
        delivered := o.delivered + nbits (numAt p.payload 0 32) 136 16
        lasts := o.lasts + nbits (numAt p.payload 0 32) 152 1 }).settleData o.job o.tag))
    ∧ (isControl p 0 = true → ∀ o, (s.taken p).matchOp p = some o → pkgOf p = o.parent → o.isRed = true →
      exec (.ready port p) s = .next ((s.taken p).setOp { o with parentReady := true }))
    ∧ (isControl p 2 = true →
      let m := summaryParse p.payload
      let held := (((s.taken p).job (pget p Ph.job)).record (pget p Ph.tensor)).isSome
      let t := if held then (s.taken p).modJob (pget p Ph.job)
          (fun b => b.takeMax (pget p Ph.tensor) (pget p Ph.gen) (pget p Ph.tseq) m.maxrec)
        else s.taken p
      (∀ o, t.resultOp p = some o → o.matchesNotice p = true → exec (.summary port p) s = .next (t.setOp { o with summary := some m }))
      ∧ (t.resultOp p = none → held = false → exec (.summary port p) s = .next (t.late p)))
    ∧ (isControl p 3 = true → ∀ o, (s.taken p).matchOp p = some o →
      let v := numAt p.payload 0 8
      exec (.abort port p) s = .next ((s.taken p).abortOp o stPeerAbort (if nbits v 32 1 = 1 then .down else .up (pkgOf p))
        (some (nbits v 0 16, nbits v 16 16))))
    ∧ (isControl p 3 = true → (s.taken p).matchOp p = none → exec (.abort port p) s = .next ((s.taken p).late p))

/-- ALLGATHER and SHIFT data (R265 to R268): a sender's bytes are accepted against what it owes, delivered where they may go, and
counted; those of any other input are foreign.
The choices of the model in it: assumptions 7, 18 and 81. -/
def Obligations.DataExchanges : Prop :=
  ∀ (s : State) (port : Nat) (p : Packet) (o : Op), s.clocked = true → s.spoiled p = false → s.jobIs (pget p Ph.job) jobActive = true →
    (s.taken p).findOp (pget p Ph.job) (pget p Ph.tag) = some o → o.epoch = pget p Ph.epoch → o.live = true →
    let s' := s.taken p
    let q := s'.entryBit port p
    let owes := s'.portOwes o q
    let k := pget p Ph.sender
    (isData p dsShift = true → (o.opcode ≠ 0x06 ∨ s'.fromSender o port p = false) → exec (.shiftData port p) s = .next (s'.foreignCells o p))
    ∧ (isData p dsShift = true → o.opcode = 0x06 → s'.fromSender o port p = true →
      (owes < o.portSent q + p.payload.length → exec (.shiftData port p) s = .next (s'.abortOwn o stOvercount))
      ∧ (o.portSent q + p.payload.length ≤ owes →
        let o' : Op := { o with accepted := tset 0 o.accepted q (o.portSent q + p.payload.length), valuesIn := o.valuesIn + p.payload.length }
        let t := s'.setOp o'
        let counted (t : State) : State := (t.setOp { o' with delivered := o'.delivered + p.payload.length }).settleData o'.job o'.tag
        (∀ d, o'.unopened = false → (o'.shiftTarget k).bind (layoutCoord ((t.job o'.job).layout o'.layoutNo)) = some d →
          exec (.shiftData port p) s = .next (counted
            (if t.mayReceive o' d then t.sendData o' 0 d (pget p Ph.byteOffset) k dsShift p.payload else t)))
        ∧ ((o'.unopened = true ∨ (o'.shiftTarget k).bind (layoutCoord ((t.job o'.job).layout o'.layoutNo)) = none) →
          exec (.shiftData port p) s = .next (counted t))))
    ∧ (isData p dsAllgather = true → (o.opcode ≠ 0x05 ∨ s'.fromSender o port p = false) →
      exec (.allgatherData port p) s = .next (s'.foreignCells o p))
    ∧ (isData p dsAllgather = true → o.opcode = 0x05 → s'.fromSender o port p = true →
      let sf := o.p 124 4
      let share := shareOf o.nelem o.members k
      let first := pget p Ph.byteOffset / (unitOf sf).2 * (unitOf sf).1
      let n := contribSplit sf share.2 first (elemCount sf p.payload)
      ((n.2 ≠ 0 ∨ owes < o.portSent q + n.1) → exec (.allgatherData port p) s = .next (s'.abortOwn o stOvercount))
      ∧ (n.2 = 0 → o.portSent q + n.1 ≤ owes →
        let o' : Op := { o with accepted := tset 0 o.accepted q (o.portSent q + n.1), valuesIn := o.valuesIn + n.1 }
        let t := s'.setOp o'
        exec (.allgatherData port p) s = .next
          ((if o'.unopened then t else t.gatherOn o' (share.1 + first) n.1 p.payload).settleData o'.job o'.tag)))

/-- PERMUTE (R269 to R272): row counts of a sender here or of another part are taken, a second ready notice is noted, and rows come after both:
those of a sender here go to the other parts and land, those of another part wait for the counts and land.
The choices of the model in it: assumptions 7 and 18. -/
def Obligations.PermuteExchanges : Prop :=
  (∀ (s : State) (port : Nat) (p : Packet) (o : Op), s.clocked = true → s.spoiled p = false →
    s.jobIs (pget p Ph.job) jobActive = true → (s.taken p).findOp (pget p Ph.job) (pget p Ph.tag) = some o →
    o.epoch = pget p Ph.epoch → o.live = true →
    let s' := s.taken p
    let q := s'.entryBit port p
    let here := s'.fromSender o port p
    let far := s'.fromPart port p
    let off := pget p Ph.byteOffset
    let rb := o.p 36 16
    let k := pget p Ph.sender
    let n := p.payload.length
    let comes := isData p dsRows = true ∧ s.rowsWait port p = false
    let land (t : State) : State :=
      (t.each (rangeFrom (off / rb) (ceilDiv (off % rb + n) rb)) (fun s r =>
        s.landRow o.job o.tag k r (max off (r * rb) - r * rb)
          ((p.payload.drop (max off (r * rb) - off)).take (min (off + n) ((r + 1) * rb) - max off (r * rb))))).settleData
        o.job o.tag
    (isData p dsCounts = true → o.opcode = 0x07 → k < o.members → (here = true ∨ far = true) →
      exec (.permuteCounts port p) s = .next (s'.countsIn o.job o.tag (if here then some q else none) p))
    ∧ (isData p dsCounts = true → (o.opcode ≠ 0x07 ∨ o.members ≤ k ∨ (here = false ∧ far = false)) →
      exec (.permuteCounts port p) s = .next (s'.foreignCells o p))
    ∧ (comes → (o.opcode ≠ 0x07 ∨ o.ready2 = false ∨ (here = false ∧ far = false)) →
      exec (.permuteRows port p) s = .next (s'.foreignCells o p))
    ∧ (comes → o.opcode = 0x07 → o.ready2 = true → here = false → far = true →
      exec (.permuteRows port p) s = .next (land s'))
    ∧ (comes → o.opcode = 0x07 → o.ready2 = true → here = true → o.unopened = false →
      o.portSent q + n ≤ s'.portOwes o q →
      let o' : Op := { o with accepted := tset 0 o.accepted q (o.portSent q + n), valuesIn := o.valuesIn + n }
      exec (.permuteRows port p) s = .next (land ((s'.setOp o').each o'.parts (fun s d => s.sendData o' 1 d off k dsRows p.payload))))
    ∧ (comes → o.opcode = 0x07 → o.ready2 = true → here = true → s'.portOwes o q < o.portSent q + n →
      exec (.permuteRows port p) s = .next (s'.abortOwn o stOvercount)))
  ∧ (∀ (s : State) (port : Nat) (p : Packet), s.rowsWait port p = true → exec (.permuteRows port p) s = .next s)
  ∧ (∀ (s : State) (job tag : Nat) (p : Packet) (o : Op), s.findOp job tag = some o → o.live = true → p.payload.length ≠ 0 →
    (o.countBytes < pget p Ph.byteOffset + p.payload.length ∨ o.countBytes < tget 0 o.countGot (pget p Ph.sender) + p.payload.length) →
    ∀ port, s.countsIn job tag port p = s.abortOwn o stOvercount)
  ∧ ∀ (s : State) (port : Nat) (p : Packet) (o : Op), Arrives s p → isControl p 1 = true → (s.taken p).matchOp p = some o →
    exec (.ready2 port p) s = .next (((s.taken p).setOp { o with ready2From := pkgOf p :: o.ready2From }).permuteReady o.job o.tag)

/-! ## NORM, STEP, PUBLISH, cold frames, images and programs -/

/-- NORM (R134, R150, R273 to R277, R642): it starts once its checks hold and no slice runs where its gradients are, takes its peers' messages of both passes, and times out. A mismatch of a
residue check of its dot product ends it with ARITH_FAULT, at its start or where its second pass begins.
The choices of the model in it: assumptions 30, 37 and 84. -/
def Obligations.Norms : Prop :=
  (∀ (s : State) (c : Ref) (x : Ctx), Free s c 0x08 x →
    let j := s.ringJob c.ring
    let l := s.gradsOf j (x.p 48 48) ((s.job j).working (x.p 0 24) (x.p 24 24))
    let waits := s.sliced ((l.filter (fun h => h.spill.isSome)).flatMap Held.sectors)
    (s.normCheck j (x.p 0 24) (x.p 24 24) (x.p 48 48) = none → waits = true → ∀ u, exec (.norm c u) s = .next s)
    ∧ (s.normCheck j (x.p 0 24) (x.p 24 24) (x.p 48 48) = none → waits = false → l.all (fun h => !s.lostGrad h) = true →
      exec (.norm c .clean) s = .next (s.normStart x)
      ∧ exec (.norm c .residue) s = .next ((s.heldResidue l .residue j (x.p 48 48)).endCmd c stArithFault)
      ∧ exec (.norm c .readout) s = .next ((s.heldResidue l .readout j (x.p 48 48)).endCmd c stArithFault))
    ∧ ∀ u st, s.normCheck j (x.p 0 24) (x.p 24 24) (x.p 48 48) = some st → exec (.norm c u) s = .next (s.rejectChecked c j (x.p 48 48) st
        (((s.job j).working (x.p 0 24) (x.p 24 24)).flatMap (fun e => recordSectors j e.1))))
  ∧ (∀ (s : State) (port : Nat) (p : Packet), Arrives s p →
    let m : NormMsg := ⟨pkgOf p, pget p Ph.tensor, pget p Ph.gen, false, BitVec.ofNat 32 (numAt p.payload 0 16),
      nbits (numAt p.payload 0 16) 32 40, 0, Slot.empty⟩
    let t := (s.taken p).normTake p m
    let began := ((s.taken p).normRuns p).filter
      (fun x => !x.second && !(t.norms.any (fun y => y.ring == x.ring && y.idx == x.idx && !y.second)))
    (isControl p 4 = true → exec (.normMax port ⟨p, .clean⟩) s = .next t
      ∧ (began = [] → exec (.normMax port ⟨p, .residue⟩) s = .next t)
      ∧ (∀ x, began = [x] → exec (.normMax port ⟨p, .residue⟩) s = .next
          (((s.taken p).heldResidue ((s.taken p).normGrads x) .residue x.job x.gen).failNorm x stArithFault)))
    ∧ (isControl p 5 = true →
      let r := xpParse p.payload
      r.stripe = 0 → r.nelem = 1 →
      (xpResOk r = true → exec (.normSum port p .clean) s = .next ((s.taken p).normTake p
        ⟨pkgOf p, pget p Ph.tensor, pget p Ph.gen, true, maxrecNone, 0, r.anchor, r.slots.getD 0 Slot.empty⟩))
      ∧ (xpResOk r = false → exec (.normSum port p .clean) s = .next
          (((s.taken p).partFault (pget p Ph.job) (pget p Ph.gen)).each ((s.taken p).normRuns p)
            (fun s x => s.failNorm x stXpCheck)))))
  ∧ ∀ (s : State) (c : Ref) (r : NormRun) (d : Nat), s.clocked = true →
    s.norms.find? (fun r => r.ring == c.ring && r.idx == c.idx) = some r → r.deadline = some d → d ≤ s.now →
    ((r.msgs (s.job r.job) false).length < r.owners - 1 ∨ (r.msgs (s.job r.job) true).length < r.owners - 1) →
    exec (.normDeadline c) s = .next (s.failNorm r stTimeout)

/-- STEP (R182, R184 to R197): once its tensors are free, its checks hold and every set of maxima is complete, it sends what other owners
need of its factored statistics, and runs the microprogram over its shard when it lacks none of theirs; a NORM with flags rejects, skips or
allows the update by FLAG_POLICY. STATS keeps partial sums and row statistics of other owners.
The choices of the model in it: assumptions 30, 68, 73, 74 and 82. -/
def Obligations.Steps : Prop :=
  (∀ (s : State) (c : Ref) (x : Ctx) (i : Instr) (fault : Option (Nat × Upset)) (n : NormRes), s.clocked = true → s.ctx c = some x →
    x.opcode = 0x09 → (i = .step c fault ∧ x.phase = .free ∧ s.shardBusy x = false ∨ i = .stepStart c fault ∧ x.phase = .run) →
    let j := s.ringJob x.ring
    let b := s.job j
    let gen := x.p 48 48
    let todo := b.toStep (x.p 0 24) (x.p 24 24) gen
    let u := if x.phase == .run then s else s.modCtx x.ref (Ctx.start s.now)
    let crossing := todo.filter (fun e => (b.keeps e.2).2.2 && decide (1 < bget T.owners e.2))
    let v := u.each crossing (State.sendStats x n)
    let w := v.each (crossing.filter (fun e => !v.needsStats j gen e)) (State.sendRows x n)
    (∀ st, s.stepCheck x = some st → exec i s = .next (s.rejectChecked x.ref j gen st (todo.flatMap (b.tableSectors j))))
    ∧ (s.stepCheck x = none → b.normFor gen (b.withShard (x.p 0 24) (x.p 24 24)) = some n →
      (s.stepReady j gen todo = false → exec i s = .next u)
      ∧ (n.flags &&& 0x1F ≠ 0 → x.p 192 2 = 2 → s.stepReady j gen todo = true →
        let k := stepScale (x.p 128 32) (x.p 160 32) (b.sgn J.lsExp) n.sum
        exec i s = .next (u.stepEnd x n stFlagged 0 k.1 k.2 (StepRun.start none)))
      ∧ (n.flags &&& 0x1F ≠ 0 → x.p 192 2 = 0 → s.stepReady j gen todo = true → exec i s = .next (u.stepRun x n fault))
      ∧ ((n.flags &&& 0x1F = 0 ∨ x.p 192 2 = 1) → s.stepReady j gen todo = true →
        (crossing.any (fun e => w.needsStats j gen e || w.needsRows j gen e) = true → exec i s = .next w)
        ∧ (crossing.any (fun e => w.needsStats j gen e || w.needsRows j gen e) = false → exec i s = .next (w.stepRun x n fault)))))
  ∧ ∀ (s : State) (port : Nat) (p : Packet), Arrives s p → isControl p 8 = true →
    let r := xpParse p.payload
    let x : StatsRec := ⟨pkgOf p, pget p Ph.tensor, pget p Ph.gen, pget p Ph.tseq == 1, r.stripe, r.slots⟩
    let other (y : StatsRec) : Bool :=
      !(y.src == x.src && y.tensor == x.tensor && y.gen == x.gen && y.cols == (pget p Ph.tseq == 1) && y.stripe == x.stripe)
    let k : BlockRec := ⟨pkgOf p, pget p Ph.tensor, pget p Ph.gen, nbits (numAt p.payload 0 7) 0 40, p.payload.drop 7⟩
    let apart (y : BlockRec) : Bool := !(y.src == k.src && y.tensor == k.tensor && y.gen == k.gen && y.first == k.first)
    (pget p Ph.tseq = 2 → exec (.stats port p) s =
        .next ((s.taken p).modJob (pget p Ph.job) (fun b => { b with rowRecs := b.rowRecs.filter apart ++ [k] })))
    ∧ (pget p Ph.tseq ≠ 2 → xpResOk r = true → exec (.stats port p) s =
        .next ((s.taken p).modJob (pget p Ph.job) (fun b => { b with stats := b.stats.filter other ++ [x] })))
    ∧ (pget p Ph.tseq ≠ 2 → xpResOk r = false → exec (.stats port p) s =
        .next ((s.taken p).partFault (pget p Ph.job) (pget p Ph.gen)))

/-- PUBLISH (R61, R78, R197, R201 to R207): it begins once no STEP or RESTORE runs on its shards, waits for a STEP that its tensors still
lack, and takes the maxima and straddling blocks of peers; one that has begun goes on once a slice of its weights has ended (R642).
The choices of the model in it: assumption 31. -/
def Obligations.Publishing : Prop :=
  (∀ (s : State) (c : Ref) (x : Ctx), Free s c 0x0A x →
    let l := (s.job (s.ringJob c.ring)).published x
    let bad := x.p 108 4 = 0xF ∨ (x.p 112 1 = 0 ∧ badTarget (x.p 108 4) = true) ∨ x.p 113 2 = 3
      ∨ l.any (fun e => badTarget (pubTarget x e.2)) = true
    (s.seedling = true → exec (.publish c) s = .next (s.rejectCmd c stSeedling))
    ∧ (s.seedling = false → bad → exec (.publish c) s = .next (s.rejectCmd c stBadFormat))
    ∧ (s.seedling = false → ¬bad → (s.shardBusy x = false ∨ l.any (fun e => stepBelow e.2 (x.p 48 48)) = true) →
        exec (.publish c) s = .next (s.pubBegin x)))
  ∧ (∀ (s : State) (c : Ref) (x : Ctx), s.clocked = true → s.ctx c = some x → x.phase = .run → x.opcode = 0x0A → x.begun = false →
    s.shardBusy x = false → exec (.publishStart c) s = .next (s.pubBegin x))
  ∧ (∀ (s : State) (c : Ref) (x : Ctx), s.clocked = true → s.ctx c = some x → x.phase = .run → x.opcode = 0x0A → x.begun = true →
    exec (.publishStart c) s = .next (s.pubGo x))
  ∧ ∀ (s : State) (port : Nat) (p : Packet), Arrives s p →
    let j := pget p Ph.job
    let m : PubMaxRec := ⟨pkgOf p, pget p Ph.tensor, pget p Ph.gen, BitVec.ofNat 32 (numAt p.payload 0 4)⟩
    (isControl p 6 = true → exec (.pubMax port p) s = .next (((s.taken p).modJob j (fun b => { b with
      pubMax := b.pubMax.filter (fun y => !(y.src == m.src && y.tensor == m.tensor && y.gen == m.gen)) ++ [m] })).pubAll j))
    ∧ (isControl p 7 = true →
      let h := numAt p.payload 0 7
      let k : BlockRec := ⟨pkgOf p, pget p Ph.tensor, pget p Ph.gen, nbits h 0 40, bytesAt p.payload 7 (2 * nbits h 40 9)⟩
      (∀ r, ((s.taken p).job j).record (pget p Ph.tensor) = some r →
        bflag T.scaleOnly r = false → bget T.shardBase r ≤ k.first / 32 * 32 → k.first / 32 * 32 < bget T.shardBase r + bget T.shardLen r →
        exec (.block port p) s = .next (((s.taken p).modJob j (fun b => { b with
          blocks := b.blocks.filter (fun y => !(y.src == k.src && y.tensor == k.tensor && y.gen == k.gen && y.first == k.first)) ++ [k] })).pubAll j))
      ∧ (((s.taken p).job j).record (pget p Ph.tensor) = none → exec (.block port p) s = .next (s.taken p)))

/-- PARK and FETCH (R61, R78, R209 to R214): formats and mode are checked, pages are charged and a handle made, and a PARK of no bytes is done
at once; bytes of the source fill a handle; a fetch sends its elements and reports the bytes of an unconverted one (R438), and one with
RELEASE waits for a program that reads its handle. Both wait for a slice (R642).
The choices of the model in it: assumptions 20, 31, 75 and 83. -/
def Obligations.ColdFrames : Prop :=
  (∀ (s : State) (c : Ref) (x : Ctx) (n k : Nat), Free s c 0x0B x → s.seedling = false →
    let j := s.ringJob c.ring
    let b := s.job j
    let bad := x.p 95 4 = 0xF ∨ x.p 99 4 = 0xF ∨ x.p 103 2 = 3
    (bad → exec (.park c) s = .next (s.rejectCmd c stBadFormat))
    ∧ (¬bad → (b.handle (x.p 0 32)).isSome = true → exec (.park c) s = .next (s.rejectCmd c stHandleInUse))
    ∧ (¬bad → b.handle (x.p 0 32) = none → s.sliced ((List.range (parkStored x).2).map (Config.sectorOf 6 j (x.p 0 32))) = true →
      exec (.park c) s = .next s)
    ∧ (¬bad → b.handle (x.p 0 32) = none → s.sliced ((List.range (parkStored x).2).map (Config.sectorOf 6 j (x.p 0 32))) = false →
      (s.parkPages b (max (parkBytes x) (x.p 32 40)) = some (n, k) →
        let h : Handle := ⟨x.p 0 32, c.ring, c.idx, x.p 72 23, (parkStored x).1, 0, x.p 32 40, n, k, [], 0, false, false⟩
        let b' := (b.put J.coldUsed (b.get J.coldUsed + n)).put J.storeUsed (b.get J.storeUsed + k)
        let t := (s.setJob j { b' with handles := b.handles ++ [h] }).modCtx c (Ctx.start s.now)
        exec (.park c) s = .next (if x.p 32 40 = 0 then t.parkDone x h else t))
      ∧ (s.parkPages b (max (parkBytes x) (x.p 32 40)) = none → exec (.park c) s = .next (s.rejectCmd c stColdFull))))
  ∧ (∀ (s : State) (port : Nat) (p : Packet) (h : Handle) (x : Ctx), Arrives s p → isData p dsPark = true →
    let j := pget p Ph.job
    let off := pget p Ph.byteOffset
    let n := p.payload.length
    ((s.taken p).job j).handles.find? (fun h => !h.done && h.source == pget p Ph.src && decide (off + n ≤ h.bytes)) = some h →
    let h' : Handle := { h with data := (List.range n).foldl (fun t i => tset 0 t (off + i) (p.payload.getD i 0)) h.data, got := h.got + n }
    let t := (s.taken p).modJob j (fun b => b.setHandle h')
    t.ctx ⟨h.ring, h.idx⟩ = some x →
    exec (.parkData port p) s = .next (if h.bytes ≤ h.got + n then t.parkDone x h' else t))
  ∧ ∀ (s : State) (c : Ref) (x : Ctx), Free s c 0x0C x → s.seedling = false →
    let j := s.ringJob c.ring
    let a := x.p 32 40
    let bad := x.p 135 4 = 0xF ∨ x.p 139 2 = 3
    let held := x.p 143 1 = 1 ∧ s.handleInRun j (x.p 0 32) = true
    (bad → exec (.fetch c) s = .next (s.rejectCmd c stBadFormat))
    ∧ (¬bad → held → exec (.fetch c) s = .next s)
    ∧ (¬bad → ¬held → s.handleThere j (x.p 0 32) = none → exec (.fetch c) s = .next (s.rejectCmd c stNoHandle))
    ∧ (¬bad → ¬held → ∀ h, s.handleThere j (x.p 0 32) = some h →
      let n := if x.p 72 40 = 0 then h.elems - a else x.p 72 40
      let t := s.modCtx c (fun y => { y.start s.now with park := some h.handle })
      let sectors := (rangeFrom a n).map (Config.sectorOf 6 j h.handle)
      let bits := h.bits a n
      ((h.elems ≤ a ∨ h.elems < a + n) → exec (.fetch c) s = .next (s.rejectCmd c stBadField))
      ∧ (a < h.elems → a + n ≤ h.elems → s.sliced sectors = true → exec (.fetch c) s = .next s)
      ∧ (a < h.elems → a + n ≤ h.elems → s.sliced sectors = false →
        ((rangeFrom a n).any (fun i => t.lostElem 6 j h.handle i) = true → exec (.fetch c) s =
          .next ((t.logHbm 3 j (x.p 168 48) sectors).endCmd c stDataLost))
        ∧ ((rangeFrom a n).any (fun i => t.lostElem 6 j h.handle i) = false → x.p 142 1 = 0 →
          exec (.fetch c) s = .next ((t.each (dataPieces 0 bits) (fun s y =>
            s.sendUnit (s.mkPacket ptData 0 0 (x.p 112 23) 0 j 0 0 (dataFields y.1 noMember dsFetch) 2 y.2) (unitOf h.fmt).2)).modCtx c
            (fun y => { y.finish stOk with
              result := BitVec.ofNat 96 bits.length, report := smallReport bits.length ⟨0, 0, 0, 0⟩ maxrecNone 0 noMember })))))

/-- CHECKPOINT and RESTORE (R215 to R222, R401, R706): the image is written once no reduction admitted before it runs, and an image that has
been read is loaded; one of no bytes is checked at once, and host memory is read and written over a Taproot link that is up.
The choices of the model in it: assumptions 31, 76 and 81. -/
def Obligations.Images : Prop :=
  (∀ (s : State) (c : Ref) (x : Ctx), Free s c 0x0D x → s.seedling = false → x.p 48 2 ≠ 3 → s.shardBusy x = false →
    let j := s.ringJob c.ring
    let t := (s.modCtx c (fun y => { y.start s.now with begun := true })).modJob j (fun b => { b with checkpoint := b.checkpoint + 1 })
    let cut := (t.each (t.ops.filter (fun o => o.live && o.job == j && o.isRed)) (fun s o => s.abortOwn o stCancelled)).each
      (t.held.filter (fun h => h.job == j)) State.dropHeld
    (x.p 50 1 = 0 → exec (.checkpoint c) s = .next (t.checkpointGo x t.now))
    ∧ (x.p 50 1 = 1 → exec (.checkpoint c) s = .next (cut.checkpointGo x cut.now)))
  ∧ (∀ (s : State) (c : Ref) (x : Ctx), s.clocked = true → s.ctx c = some x → x.phase = .run → x.opcode = 0x0D →
    exec (.checkpointStart c) s = .next (s.checkpointGo x x.startTick)
    ∧ (x.p 51 1 = 0 → s.linkUp (s.ringCard x.ring) = false → exec (.checkpointStart c) s = .next s))
  ∧ (∀ (s : State) (c : Ref) (x : Ctx) (img : Option Bytes), Free s c 0x0E x → s.seedling = false → x.p 48 2 ≠ 3 → s.shardBusy x = false →
    let t := s.modCtx c (Ctx.start s.now)
    let k := s.ringCard c.ring
    (x.p 51 1 = 0 → s.linkUp k = false → exec (.restore c img) s = .next s)
    ∧ (x.p 51 1 = 0 → s.linkUp k = true →
      (∀ b, exec (.restore c (some b)) s = .next ((t.hostRead k (x.p 52 64) (x.p 139 40)).restoreGo x b))
      ∧ exec (.restore c none) s = .next
        (((t.hostRead k (x.p 52 64) (x.p 139 40)).hostReadErr k c.ring (some (s.ringJob c.ring))).endCmd c stHostFault))
    ∧ (x.p 51 1 = 1 → x.p 139 40 = 0 → exec (.restore c img) s = .next (t.restoreGo x []))
    ∧ (x.p 51 1 = 1 → x.p 139 40 ≠ 0 → exec (.restore c img) s = .next
      { t with restores := s.restores ++ [⟨c.ring, c.idx, s.ringJob c.ring, x.p 116 23, x.p 52 64 % 2 ^ 40, x.p 139 40, [], 0⟩] }))
  ∧ ∀ (s : State) (port : Nat) (p : Packet) (r : RestoreRun) (x : Ctx), Arrives s p → isData p dsImage = true →
    let off := pget p Ph.byteOffset
    let n := p.payload.length
    (s.taken p).restores.find? (fun r => r.job == pget p Ph.job && r.coord == pget p Ph.src && decide (r.base ≤ off ∧ off + n ≤ r.base + r.len))
      = some r →
    ({ s.taken p with restores := (s.taken p).restores.erase r } : State).ctx ⟨r.ring, r.idx⟩ = some x →
    let data := (List.range n).foldl (fun t i => tset 0 t (off - r.base + i) (p.payload.getD i 0)) r.data
    (r.len ≤ r.got + n → exec (.imageData port p) s =
      .next (({ s.taken p with restores := (s.taken p).restores.erase r } : State).restoreGo x ((List.range r.len).map (tget 0 data))))
    ∧ (r.got + n < r.len → exec (.imageData port p) s = .next { s.taken p with
        restores := (s.taken p).restores.map (fun y => if y = r then { r with data := data, got := r.got + n } else y) })

/-- SIEVE_RUN (R285, R323 to R330, R353, R401): a request that keeps its checks is queued, starts when it is first and its resources are there,
and ends at its deadline; a deterministic one whose package has come below 128 active beds ends with TILES_SHORT. A library program ends by
its HALT, with its outputs written, or by the upset that the HALT brings.
The choices of the model in it: assumption 36. -/
def Obligations.Programs : Prop :=
  (∀ (s : State) (c : Ref) (x : Ctx), Free s c 0x0F x →
    let u := s.hostRead (s.ringCard c.ring) (x.p 0 64) (64 * x.p 128 5)
    (∀ b, s.linkUp (s.ringCard c.ring) = false → exec (.sieveRun c b) s = .next s)
    ∧ (s.linkUp (s.ringCard c.ring) = true →
      exec (.sieveRun c none) s = .next ((u.hostReadErr (s.ringCard c.ring) c.ring (some (u.ringJob c.ring))).sieveReject x stHostFault)
      ∧ ∀ b : Bytes,
        let k := bytesAt b 0 (64 * x.p 128 5)
        (u.sieveCheck x k = none → exec (.sieveRun c (some b)) s = .next
          (({ u with sieves := u.sieves ++ [⟨c.ring, c.idx, k, if x.stripes = 0 then some x.freeTick else none, []⟩] } : State).modCtx c
            (fun y => { y with phase := .queued })))
        ∧ ∀ st, u.sieveCheck x k = some st → exec (.sieveRun c (some b)) s = .next (u.sieveReject x st)))
  ∧ (∀ (s : State) (c : Ref) (x : Ctx) (r : SieveReq) (text : Option Bytes) (bufs : List Bytes), s.clocked = true →
    s.ctx c = some x → s.sieveOf c = some r → x.phase = .queued → s.vy = none → s.firstSieve x r = true →
    (x.p 137 1 = 0 → s.bedsActive.length < 128 → exec (.programStart c text bufs) s = .next (s.tilesShort x r))
    ∧ ((x.p 137 1 = 1 ∨ x.p 137 1 = 0 ∧ 128 ≤ s.bedsActive.length ∧ 128 ≤ s.bedsIn.length) → s.linkUp (s.ringCard c.ring) = true →
      s.sieveBlocked x (pbBufs r.block) = false → exec (.programStart c text bufs) s = .next (s.startProg x r text bufs)))
  ∧ (∀ (s : State) (p : VyProg) (d : Nat), s.clocked = true → s.vy = some p → p.deadline = some d → d ≤ s.now → p.countAll isHalt ≠ p.total →
    exec (.programDeadline ⟨p.ring, p.idx⟩) s = .next (s.vyEnd p stTimeout none 0))
  ∧ ∀ (s : State) (p : VyProg) (o : VOp), s.clocked = true → s.vy = some p → p.lib ≠ 0 → o.tile < p.ntiles → o.tid < p.threads →
    (s.linkUp (s.ringCard p.ring) = true ∨ p.bufs.any (fun b => b.kind == 0 && b.writable) = false) →
    (o.upset ≠ .clean → exec (.halt o) s = .next (s.vyUpset p o.tile o.upset))
    ∧ (o.upset = .clean → s.libraryLost p = none → exec (.halt o) s = .next (s.runLibrary p))

/-! ## Jobs and layouts -/

/-- Jobs (R446 to R450, R632, R638): the owner of a job enables one whose events are free, in a part that is in service, and disables it, and the end of its commands frees it.
LAYOUT_COMMIT (R451 to R453): a staged layout that keeps its rules becomes that of the job; any other is refused with its CAUSE.
The choices of the model in it: assumptions 38 and 39. -/
def Obligations.JobsAndLayouts : Prop :=
  ((∀ (s : State) (m : Master) (j : Nat), s.clocked = true → j < 4096 → s.owns m j = true →
    let b := s.job j
    (s.serves = false → exec (.jobEnable m j) s = .next s)
    ∧ (s.serves = true → b.get J.state = jobFree ∨ b.get J.state = jobRefused →
      (b.get J.eventBase + b.get J.eventCount ≤ eventTotal → s.eventsTaken j (b.get J.eventBase) (b.get J.eventCount) = false →
        exec (.jobEnable m j) s = .next (s.activate j))
      ∧ (eventTotal < b.get J.eventBase + b.get J.eventCount → exec (.jobEnable m j) s =
          .next (s.modJob j (fun b => ((b.put J.enable 1).put J.state jobRefused).put J.refuse 1))))
    ∧ (b.get J.state = jobActive → exec (.jobDisable m j) s = .next (s.endJob j))
    ∧ (b.get J.state = jobRefused → exec (.jobDisable m j) s =
        .next (s.modJob j (fun b => ((b.put J.enable 0).put J.state jobFree).put J.refuse 0)))
    ∧ (s.serves = true → b.get J.state = jobEnding → exec (.jobEnable m j) s = .next (s.modJob j (fun b => (b.put J.enable 1).put J.refuse 3))))
  ∧ ∀ (s : State) (j : Nat), s.clocked = true → (s.job j).get J.state = jobEnding → s.jobCtxs j = [] →
    exec (.jobEndComplete j) s = .next (s.modJob j (fun b => b.put J.state (if (s.job j).get J.refuse = 3 then jobRefused else jobFree))))
  ∧ (∀ (s : State) (m : Master) (value : Word32), s.clocked = true →
    let j := s.fget Reg.layoutSel F.layoutSel_jobId
    let k := s.fget Reg.layoutSel F.layoutSel_layout
    let n := value.toNat % 2 ^ 10
    (s.commitCheck m j k n = none → exec (.layoutCommit m value) s = .next
      (((s.modJob j (fun b => { b.put ⟨J.layoutValid.lo + k, 1⟩ 1 with layouts := tset [] b.layouts k ((List.range n).map s.stagedRun) })).fset
        Reg.layoutStatus F.layoutStatus_cause 0).layoutShow))
    ∧ (∀ c, s.commitCheck m j k n = some c → c ≠ 4 → exec (.layoutCommit m value) s =
        .next ((s.fset Reg.layoutStatus F.layoutStatus_refused 1).fset Reg.layoutStatus F.layoutStatus_cause c))
    ∧ (s.owns m j = false → exec (.layoutCommit m value) s =
        .next (((s.fset Reg.layoutStatus F.layoutStatus_refused 1).fset Reg.layoutStatus F.layoutStatus_cause 4).notOwner m)))

/-! ## Reset, power, clocks and time -/

/-- Resets (R362, R401, R402, R410, R688, R689): POR_N low and PART_RESET bring every register to its reset value but for what fuses, the
always-on region and the PCIe fields of TAP_STATUS keep; in a pair PART_RESET acts on the package of the card that it came through, and
through the other card it goes to the other package. POR_N rises once the rails are good, with the reference present.
The choices of the model in it: assumption 55. -/
def Obligations.Resets : Prop :=
  (∀ s : State, let t := s.resetTo
    exec .porAssert s = .next (({ t with pwr := { t.pwr with porLow := true } } : State).tapDown
      (s.flag (s.ownTap Reg.tapStatus) F.tapStatus_linkUp)))
  ∧ (∀ s : State, s.pwr.porLow = true → s.pwr.standby = true →
    exec (.porRelease true) s = .next ({ s with pwr := { s.pwr with porLow := false, dead := [] } } : State).refOk ∧ exec (.porRelease false) s = .next s)
  ∧ (∀ (s : State) (m : Master) (value : Word32), s.clocked = true → bget F.partReset_value value = 0x5EED →
    let tap := s.rget (s.ownTap Reg.tapStatus)
    ((s.grafted = false ∨ masterCard m = s.pkgNo) → exec (.partReset m value) s = .next
      ((s.resetTo.rset Reg.tapStatus tap).tapDown (bflag F.tapStatus_linkUp tap)).refOk)
    ∧ (s.grafted = true → masterCard m ≠ s.pkgNo → exec (.partReset m value) s = .next
        (s.emit (.forward Reg.partReset (value.setWidth 64)))))
  ∧ (∀ (s : State) (m : Master) (value : Word32), bget F.partReset_value value ≠ 0x5EED → exec (.partReset m value) s = .next s)
  ∧ (∀ s : State, let u := ({ s with aon := ⟨[], 0, 0, 0, none⟩, pwr := { s.pwr with thermtrip := false, standby := false } } : State).resetTo
    exec .standbyPowerLoss s = .next { u with pwr := { u.pwr with porLow := true } })
  ∧ ∀ s : State, exec .standbyPowerApplied s = .next { s with pwr := { s.pwr with standby := true } }

/-- What stops the package (R363, R609, R686): a clock failure; a thermal trip of a sensor, which needs neither firmware nor clock; and a
rail that falls below 90 %, also while Shed runs on its own oscillator. With POR_N low and no rail left the power is removed, and a trip is cleared.
The choices of the model in it: assumption 8. -/
def Obligations.Stops : Prop :=
  (∀ s : State, s.clocked = true →
    let t := (((s.stopAll .clock).fset Reg.clkStatus F.clkStatus_clockFail 1).fset Reg.clkStatus F.clkStatus_clocksRun 0).fset
      Reg.clkStatus F.clkStatus_rootLock 0
    exec (.clockFailure 0) s = .next ((t.fset Reg.clkStatus F.clkStatus_refOk 0).logEvent 0x01 1 3 0 (logDetail none none 0 0) none)
    ∧ exec (.clockFailure 1) s = .next (t.logEvent 0x01 1 3 0 (logDetail none none 0 0) none))
  ∧ (∀ (s : State) (sensor : Nat),
    let t : State := { s.stopAll .trip with pwr := { (s.stopAll .trip).pwr with thermtrip := true } }
    (s.pwr.thermtrip = false → sensor < 68 → exec (.thermalTrip sensor) s = .next (t.logEvent 0x02 4 3 sensor 0 none))
    ∧ (s.pwr.thermtrip = false → 72 ≤ sensor → sensor < 96 → exec (.thermalTrip sensor) s = .next
        (t.logEvent 0x02 4 3 (unitStack (sensor - 72)) 0 (some (unitStack (sensor - 72)))))
    ∧ (s.pwr.thermtrip = true → exec (.thermalTrip sensor) s = .next s))
  ∧ ∀ (s : State) (rail mv : Nat), rail < 9 →
    let rest := s.pwr.dead.filter (fun r => r != rail)
    (s.pwr.porLow = true → rest.length = 8 → exec (.railCollapse rail 0) s =
        .next { s with pwr := { s.pwr with dead := rail :: rest, thermtrip := false, stopped := .no } })
    ∧ (s.shedUp = true → 0 < mv → 10 * mv < 9 * railNominal.getD rail 0 →
      exec (.railCollapse rail mv) s = .next ((s.stopAll .rail).logEvent 0x02 5 3 rail mv none))
    ∧ (s.shedUp = true → exec (.railCollapse rail 0) s =
        .next ((({ s with pwr := { s.pwr with dead := rail :: rest } } : State).stopAll .rail).logEvent 0x02 5 3 rail 0 none))
    ∧ (s.shedUp = true → 9 * railNominal.getD rail 0 ≤ 10 * mv → exec (.railCollapse rail mv) s = .next s)

/-- Bring-up (R362, R409, R410, R461, R624, R635): the root PLL locks, the boot ROM starts an image or recovery, the wipe ends, and the
host ends its set-up. From then on TICK runs all that the part does in a tick, and a waiting step of the counter ends (R365, R374).
The choices of the model in it: assumptions 4 and 5. -/
def Obligations.BringUp : Prop :=
  (∀ s : State, s.clocked = true → exec .tick s = .next s.tick)
  ∧ (∀ s : State, s.clocked = true → s.time.stepWant.isSome = true → s.role = 2 → s.timeState = tsAcquire → s.quiet = true →
    s.host.relNow = false → ∃ t, exec .counterStep s = .next t ∧ t.time.stepWant = none ∧ t.time.stepNow = true)
  ∧   (∀ s : State, s.up = true → s.pwr.locked = false → exec .rootPllLock s = .next
    ((((({ s with pwr := { s.pwr with locked := true } } : State).fset Reg.clkStatus F.clkStatus_refOk 1).fset
      Reg.clkStatus F.clkStatus_rootLock 1).fset Reg.clkStatus F.clkStatus_clocksRun 1).rset Reg.gcValue 0))
  ∧ (∀ s : State, s.clocked = true → s.bootState = bsRom →
    let u : State := { s with aon := { s.aon with bootCount := s.aon.bootCount + 1 } }
    (u.imageValid = true → exec .firmwareBoot s = .next (u.startImage.toBoot bsRunning).bootRepairs.tryStoreReady)
    ∧ (u.imageValid = false → exec .firmwareBoot s = .next (({ u with pwr := { u.pwr with recovery := true } } : State).toBoot bsRecovery)))
  ∧ (∀ s : State, s.clocked = true → s.pwr.wiped = false → exec .wipeComplete s = .next
    ((({ s with pwr := { s.pwr with wiped := true } } : State).fset Reg.storeStatus F.storeStatus_wipeDone 1).tryStoreReady))
  ∧ (∀ s : State, s.clocked = true → s.seedling = true → s.flag Reg.service F.service_initDone = true →
    s.flag Reg.service F.service_storeReady = true → (List.range 128).all s.portFull = true →
    exec .seedlingExit s = .next (s.fset Reg.service F.service_seedling 0))
  ∧ (∀ (s : State) (m : Master), s.clocked = true → s.flag Reg.service F.service_initDone = false →
    exec (.initDone m) s = .next (s.fset Reg.service F.service_initDone 1).closeGate)
  ∧ ∀ (s : State) (m : Master), s.clocked = true →
    (s.fget Reg.lifecycleReg F.lifecycleReg_state ≠ 0 → exec (.expertGateClose m) s = .next
      (({ s with shed := { s.shed with grantEnd := none } } : State).fset Reg.expertGate F.expertGate_open 0))
    ∧ (s.fget Reg.lifecycleReg F.lifecycleReg_state = 0 → exec (.expertGateClose m) s = .next s)

/-- The global counter (R364 to R368, R374, R390, R705): a write of GC_LOAD by the owner of TIME loads it where nothing waits on time,
in the tick after the one in which a wait has been met; a write of TIME_CTRL sets the role; a follower in ACQUIRE steps it by its sample;
and a tick adds 1 to it. Time exchanges (R370 to R375, R378, R498): a follower asks once 2^14 ticks have passed, a part answers with its
stamps, and an answer gives a sample.
The choices of the model in it: assumptions 5, 53, 65 and 80. -/
def Obligations.CounterAndTime : Prop :=
  (∀ (s : State) (m : Master) (half : Half) (value : Word64), s.clocked = true → s.owns m s.resTimeOwn = true →
    let v := s.loadValue half value
    (s.role ≠ 2 → s.quiet = true → s.host.relNow = false →
      exec (.gcLoad m ⟨half, value⟩) s = .next (((s.holdReleases.rset Reg.gcLoad v).rset Reg.gcValue v).stepped))
    ∧ (s.role ≠ 2 → s.quiet = true → s.host.relNow = true →
      exec (.gcLoad m ⟨half, value⟩) s = .next { s with time := { s.time with load := some v } })
    ∧ ((s.role = 2 ∨ s.quiet = false) →
      exec (.gcLoad m ⟨half, value⟩) s = .next (s.fset Reg.timeEvents F.timeEvents_loadRefused 1)))
  ∧ (∀ (s : State) (value : Word64), s.loadValue .both value = value
    ∧ s.loadValue .tail value = (s.rget Reg.gcLoad &&& 0xFFFFFFFF00000000) ||| (value &&& 0xFFFFFFFF)
    ∧ s.loadValue .head value = (s.rget Reg.gcLoad &&& 0xFFFFFFFF) ||| (value <<< 32))
  ∧ (∀ (s : State) (m : Master) (value : Word32), s.clocked = true → s.owns m s.resTimeOwn = true →
    let t := s.fset Reg.timeCtrl F.timeCtrl_holdStep (bget F.timeCtrl_holdStep value)
    (s.flag Reg.partId F.partId_grafted = true → s.pkgNo = 1 → exec (.timeCtrl m value) s = .next t)
    ∧ ((s.flag Reg.partId F.partId_grafted = false ∨ s.pkgNo = 0) → exec (.timeCtrl m value) s = .next
        ((((t.fset Reg.timeCtrl F.timeCtrl_role (bget F.timeCtrl_role value)).fset Reg.timeCtrl F.timeCtrl_upport
          (bget F.timeCtrl_upport value)).fset Reg.timeCtrl F.timeCtrl_upGraft (bget F.timeCtrl_upGraft value)).newRole s.role).checkUpstream))
  ∧ (∀ (s : State) (o : Int), s.clocked = true → s.time.stepWant = some o → s.role = 2 → s.timeState = tsAcquire → s.quiet = true →
    let e := eighthsOf (2 * o)
    let n : Int := (8 * s.now + s.time.sub : Nat) + e
    let u := s.rset Reg.gcValue (BitVec.ofNat 64 (toTwos 64 (n / 8)))
    let a : TimeSt := { u.time with
      sub := (n % 8).toNat, applied := u.time.applied + e, stepWant := none, slewLeft := 0, samples := [], delays := [], good := 0 }
    (s.host.relNow = false →
      exec .counterStep s = .next ((({ u with time := a } : State).fset Reg.timeStatus F.timeStatus_stepWait 0).stepped))
    ∧ (s.host.relNow = true → exec .counterStep s = .next s))
  ∧ (∀ s : State, s.clocked = true →
    let u := s.deadlines.applyClaims.svTick.vyTick.stampEligible
    let w : State := { u with host := { u.host with tickSignals := [], tickSets := [], relNow := false } }
    let x := w.rset Reg.gcValue (w.rget Reg.gcValue + 1)
    exec .tick s = .next
      x.flipAt.refill.qosTick.rollTelem.sampleDepths.pulse.slew.ageBuffers.shedTick.checkTick.scrubTick.countLines.takeLoad)
  ∧ (∀ s : State, s.clocked = true → s.role = 2 →
    let t := if s.time.answered then s else s.missedReply
    let u : State := { t with time := { t.time with exchange := none, answered := false, exchWait := 2 ^ 14, gap := t.time.gap + 1 } }
    (s.time.exchWait = 0 →
      (∀ l, u.upLinks.find? u.linkOpen = some l → exec .timeExchange s = .next (u.queueTime l .request))
      ∧ (u.upLinks.find? u.linkOpen = none → exec .timeExchange s = .next u))
    ∧ (s.time.exchWait ≠ 0 → exec .timeExchange s = .next s))
  ∧ (∀ (s : State) (port : Nat) (flit : Bytes), s.clocked = true → port < 132 → s.linkOpen port = true → timeField flit 0 1 = 0 →
    exec (.timeRequest port flit) s = .next (s.queueTime port
      (.reply (!(s.role == 1 || s.timeState == tsLocked)) s.hops s.bound (timeField flit 23 67) s.stamp)).bump)
  ∧ ∀ (s : State) (port t1 : Nat) (flit : Bytes), s.clocked = true → s.time.exchange = some t1 → s.role = 2 → s.upLinks.contains port = true →
    s.time.answered = false → timeField flit 0 1 = 1 → timeField flit 23 67 = t1 % 2 ^ 67 →
    ((timeField flit 1 1 = 1 ∨ timeField flit 2 5 = 31) → exec (.timeReply port flit) s =
        .next (s.fset Reg.timeEvents F.timeEvents_upNotReady 1))
    ∧ (timeField flit 1 1 = 0 → timeField flit 2 5 ≠ 31 →
      let asym : Int := bsgn F.timeAsym_value (s.rget (Reg.timeAsym (s.fget Reg.timeCtrl F.timeCtrl_upport)))
      let t2 : Int := timeField flit 90 67
      let t3 : Int := timeField flit 157 67
      let t4 : Int := s.stamp
      let u := ({ s.bump with time := { s.time with answered := true, missed := 0 } } : State).takeSample
        ((t2 - t1) - (t4 - t3) - asym) ((t4 - t1) - (t3 - t2))
      (u.timeState = tsLocked → exec (.timeReply port flit) s = .next (u.showHops (timeField flit 2 5) (timeField flit 7 16)))
      ∧ (u.timeState ≠ tsLocked → exec (.timeReply port flit) s = .next u))

/-! ## Pins, mirrors and telemetry -/

/-- TICK_OUT, the debug clock, mirror sessions and telemetry (R396, R554 to R561, R565, R620 to R622): a write that enables takes
the entries of the resource-owner table that it needs where it can, and is HELD where it cannot; one that disables gives them back.
A congestion map goes out with a buffer of its pool, or waits for one, and a free buffer serves what has waited (R551).
The choices of the model in it: assumptions 43 and 47. -/
def Obligations.Resources : Prop :=
  (∀ (s : State) (m : Master) (value : Word32), s.clocked = true → s.owns m s.resTimeOwn = true →
    let t := (s.fset Reg.tickOutCtrl F.tickOutCtrl_period (bget F.tickOutCtrl_period value)).fset Reg.tickOutCtrl F.tickOutCtrl_held 0
    let off := t.fset Reg.tickOutCtrl F.tickOutCtrl_enable 0
    (bflag F.tickOutCtrl_enable value = true → t.resCanTake rePin ruTickOut = true → exec (.tickOutEnable m value) s =
      .next ((t.resGrab rePin ruTickOut).fset Reg.tickOutCtrl F.tickOutCtrl_enable 1))
    ∧ (bflag F.tickOutCtrl_enable value = true → t.resCanTake rePin ruTickOut = false → exec (.tickOutEnable m value) s =
      .next (off.fset Reg.tickOutCtrl F.tickOutCtrl_held 1))
    ∧ (bflag F.tickOutCtrl_enable value = false → exec (.tickOutEnable m value) s =
      .next (if off.resUser rePin = ruTickOut then off.resFree rePin else off)))
  ∧ (∀ (s : State) (m : Master) (value : Word32), s.clocked = true →
    let t := ((s.logEvent 0x0C 6 0 0 (masterNum m) none).fset Reg.dbgClkCtrl F.dbgClkCtrl_sel (bget F.dbgClkCtrl_sel value)).fset
      Reg.dbgClkCtrl F.dbgClkCtrl_held 0
    let off := t.fset Reg.dbgClkCtrl F.dbgClkCtrl_enable 0
    (s.gateOpen = false → exec (.debugClockEnable m value) s = .next s.denied)
    ∧ (s.gateOpen = true → bflag F.dbgClkCtrl_enable value = true → t.resCanTake rePin ruDebug = true →
      exec (.debugClockEnable m value) s = .next ((t.resGrab rePin ruDebug).fset Reg.dbgClkCtrl F.dbgClkCtrl_enable 1))
    ∧ (s.gateOpen = true → bflag F.dbgClkCtrl_enable value = true → t.resCanTake rePin ruDebug = false →
      exec (.debugClockEnable m value) s = .next (off.fset Reg.dbgClkCtrl F.dbgClkCtrl_held 1))
    ∧ (s.gateOpen = true → bflag F.dbgClkCtrl_enable value = false →
      exec (.debugClockEnable m value) s = .next (if off.resUser rePin = ruDebug then off.resFree rePin else off)))
  ∧ (∀ (s : State) (m : Master) (n : Nat) (value : Word32), s.clocked = true → n < 8 → s.owns m resFabric = true →
    let t := s.mirrorFields n value
    let e := t.fget (Reg.mirCtrl n) F.mirCtrl_bank
    (s.flag (Reg.mirCtrl n) F.mirCtrl_enable = true → exec (.mirrorEnable m n value) s = .next t)
    ∧ (s.flag (Reg.mirCtrl n) F.mirCtrl_enable = false → t.resCanTake e (ruMirror n) = true → exec (.mirrorEnable m n value) s = .next
        ((((t.resGrab e (ruMirror n)).fset (Reg.mirCtrl n) F.mirCtrl_enable 1).fset (Reg.mirCtrl n) F.mirCtrl_held 0).mirrorAfresh n))
    ∧ (s.flag (Reg.mirCtrl n) F.mirCtrl_enable = false → t.resCanTake e (ruMirror n) = false →
      exec (.mirrorEnable m n value) s = .next (t.fset (Reg.mirCtrl n) F.mirCtrl_held 1))
    ∧ exec (.mirrorDisable m n value) s = .next ((t.mirrorOff n).fset (Reg.mirCtrl n) F.mirCtrl_held 0)
    ∧ (ptrDiff (s.fget (Reg.mirTail n) F.mirTail_value) value.toNat ≤ s.mirrorSize n →
      exec (.mirHead m n value) s = .next (s.fset (Reg.mirHead n) F.mirHead_value value.toNat))
    ∧ (s.mirrorSize n < ptrDiff (s.fget (Reg.mirTail n) F.mirTail_value) value.toNat → exec (.mirHead m n value) s = .next s))
  ∧ (∀ (s : State) (m : Master) (value : Word32), s.clocked = true → s.owns m resFabric = true →
    let t := ((s.fset Reg.telemCtrl F.telemCtrl_host (bget F.telemCtrl_host value)).fset Reg.telemCtrl F.telemCtrl_tlog2
      (bget F.telemCtrl_tlog2 value)).fset Reg.telemCtrl F.telemCtrl_held 0
    let free := t.resCanTake 0 ruTelemetry && t.resCanTake 1 ruTelemetry
    (bflag F.telemCtrl_enable value = false → exec (.telemetryEnable m value) s = .next t.telemOff)
    ∧ (bflag F.telemCtrl_enable value = true → s.flag Reg.telemCtrl F.telemCtrl_enable = true →
      exec (.telemetryEnable m value) s = .next t)
    ∧ (bflag F.telemCtrl_enable value = true → s.flag Reg.telemCtrl F.telemCtrl_enable = false → free = true →
      let u := ((t.resGrab 0 ruTelemetry).resGrab 1 ruTelemetry).fset Reg.telemCtrl F.telemCtrl_enable 1
      exec (.telemetryEnable m value) s = .next { u with xb := { u.xb with telem := { Telem.zero with start := u.now / 2 ^ 20 * 2 ^ 20 }, telemDone := [] } })
    ∧ (bflag F.telemCtrl_enable value = true → s.flag Reg.telemCtrl F.telemCtrl_enable = false → free = false →
      exec (.telemetryEnable m value) s = .next (t.fset Reg.telemCtrl F.telemCtrl_held 1)))
  ∧ (∀ (s : State) (t : Telem) (rest : List Telem), s.clocked = true → s.xb.telemDone = t :: rest →
    let u : State := { s with xb := { s.xb with telemDone := rest } }
    let empty := (List.range 4).all (fun d => s.poolFree d 4 == 0)
    (empty = false → exec .telemetryInterval s = .next (u.bump.sendMap (u.telemMap t) t.seq))
    ∧ (empty = true → exec .telemetryInterval s = .next (u.bump.poolQueue (s.diesFrom.headD 0) 4 (.map t.seq (u.telemMap t)))))
  ∧ ∀ (s : State) (die pool : Nat) (w : PoolWait), s.clocked = true → s.xb.poolWait.find? (fun w => w.die == die && w.pool == pool) = some w →
    let u : State := { s with xb := { s.xb with poolWait := s.xb.poolWait.erase w } }
    (s.poolFree die pool < w.use.need pool → exec (.poolWaitGrant die pool) s = .next s)
    ∧ (w.use.need pool ≤ s.poolFree die pool →
      (∀ seq map, w.use = .map seq map → exec (.poolWaitGrant die pool) s = .next (u.sendMap map seq))
      ∧ (∀ addr record, w.use = .record addr record → exec (.poolWaitGrant die pool) s = .next (u.emit (.hostWrite addr record)))
      ∧ (∀ p unit, w.use = .packet p unit → exec (.poolWaitGrant die pool) s =
          .next (if pool = 0 then u.enterOwn (stopOfDie die) p unit else u.takeBuffer p unit die pool)))

/-! ## Ports, flits and the Graft -/

/-- Ports under their owner (R466, R492 to R494, R499 to R501): enabling, disabling and retraining. An open link carries time exchanges
(R370, R371, R375) and flits (R470, R486, R489).
The choices of the model in it: assumption 50. -/
def Obligations.PortControl : Prop :=
  (∀ (s : State) (p : Nat) (flit : Bytes), s.clocked = true → p < 132 → s.linkOpen p = true →
    (s.role = 2 → s.time.exchWait = 0 → ∃ t, exec .timeExchange s = .next t ∧ t.time.exchWait = 2 ^ 14 ∧ t.time.answered = false)
    ∧ (timeField flit 0 1 = 0 → ∃ t, exec (.timeRequest p flit) s = .next t ∧ (t.link p).timeOut ≠ [])
    ∧ (∀ t1, s.time.exchange = some t1 → s.role = 2 → s.upLinks.contains p = true → s.time.answered = false → timeField flit 0 1 = 1 →
      timeField flit 23 67 = t1 % 2 ^ 67 → timeField flit 1 1 = 0 → timeField flit 2 5 ≠ 31 →
      ∃ t, exec (.timeReply p flit) s = .next t ∧ t.time.answered = true ∧ t.time.missed = 0)
    ∧ ((s.link p).ackTick + 190 ≤ s.now → ∃ t, exec (.ackTimer p) s = .next t ∧ (t.link p).ackDue = true)
    ∧ (s.exchanges p = true → exec (.flitSlot p) s = .next (s.flitSlot p)
      ∧ ∀ lane fec, let u := (s.countFec p fec).arrived p lane fec.cut flit
        exec (.cellFlit ⟨p, lane⟩ fec flit) s = .next (u.takeSlots p (u.link p).rxWait.length)))
  ∧ ∀ (s : State) (m : Master) (p : Nat), s.clocked = true → p < 128 → s.owns m s.portsOwn = true →
    (s.runnerOk = true → s.portOn p = false →
      let t := s.fset (Reg.portCtrl p) F.portCtrl_enable 1
      (t.enableRefusal p = none → exec (.portEnable m p) s = .next
        ((((t.setPoolFree (t.portDie p) 0 (t.poolFree (t.portDie p) 0 - t.reservedAll p)).setLink p
          { (s.link p).cleared with holdFull := false }).rset (Reg.portStatus p) 0).toStage p psDetect))
      ∧ ∀ c, t.enableRefusal p = some c → exec (.portEnable m p) s = .next
        (((t.rset (Reg.portStatus p) 0).pstat p F.portStatus_state psRefused).pstat p F.portStatus_cause c))
    ∧ (s.portOn p = false → exec (.portDisable m p) s = .next ((s.fset (Reg.portCtrl p) F.portCtrl_enable 0).rset (Reg.portStatus p) 0))
    ∧ (s.portOn p = true →
      let t := s.fset (Reg.portCtrl p) F.portCtrl_enable 0
      let u := (t.dropLink p).setLink p { ((t.dropLink p).link p).cleared with holdFull := false }
      let w := (u.idleLanes (u.portLanes p)).stageLanes (u.portLanes p) 0
      let d := t.portDie p
      let y := (w.rset (Reg.portStatus p) 0).setPoolFree d 0 (w.poolFree d 0 + w.reservedAll p)
      exec (.portDisable m p) s = .next (y.setLive (128 * y.pkgNo + p) false).checkUpstream)
    ∧ (s.portState p = psActive → exec (.portRetrain m p) s = .next (s.startRetrain p (s.fget (Reg.portStatus p) F.portStatus_rate)))
    ∧ (s.portState p = psActive → s.flag (Reg.portStatus p) F.portStatus_fullRateWait = false →
        exec (.farRetrain p) s = .next (s.startRetrain p (s.fget (Reg.portStatus p) F.portStatus_rate)))

/-- The stages of a port (R475 to R482): detection, training, lock and the CAP exchange, and their timeouts; and those of the package's
Taproot link, as link 132 (R400).
The choices of the model in it: assumptions 50 and 78. -/
def Obligations.PortStages : Prop :=
  (∀ (s : State) (l : List Nat) (k : List LaneTrained), s.clocked = true →
    (s.host.tapStage = psDetect → s.lanesThere tapLink = true → (List.range 16).all (fun i => laneFound l i == 1) = true →
      exec (.detectTest tapLink l) s = .next ((s.toTap psTrain).sendTraining tapLink 16))
    ∧ (s.host.tapStage = psTrain → s.lanesThere tapLink = true → exec (.trainComplete tapLink k) s =
        .next ((s.each k.zipIdx (fun s x => s.takeTaps tapLink x.2 x.1)).toTap psLock))
    ∧ (s.host.tapStage = psLock → s.lanesThere tapLink = true → trunkMarkersOk 16 0 l = true → exec (.lockComplete tapLink l) s =
        .next ((s.toTap psCap).setLink tapLink { s.link tapLink with cap := none, capOut := true }))
    ∧ (s.host.tapStage = psLock → s.lanesThere tapLink = true → trunkMarkersOk 16 0 l = false → exec (.lockComplete tapLink l) s =
        .next (s.toTap psDetect))
    ∧ (s.host.tapStage = psCap → exec (.capTimer tapLink) s = .next (s.setLink tapLink { s.link tapLink with capOut := true }))
    ∧ (∀ cap, s.host.tapStage = psCap → s.lanesThere tapLink = true →
      (capField cap 0 16 = 1 → capField cap 162 1 = 1 → exec (.capFlit tapLink cap) s = .next ((s.toTap psActive).setLink tapLink
        { Link.down with cap := some cap, credit := capCredit cap, enc := (s.link tapLink).enc }))
      ∧ (capField cap 0 16 = 1 → capField cap 162 1 = 0 →
        exec (.capFlit tapLink cap) s = .next (s.setLink tapLink { s.link tapLink with cap := some cap }))
      ∧ (capField cap 0 16 ≠ 1 → exec (.capFlit tapLink cap) s = .next ((s.setLink tapLink Link.down).toTap psDetect)))
    ∧ (psTrain ≤ s.host.tapStage → s.host.tapStage ≤ psCap → exec (.stageTimeout tapLink) s =
        .next ((s.setLink tapLink Link.down).toTap psDetect)))
  ∧ ∀ (s : State) (p : Nat), s.clocked = true → p < 128 →
    (∀ lanes, s.portState p = psDetect → (s.link p).squelch = false →
      let l := s.portLanes p
      let found := ((List.range l.length).map (fun i => (l.getD i 0, laneFound lanes i))).filter (fun x => !s.laneTested x.1)
      let faults (s : State) : List Nat := l.filter (fun x => decide (lfOpen ≤ s.fget (Reg.laneStatus x) F.laneStatus_fault))
      let t := s.each found (fun s x => s.testLane p true x)
      found.length = l.length → found.all (fun x => x.2 == 1) = true → l ≠ [] → (∀ x ∈ faults t, x ∈ faults s) →
      exec (.detectTest p lanes) s = .next (t.toTrain p l))
    ∧ (∀ lanes, psDetect < s.portState p → s.portState p ≤ psActive → (s.link p).squelch = false →
      exec (.detectTest p lanes) s = .next (s.retest p lanes))
    ∧ (s.portState p = psTrain → ∀ lanes,
      let l := (s.link p).lanes.zip lanes
      let t := s.each l (fun s x => s.laneTrained x.1 x.2)
      let u := if l.any (fun x => x.2.inverted) then t.fset (Reg.portEvents p) F.portEvents_polarityFixed 1 else t
      exec (.trainComplete p lanes) s = .next ((u.pstat p F.portStatus_state psLock).stageLanes (u.link p).lanes psLock))
    ∧ (s.portState p = psLock → ∀ markers,
      let l := s.portLanes p
      let held := (l.zip markers).filter (fun x => amHeld x.2 && !s.laneTested x.1)
      let why := lockCause (s.flag (Reg.portGroup p) F.portGroup_allowNarrow) l.length (held.map Prod.snd)
      (∀ c, why = some c → exec (.lockComplete p markers) s = .next (s.stageFail p c))
      ∧ (why = none →
        let t := s.each held (fun s x => s.fset (Reg.laneStatus x.1) F.laneStatus_logical (amLogical x.2))
        let u := if held.all (fun x => x.1 == l.getD (amLogical x.2) 512) then t else t.fset (Reg.portEvents p) F.portEvents_orderFixed 1
        let rx := (List.range 8).filter (fun k => held.any (fun x => amLogical x.2 == k))
        exec (.lockComplete p markers) s = .next (((u.setLink p { u.link p with rx := rx, cap := none, capOut := true }).pstat
          p F.portStatus_state psCap).stageLanes (held.map Prod.fst) psCap)))
    ∧ (s.portState p = psCap → exec (.capTimer p) s = .next (s.setLink p { s.link p with capOut := true }))
    ∧ (s.portState p = psCap → ∀ cap,
      let t := (s.setLink p { s.link p with cap := some cap }).setFar p cap
      (t.capWidth p cap = none → exec (.capFlit p cap) s = .next (t.stageFail p 9))
      ∧ (∀ k, t.capWidth p cap = some k → capField cap 162 1 = 1 → (t.link p).retrain = false →
        exec (.capFlit p cap) s = .next ((t.freshLink p cap).linkActive p k)))
    ∧ (psTrain ≤ s.portState p → s.portState p ≤ psCap → exec (.stageTimeout p) s = .next (s.stageFail p 5))
    ∧ ((s.link p).squelch = true → exec (.squelchEnd p) s = .next (s.setLink p { s.link p with squelch := false }))

/-- Retrains, losses and rates of a port, and the tests of all 656 lanes behind the expert gate (R27, R461, R494 to R502, R505).
The choices of the model in it: assumption 51. -/
def Obligations.PortRecovery : Prop :=
  ∀ (s : State) (p : Nat), s.clocked = true →
    (∀ b k, p < 128 → (s.link p).retrain = true → s.portState p = psCap → (s.link p).cap = some b → capField b 162 1 = 1 →
      s.capWidth p b = some k →
      let t := (s.setLink p ((s.link p).resume b)).linkActive p k
      let u := if t.fget (Reg.portStatus p) F.portStatus_rate = 2 then t.pstat p F.portStatus_fullRateWait 0 else t
      let w := u.each (s.link p).lanes (fun s x => s.addPoints (unitLane x) 16)
      let y := (w.fset (Reg.portEvents p) F.portEvents_retrained 1).fadd (Reg.portRetrains p) F.portRetrains_count 1
      exec (.retrainComplete p) s = .next (y.logLane 3 (w.firstLane p)))
    ∧ (p ≤ tapLink → s.linkLive p = true → exec (.linkLost p false) s = .next (s.loseLink p)
        ∧ exec (.linkLost p true) s = .next
          ((s.logUnit 0x03 6 1 (s.linkUnit p) (logDetail none none 0 (s.firstLane p))).loseLink p))
    ∧ (s.fullReady = true → exec .fullRateAdvertise s =
        .next (s.each ((List.range 128).filter (fun p => s.slowPort p && !(s.link p).holdFull)) State.advertise))
    ∧ (p < 128 → (s.link p).holdFull = true →
      let t := s.setLink p { s.link p with holdFull := false }
      exec (.fullRateRetry p) s = .next (if t.slowPort p && t.fullReady then t.advertise p else t))
    ∧ (∀ m lane value, lane < 656 →
      let a := Reg.lxPrbsErr lane + (if s.pkgNo = 0 then 0 else 0x1C00000)
      let v := s.countPrbs lane
      exec (.lxPrbsErrRead m lane) s = .next ((v.readReg m a 4).2.emit (.readValue m a (v.readReg m a 4).1))
      ∧ (s.gateOpen = false → exec (.lxCtrl m lane value) s = .next s.denied)
      ∧ (s.gateOpen = true → s.owns m s.portsOwn = true →
        let t := v.rset (Reg.lxCtrl lane) (BitVec.ofNat 64 (value.toNat % 16))
        (t.laneTested lane = false → exec (.lxCtrl m lane value) s = .next t)
        ∧ (t.laneTested lane = true → t.laneUser lane = none →
          exec (.lxCtrl m lane value) s = .next (if lane < 512 then t.outOfPort lane else t))
        ∧ ∀ p, t.laneTested lane = true → t.laneUser lane = some p → exec (.lxCtrl m lane value) s = .next (t.loseLink p)))

/-- Flits (R470, R472, R475, R486 to R491, R498) of every link, a port's, a trunk's or Taproot's. An arriving flit waits until its slot
comes; it is then discarded where it lies in a codeword that the FEC cannot correct or its CRC fails, and else gives its acknowledgement, its
credits and its cell. The timers make acknowledgements and NAKs due. A slot sends one flit: a time ordered set, stamped as it leaves, then a
CAP, then a cell sent again, then a new cell, else IDLE.
The choices of the model in it: assumptions 48, 49, 51 and 78. -/
def Obligations.Flits : Prop :=
  ∀ (s : State) (p : Nat), s.clocked = true → p ≤ tapLink →
    (∀ lane fec flit, s.exchanges p = true →
      let u := s.countFec p fec
      let x := u.link p
      let e := (lane, fec.cut, flit)
      let t := Trailer.read (numAt flit 256 12)
      let v := (u.arrived p lane fec.cut flit).pullFlit p e
      x.rxWait = [] →
      (u.slotLanes p ≤ lane → exec (.cellFlit ⟨p, lane⟩ fec flit) s = .next u)
      ∧ (lane < u.slotLanes p → lane ≠ x.rxSlot % u.slotLanes p → exec (.cellFlit ⟨p, lane⟩ fec flit) s =
          .next (u.setLink p { x with rxWait := [e] }))
      ∧ (lane < u.slotLanes p → lane = x.rxSlot % u.slotLanes p → fec.cut = true → exec (.cellFlit ⟨p, lane⟩ fec flit) s =
          .next (if t.kind = fkCell ∧ v.linkOpen p = true then v.discardCell p else v))
      ∧ (lane < u.slotLanes p → lane = x.rxSlot % u.slotLanes p → fec.cut = false → flitCrcOk flit = false →
        let w := if p < 128 then v.fadd (Reg.portCrcErr p) F.portCrcErr_count 1 else v
        exec (.cellFlit ⟨p, lane⟩ fec flit) s = .next (if t.kind = fkCell ∧ w.linkOpen p = true then w.discardCell p else w))
      ∧ (lane < u.slotLanes p → lane = x.rxSlot % u.slotLanes p → fec.cut = false → flitCrcOk flit = true →
        let w := v.setLink p (((v.link p).acked t).credited t)
        exec (.cellFlit ⟨p, lane⟩ fec flit) s = .next
          ((if t.kind = fkCell ∧ w.linkOpen p = true then w.cellFlit p t (flit.take 256) else w).nakRetrain p)))
    ∧ (s.linkOpen p = true →
      let x := s.link p
      (x.ackTick + 190 ≤ s.now → x.nakTick = none → exec (.ackTimer p) s = .next (s.setLink p { x with ackDue := true }))
      ∧ (∀ t, x.nakTick = some t → t + 475 ≤ s.now →
        exec (.ackTimer p) s = .next (s.setLink p { x with nakDue := true, nakTick := some s.now, ackDue := true }))
      ∧ (s.now < x.ackTick + 190 → x.nakTick = none → exec (.ackTimer p) s = .next s))
    ∧ ((s.exchanges p = true ∨ s.locking p = true) →
      let u := s.fenceSweep
      let x := u.link p
      let cap := u.capPayload p
      (∀ rest, x.timeOut = .request :: rest → u.linkOpen p = true →
        let w := (u.setLink p { x with timeOut := rest }).sendFlit p fkTime 0 (timePayload false false u.hops u.bound u.stamp 0 0)
        exec (.flitSlot p) s = .next ({ w with time := { w.time with exchange := some w.stamp } } : State).bump)
      ∧ (∀ rest nr hops bound t1 t2, x.timeOut = .reply nr hops bound t1 t2 :: rest → u.linkOpen p = true →
        exec (.flitSlot p) s = .next ((u.setLink p { x with timeOut := rest }).sendFlit p fkTime 0
          (timePayload true nr hops bound t1 t2 u.stamp)).bump)
      ∧ ((x.timeOut = [] ∨ u.linkOpen p = false) → x.capOut = true → u.locking p = false →
        let w := (u.setLink p { x with capOut := false, owed := if u.linkAct p then x.owed else [] }).sendFlit p fkCap 0 cap
        exec (.flitSlot p) s = .next (if p < 128 then w.tryFullRate p else w))
      ∧ (x.timeOut = [] → x.capOut = false → p < 128 → u.linkOpen p = true → x.sent < x.replay.length →
        let e := x.replay.getD x.sent (0, [])
        exec (.flitSlot p) s = .next ((u.setLink p { x with sent := x.sent + 1 }).sendFlit p fkCell e.1 e.2))
      ∧ (x.timeOut = [] → x.capOut = false → p < 128 → u.linkOpen p = true → x.replay.length ≤ x.sent →
        x.replay.length < u.replayDepth p →
        (∀ c, u.xb.copies.find? (u.maySend p) = some c → exec (.flitSlot p) s = .next (u.sendCell p c))
        ∧ (u.xb.copies.find? (u.maySend p) = none → exec (.flitSlot p) s = .next (u.sendFlit p fkIdle 0 [])))
      ∧ ((x.timeOut = [] ∨ u.linkOpen p = false) → x.capOut = false → (p < 128 ∨ p = tapLink) → u.linkOpen p = false →
        exec (.flitSlot p) s = .next (u.sendFlit p fkIdle 0 [])))

/-- Pairing (R566, R573 to R577, R683, R684): sensing, the PAIR exchange, its timeouts and the end of the merge.
The choices of the model in it: assumption 52. -/
def Obligations.Pairing : Prop :=
  ∀ s : State, s.clocked = true → s.pairing = true →
    (∀ volts, s.graftState = gsSense → (∀ d < 4, senseOf (volts.getD (2 * d) 1800) (volts.getD (2 * d + 1) 1800) = 1) →
      let t := (s.each (List.range 4) (fun s d => s.setTrunk d { s.trunk d with
        sense := senseOf (volts.getD (2 * d) 1800) (volts.getD (2 * d + 1) 1800) })).fset Reg.graftStatus F.graftStatus_endB 0
      exec (.graftSense volts) s = .next (t.each (List.range 4) (fun s d =>
        (s.setTrunk d { s.trunk d with stage := 2 }).sendTraining (128 + d) 32)).showGraft)
    ∧ (∀ d pair, s.graftState = gsIdentify → d < 4 →
      let t := (s.setTrunk d { s.trunk d with pair := some pair }).setPeer pair
      let l := (List.range 4).filterMap (fun d => (t.trunk d).pair)
      (pairField pair 0 16 ≠ 1 → exec (.pairFlit d pair) s = .next s.pairAgain.pairTimeout)
      ∧ (pairField pair 0 16 = 1 → (∀ c, l.findSome? (t.pairCheck l) = some c → exec (.pairFlit d pair) s = .next (t.refusePair c))
        ∧ (l.findSome? (t.pairCheck l) = none → exec (.pairFlit d pair) s =
            .next (if l.length = 4 && l.all (fun b => pairField b 43 1 == 1) && (List.range 4).all (fun d => (t.trunk d).told)
              then t.merge (l.headD []) else t))))
    ∧ (∀ d, s.graftState = gsMerge → exec (.pairingTimeout d) s = .next s.unmerge.pairTimeout)
    ∧ (s.graftState = gsMerge → (List.range 4).any s.trunkUp = true → s.flag Reg.service F.service_initDone = false → (s.pkgNo = 0 ∨ s.timeState = tsLocked) → exec .mergeComplete s =
        .next { s.toGraft gsPaired with graft := { s.graft with tries := 0 } })

/-- Packets and cells (R506, R507, R519, R541, R551, R552, R651): a packet whose first cell a flit has brought is routed, and so is one that
comes in whole, cut into the units of its format; a packet of an engine takes buffers of pool 0 at an edge stop, or waits for them. After a SHUTDOWN nothing is
routed (R638). A cell time matches the queues in three rounds after the scheduled cells, and what is matched crosses.
The choices of the model in it: assumptions 46, 47 and 48. -/
def Obligations.Switching : Prop :=
  (∀ (s : State) (inp : Nat) (p : Packet), s.clocked = true → s.quiesced = true → exec (.packetRoute inp p) s = .next s)
  ∧ (∀ (s : State) (inp : Nat) (p : Packet), s.clocked = true → s.quiesced = false → inp ≠ inEngines →
    let open_ := s.xb.pkts.find? (fun k => k.inp == inp && !k.routed && k.pkt.hdr == p.hdr && k.pkt.cls == p.cls)
    (∀ k, open_ = some k → exec (.packetRoute inp p) s = .next (s.routePk { k with pkt := { k.pkt with bad := k.pkt.bad || p.bad } }))
    ∧ (open_ = none → s.mayEnter inp = true →
      let u := s.newPk inp p (cellLens (s.unitIn p) (ownHeader p) p.payload.length)
      exec (.packetRoute inp p) s = .next ((u.1.countAt Reg.cellsIn inp u.2.n).routePk u.2))
    ∧ (open_ = none → s.mayEnter inp = false → exec (.packetRoute inp p) s = .next s))
  ∧ (∀ (s : State) (p : Packet) (e : Packet × Nat), s.clocked = true → s.quiesced = false →
    s.xb.fromEngines.find? (fun e => samePacket e.1 p && e.1.aborted == p.aborted) = some e →
    let lens := cellLens e.2 (ownHeader e.1) e.1.payload.length
    let u : State := ({ s with xb := { s.xb with fromEngines := s.xb.fromEngines.erase e } } : State).bump
    (s.entryStop lens.length = none →
      exec (.packetRoute inEngines p) s = .next (u.poolQueue (s.diesFrom.headD 0) 0 (.packet e.1 e.2)))
    ∧ (∀ stop, s.entryStop lens.length = some stop →
      let d := edgeDie stop
      let k := ((u.setPoolFree d 0 (u.poolFree d 0 - lens.length)).releaseBuffer e.1).newPk (edgeIo stop) e.1 lens
      exec (.packetRoute inEngines p) s = .next (k.1.routePk k.2)))
  ∧ ∀ s : State, s.clocked = true →
    let u := s.fenceSweep
    let l := u.heads
    let outs := dedup (l.map (fun h => h.copy.out))
    let m := u.scheduled l outs
    let x := State.matchRound l outs false (State.matchRound l outs false (State.matchRound l outs true (u.loseDeficits l m, m)))
    exec .cellTime s = .next (x.1.each x.2.done State.crossCell)

/-! ## Owners, memories, mailbox, Shed and slices -/

/-- Memories (R646 to R650, R676, R703): training, post-package repair and mode-register access.
The choices of the model in it: assumption 44. -/
def Obligations.Memories : Prop :=
  ∀ (s : State) (m : Master) (k : Nat) (value : Word32), s.clocked = true → k < stackTotal →
    (s.fget (Reg.stackStatus k) F.stackStatus_state = stackTraining →
      exec (.stackTraining k true 0) s = .next
        ((((s.fset (Reg.stackStatus k) F.stackStatus_state stackReady).fadd (Reg.stackStatus k) F.stackStatus_trainRetries 0).showStore).tryStoreReady)
      ∧ ∀ n, 0 < n → exec (.stackTraining k false n) s = .next
        (((((((s.fset (Reg.stackStatus k) F.stackStatus_state stackFailed).fadd (Reg.stackStatus k) F.stackStatus_trainRetries n).addPoints
          (unitStack k) (16 * n)).setUnitState (unitStack k) 3).logUnit 0x08 6 1 (unitStack k) (logDetail none none 0 0)).showStore).tryStoreReady))
    ∧ (s.gateOpen = false → exec (.hppr m k value) s = .next s.denied ∧ exec (.sppr m k value) s = .next s.denied
        ∧ ∀ data, exec (.mrSel m k value data) s = .next s.denied)
    ∧ (s.gateOpen = true → ∀ hard,
      let t := (s.fset (Reg.pprCtrl k) F.pprCtrl_pc (bget F.pprCtrl_pc value)).fset (Reg.pprCtrl k) F.pprCtrl_hard (if hard then 1 else 0)
      let life := t.fget Reg.lifecycleReg F.lifecycleReg_state
      t.flag (Reg.pprStatus k) F.pprStatus_busy = false → ¬(hard = true ∧ (life = 2 ∨ life = 4)) →
      t.resCanTake (reStack k) ruRepair = true →
      let u := (t.resTake (reStack k) ruRepair).fset (Reg.pprStatus k) F.pprStatus_busy 1
      exec (if hard then .hppr m k value else .sppr m k value) s = .next { u with shed := { u.shed with ppr := u.shed.ppr ++
        [⟨k, hard, bget F.pprCtrl_pc value, t.fget (Reg.pprAddr k) F.pprAddr_bank, t.fget (Reg.pprAddr k) F.pprAddr_bankGroup,
          t.fget (Reg.pprAddr k) F.pprAddr_row⟩] } })
    ∧ (s.gateOpen = true → ∀ data, exec (.mrSel m k value data) s = .next
      ((((s.fset (Reg.mrSel k) F.mrSel_channel (bget F.mrSel_channel value)).fset (Reg.mrSel k) F.mrSel_mr (bget F.mrSel_mr value)).fset
        (Reg.mrData k) F.mrData_value data).fset (Reg.mrData k) F.mrData_valid 1))
    ∧ (∀ r left, s.shed.ppr.find? (fun r => r.stack == k) = some r →
      let t := ((s.fset (Reg.pprStatus k) F.pprStatus_busy 0).fset (Reg.pprStatus k) F.pprStatus_done 1).fset
        (Reg.pprStatus k) F.pprStatus_left left
      let u := if t.resUser (reStack k) = ruRepair then t.resFree (reStack k) else t
      let w : State := { u with shed := { u.shed with ppr := u.shed.ppr.filter (fun x => x.stack != k) } }
      exec (.pprComplete k true left) s = .next
        (if r.hard then { w with nv := { w.nv with fusedRows := w.nv.fusedRows ++ [(k, r.pc, r.rowAddr)] } } else w))

/-- REGISTER_WRITE (R27, R402 to R405, R461): a write of good size and alignment writes each half of 4 B, the upper
first, so that what a write to the lower sets stays (an order of the model's); a bad access is dropped; an
expert access through the closed gate only counts. CLAIM and RELEASE (R579 to R582): the one request of a master in a tick waits for
the end of the tick, the later replacing the earlier. Where nothing stands against it, a write that acts (R390, R393, R396, R557,
R558, R565, R621) sets the fields of its register: GC_LOAD, TIME_CTRL, TICK_OUT_CTRL, DBG_CLK_CTRL, MIR_CTRL, MIR_HEAD and TELEM_CTRL.
The choices of the model in it: assumptions 28, 29 and 80. -/
def Obligations.RegisterWritesAndClaims : Prop :=
  (∀ (s : State) (m : Master) (addr size : Nat) (value : Word64), s.clocked = true →
    (inExpertWindow addr = true → s.gateOpen = false → exec (.registerWrite m addr size value) s = .next s.denied)
    ∧ (inExpertWindow addr = false → goodAccess addr size = false → exec (.registerWrite m addr size value) s = .next (s.badAccess m))
    ∧ (s.gateOpen = true → size = 4 → addr % 4 = 0 →
        exec (.registerWrite m addr size value) s = .next (s.writeHalf m addr (value.toNat % 2 ^ 32)))
    ∧ (s.gateOpen = true → size = 8 → addr % 8 = 0 → exec (.registerWrite m addr size value) s =
        .next ((s.writeHalf m (addr + 4) (value.toNat / 2 ^ 32)).writeHalf m addr (value.toNat % 2 ^ 32))))
  ∧ (∀ (s : State) (m : Master) (n : Nat), s.clocked = true →
    let with_ (q : ClaimReq) : Res := .next { s with host := { s.host with claims := s.host.claims.filter (fun x => x.m != m) ++ [q] } }
    exec (.claim m n) s = with_ ⟨m, n % 2 ^ 13, false⟩ ∧ exec (.release m n) s = with_ ⟨m, n % 2 ^ 13, true⟩)
  ∧ ∀ (s : State) (m : Master), s.clocked = true →
    (s.owns m s.resTimeOwn = true →
      (∀ v, s.role ≠ 2 → s.quiet = true → s.host.relNow = false →
        ∃ t, exec (.gcLoad m ⟨.both, v⟩) s = .next t ∧ t.rget Reg.gcLoad = v ∧ t.rget Reg.gcValue = v)
      ∧ (∀ v, s.grafted = true → s.pkgNo = 1 →
        ∃ t, exec (.timeCtrl m v) s = .next t ∧ t.fget Reg.timeCtrl F.timeCtrl_holdStep = bget F.timeCtrl_holdStep v)
      ∧ (∀ v, s.grafted = false → s.role = bget F.timeCtrl_role v % 3 → s.role ≠ 2 →
        ∃ t, exec (.timeCtrl m v) s = .next t ∧ t.fget Reg.timeCtrl F.timeCtrl_upport = bget F.timeCtrl_upport v)
      ∧ ∀ v, bflag F.tickOutCtrl_enable v = true → s.resUser rePin = ruTickOut →
        ∃ t, exec (.tickOutEnable m v) s = .next t ∧ t.flag Reg.tickOutCtrl F.tickOutCtrl_enable = true
          ∧ t.fget Reg.tickOutCtrl F.tickOutCtrl_period = bget F.tickOutCtrl_period v)
    ∧ (s.gateOpen = true → ∀ v, bflag F.dbgClkCtrl_enable v = true → s.resUser rePin = ruDebug →
      ∃ t, exec (.debugClockEnable m v) s = .next t ∧ t.flag Reg.dbgClkCtrl F.dbgClkCtrl_enable = true)
    ∧ (s.owns m resFabric = true → ∀ n v, n < 8 →
      (s.flag (Reg.mirCtrl n) F.mirCtrl_enable = true →
        ∃ t, exec (.mirrorEnable m n v) s = .next t ∧ t.fget (Reg.mirCtrl n) F.mirCtrl_vector = bget F.mirCtrl_vector v)
      ∧ (∃ t, exec (.mirrorDisable m n v) s = .next t ∧ t.flag (Reg.mirCtrl n) F.mirCtrl_held = false)
      ∧ (ptrDiff (s.fget (Reg.mirTail n) F.mirTail_value) v.toNat ≤ s.mirrorSize n →
        ∃ t, exec (.mirHead m n v) s = .next t ∧ t.fget (Reg.mirHead n) F.mirHead_value = v.toNat)
      ∧ (bflag F.telemCtrl_enable v = true → s.flag Reg.telemCtrl F.telemCtrl_enable = true →
        ∃ t, exec (.telemetryEnable m v) s = .next t ∧ t.fget Reg.telemCtrl F.telemCtrl_tlog2 = bget F.telemCtrl_tlog2 v))

/-- Mailbox requests that answer at once (R599, R602, R611, R623 to R633).
The choices of the model in it: assumptions 27, 57, 59 and 61. -/
def Obligations.MailboxAnswers : Prop :=
  ∀ (r : State) (m : Master) (req : MbxReq) (q : Mail),
    let s := r.readRequest m q.payload.length
    let ok (b : Bytes) : Res := .next (s.respond m req.respOk q stOk b)
    (Asks r m req q 0x01 0 → exec (.identity m req) r = ok s.identityBytes)
    ∧ (Asks r m req q 0x02 64 → s.lifecycle ≠ lcBlank → s.lifecycle ≠ lcRetired → exec (.quote m req) r =
        ok (s.quoteBody q.payload ++ bytesAt (Config.identitySign (s.quoteBody q.payload)) 0 114 ++ leBytes 14 0))
    ∧ (Asks r m req q 0x03 6 → exec (.logFetch m req) r = ok (s.logBytes (q.field 0 32) (q.field 32 13)))
    ∧ (Asks r m req q 0x04 4 → exec (.logAck m req) r = .next
        (({ s with aon := { s.aon with log := s.aon.log.filter (fun e => decide (q.field 0 32 < entrySeq e)) } } : State).respond m req.respOk q stOk []))
    ∧ (Asks r m req q 0x05 0 → exec (.sensors m req) r = ok s.sensorBytes)
    ∧ (Asks r m req q 0x06 2 → q.field 0 11 < unitTotal → exec (.healthDetail m req) r = ok (leBytes 4 (tget 0 s.shed.scores (q.field 0 11))
        ++ (List.range 8).flatMap (fun b => leBytes 4 (tget 0 s.shed.bands (8 * q.field 0 11 + b)))))
    ∧ (Asks r m req q 0x07 2 → 1200 ≤ q.field 0 12 → q.field 0 12 ≤ 2600 → s.capOf (masterNum m) ≠ some (q.field 0 12) →
        exec (.powerCap m req) r = .next
          (((({ s with shed := { s.shed with caps := s.shed.caps.filter (fun c => c.1 != masterNum m) ++ [(masterNum m, q.field 0 12)] } } : State).logEvent
            0x02 6 0 (masterNum m) (q.field 0 12) none).respond m req.respOk q stOk [])))
    ∧ (Asks r m req q 0x08 0 →
        let c := Config.random s.freeCtr % 2 ^ 256
        let e := (s.now + 2 ^ 30) % 2 ^ 64
        exec (.gateChallenge m req) r = .next (({ s.bump with shed := { s.shed with challenge := some (c, e) } } : State).respond m req.respOk q stOk
          (leBytes 32 c ++ leBytes 8 s.nv.serial.toNat ++ leBytes 8 e)))
    ∧ (Asks r m req q 0x09 149 → 0 < numAt q.payload 32 2 → numAt q.payload 32 2 ≤ 1024 → numAt q.payload 34 1 ≤ 1 →
        let t : State := { s with shed := { s.shed with challenge := none } }
        (s.grantOk q.payload = true → exec (.gateGrant m req) r = .next
          ((((({ t with shed := { t.shed with grantEnd := some (t.now + numAt q.payload 32 2 * 2 ^ 30) } } : State).fset
            Reg.expertGate F.expertGate_open 1).fset Reg.expertGate F.expertGate_cause 1).logEvent 0x0C 5 0 (masterNum m) (numAt q.payload 32 2)
            none).respond m req.respOk q stOk []))
        ∧ (s.grantOk q.payload = false → exec (.gateGrant m req) r = .next
          ((t.logEvent 0x0C 4 0 (masterNum m) q.op none).respond m req.respOk q stAuthFailed [])))

/-- Mailbox requests that change the part (R602, R623 to R626, R628, R633, R634, R638, R641, R645, R647).
The choices of the model in it: assumptions 27, 60 and 62. -/
def Obligations.MailboxActs : Prop :=
  ∀ (r : State) (m : Master) (req : MbxReq) (q : Mail),
    let s := r.readRequest m q.payload.length
    (Asks r m req q 0x0A 512 → s.retired = false → s.fwHeaderOk (bytesAt q.payload 0 512) = true →
      let h := bytesAt q.payload 0 512
      exec (.fwBegin m req) r = .next ((({ s with
        nv := { s.nv with flashMarker := false, flashHeader := h, flashBody := [], flashWritten := [] }
        shed := { s.shed with fw := some h } } : State).logEvent 0x0C 2 0 0 (fwSvn h) none).respond m req.respOk q stOk []))
    ∧ (∀ h, Asks r m req q 0x0B 4 → s.shed.fw = some h → q.field 0 32 % 4096 = 0 → (q.payload.drop 4).length ≤ 65536 →
      q.field 0 32 + (q.payload.drop 4).length ≤ fwLen h →
      exec (.fwChunk m req) r = .next ((s.flashWrite (q.field 0 32) (q.payload.drop 4)).respond m req.respOk q stOk []))
    ∧ (∀ h, Asks r m req q 0x0C 1 → s.shed.fw = some h → s.flashWhole (fwLen h) = true → fwBodyOk h s.nv.flashBody = true →
      s.bootState ≠ bsRecovery →
      let t := ({ s with
        nv := { s.nv with flashMarker := true, svnFloor := if q.field 0 1 = 1 then max s.nv.svnFloor (fwSvn h) else s.nv.svnFloor }
        shed := { s.shed with fw := none } } : State).logEvent 0x0C 3 0 0 (fwSvn h) none
      exec (.fwCommit m req) r = .next ((if t.bootState == bsRecovery then t.leaveRecovery else t).respond m req.respOk q stOk []))
    ∧ (Asks r m req q 0x0C 1 → s.shed.fw = none → exec (.fwCommit m req) r = .next (s.respond m req.respOk q stImageInvalid []))
    ∧ (Asks r m req q 0x0D 0 → s.retired = false → s.anyActive = false →
      exec (.shutdown m req) r = .next (({ s with shed := { s.shed with shutdown := some ⟨m, q.op, q.package, q.seq⟩ } } : State).fset
        (cardReg m Reg.mbxStatus) F.mbxStatus_busy 1))
    ∧ (Asks r m req q 0x0E 2 → s.retired = false → (isBedUnit (q.field 0 11) || isPcUnit (q.field 0 11)) = true →
      s.sliceable (q.field 0 11) = true → exec (.slice m req) r = .next (s.requestSlice m req.respOk q (q.field 0 11) false))
    ∧ (Asks r m req q 0x0F 2 → isBedUnit (q.field 0 11) = true → s.bedState (bedOf (q.field 0 11)) ≤ bedSpare → exec (.repair m req) r = .next (s.requestSlice m req.respOk q (q.field 0 11) true))
    ∧ (Asks r m req q 0x10 0 → (s.lifecycle = lcBlank ∨ s.lifecycle = lcMaker ∨ s.lifecycle = lcReturn) →
      exec (.fuse m req) r = .next ((s.burn.logEvent 0x0B 5 0 0 (s.nv.softBeds.length + s.nv.softRows.length) none).respond m req.respOk q stOk []))
    ∧ (∀ keys, Asks r m req q 0x11 1 → s.lifecycle ≠ lcBlank → s.tokenKeys s.lifecycle (numAt q.payload 0 1) = some keys → s.anyActive = false →
      (s.tokenOk keys q.payload = true →
        exec (.lifecycle m req) r = .next ((s.respond m req.respOk q stOk []).changeLife (numAt q.payload 0 1)))
      ∧ (s.tokenOk keys q.payload = false → exec (.lifecycle m req) r = .next
        ((s.logEvent 0x0C 4 0 (masterNum m) q.op none).respond m req.respOk q stAuthFailed [])))
    ∧ (Asks r m req q 0x12 58 → s.enrolOk q.payload = true → exec (.ownerEnroll m req) r = .next
        (({ s with nv := { s.nv with ownerKey := some (bytesAt q.payload 0 57) } } : State).respond m req.respOk q stOk []))

/-- Shed (R409, R594, R604 to R618, R631, R694 to R697): its restarts, also on its own oscillator, and heartbeat, evaluation and scoring
once their intervals have passed, and the end of a grant.
The choices of the model in it: assumptions 42 and 63. -/
def Obligations.ShedRuns : Prop :=
  (∀ s : State, s.shedUp = true → s.pwr.locked = true →
    (s.bootState = bsRunning → exec .watchdogExpiry s = .next s.restartShed ∧ ∀ a, exec (.shedSramUncorrectable a) s = .next s.restartShed)
    ∧ (s.bootState = bsRestarting → exec .firmwareRestarted s = .next (if s.imageValid then s.shedRuns else s.toBoot bsRecovery)))
  ∧ ∀ s : State, s.clocked = true →
    (s.bootState = bsRunning →
      (2 ^ 20 ≤ s.sinceTick 0 → exec .heartbeat s =
          .next ((s.fset Reg.heartbeat F.heartbeat_count (s.fget Reg.heartbeat F.heartbeat_count + 1)).restartTick 0))
      ∧ (s.sinceTick 0 < 2 ^ 20 → exec .heartbeat s = .next s)
      ∧ (∀ r, 2 ^ 17 ≤ s.sinceTick 1 → exec (.evaluationInterval r) s = .next ((s.evaluate r).restartTick 1))
      ∧ (2 ^ 27 ≤ s.sinceTick 2 →
         let t := ((s.each (List.range unitTotal) State.scoreUnit).restartTick 2).bump
         let a : ShedSt := { t.shed with points := [], corrected := t.shed.corrected.filter (fun e => decide (656 ≤ e.1)) }
         exec .scoringInterval s = .next { t with shed := a }))
    ∧ ∀ t, s.shed.grantEnd = some t → t ≤ s.now →
      let u : State := { s with shed := { s.shed with grantEnd := none } }
      exec .grantExpiry s = .next (if u.flag Reg.service F.service_initDone then u.closeGate else u.fset Reg.expertGate F.expertGate_cause 0)

/-- Slices, scrubs and BIST (R636 to R646, R653, R654).
The choices of the model in it: assumptions 45, 56 and 58. -/
def Obligations.Slices : Prop :=
  ∀ s : State, s.clocked = true →
    (∀ die n, die < 8 → s.flag Reg.sliceCtrl F.sliceCtrl_periodic = true → s.bootState = bsRunning → s.retired = false → s.quiesced = false →
      s.sliceInterval ≤ s.sinceTick (3 + die) → s.nextPlace die = some n → (sliceEntries (rotUnit die n).1).any (fun e => s.resUser e != 0) = false →
      exec (.periodicSlice die) s = .next ((({ s with shed := { s.shed with rot := tset 0 s.shed.rot die ((n + 1) % rotSize) } } : State).startSlice
        ⟨(rotUnit die n).1, (rotUnit die n).2, false, false, .waiting, s.now, .shed, 0, 0⟩ ruPeriodic).restartTick (3 + die)))
    ∧ (∀ u r, s.sliceOf u = some r →
      (r.stage = .waiting → (isBedUnit u = false ∨ (s.bedEmpty (bedOf u) = true ∧ s.now < r.tick + 2 ^ 27)) →
        (r.repair = true → exec (.sliceBegin u) s = .next ((((s.freeSlice r).dropSlice u).bedFailed (bedOf u)).answerSlice r stOk))
        ∧ (r.repair = false → exec (.sliceBegin u) s = .next { s with shed := { s.shed with
            slices := updFirst (fun x => x.unit == u) (fun x => { x with stage := .running, tick := s.now }) s.shed.slices } }))
      ∧ (r.stage = .waiting → r.tick + 2 ^ 27 ≤ s.now → exec (.sliceDeferred u) s = .next
          ((((((s.freeSlice r).dropSlice u).setUnitState u (s.restState u)).logUnit 0x0A 2 0 u 0)).answerSlice r stTimeout))
      ∧ (r.stage = .running → r.tick + 1900000 ≤ s.now →
        let t := ((s.freeSlice r).dropSlice u).setUnitState u (s.restState u)
        let w := t.fset Reg.sliceStatus F.sliceStatus_doneCount (t.fget Reg.sliceStatus F.sliceStatus_doneCount + 1)
        exec (.sliceEnd u true) s = .next (({ w with shed := { w.shed with
            scores := tset 0 w.shed.scores u (tget 0 w.shed.scores u % 2 ^ 15) } } : State).answerSlice r stOk)
        ∧ exec (.sliceEnd u false) s = .next
          ((((((w.fadd Reg.sliceStatus F.sliceStatus_failCount 1).fset
            Reg.shedEvents F.shedEvents_sliceFail 1).logUnit 0x0A 1 1 u 0).unitFailed u).failScore u).answerSlice r stOk)))
    ∧ (∀ line, s.flag Reg.service F.service_storeReady = true → line < 24 * 2 ^ 26 →
      let w := s.resTake (reStack (lineStack line)) ruScrub
      let t : State := { w with shed := { w.shed with scrubPos := line } }
      (s.scrubMay (lineStack line) = false → ∀ found, exec (.patrolScrub line found) s = .next s)
      ∧ (s.scrubMay (lineStack line) = true → s.shed.scrubPos ≤ line →
        exec (.patrolScrub line 0) s = .next t ∧ exec (.patrolScrub line 1) s = .next (t.correctedError (lineUnit line))
        ∧ (t.unitState (lineUnit line) ≠ 3 → exec (.patrolScrub line 2) s = .next
          ((((t.addPoints (lineUnit line) 64).addPoints (unitStack (lineStack line)) 16).loseLine line).logUnit 0x08 5 1 (lineUnit line)
            (logDetail none none 0 (line % 2 ^ 21))))))
    ∧ (∀ w failed, s.shed.shutdown = some w →
      let t := s.each failed (fun s u => ((s.overtake u).logUnit 0x0A 3 1 u 0).unitFailed u)
      let beds := t.nv.softBeds.drop s.nv.softBeds.length
      let rows := t.nv.softRows.drop s.nv.softRows.length
      exec (.fullBistComplete failed) s = .next ((({ t with
        aon := { t.aon with record := some ⟨failed, beds, rows, bistDigest failed beds rows t.aon.bootCount, t.aon.bootCount⟩ }
        shed := { t.shed with shutdown := none } } : State).fset Reg.shedStatus F.shedStatus_quiesced 1).respondTo
          w.master true w.op w.package w.seq stOk (failed.flatMap (leBytes 2))))
    ∧ (∀ failed, s.shed.shutdown = none → s.shed.bootBist = true →
      let t := s.each failed (fun s u => ((s.overtake u).logUnit 0x0A 3 1 u 0).unitFailed u)
      exec (.fullBistComplete failed) s = .next ({ t with shed := { t.shed with bootBist := false } } : State).tryStoreReady)

/-! ## The block as a whole -/

/-- A step runs the command at the front of the queue on the state with the rest of the queue; on an empty queue the block idles
(the model's choice, assumption 4). -/
def Obligations.StepRunsFront : Prop :=
  (∀ (s : State) (c : Instr) (r : List Instr), s.pending = c :: r → step s = exec c { s with pending := r })
  ∧ (∀ (s : State) (c : Instr), step (s.withCommand c) = exec c s)
  ∧ ∀ s : State, s.pending = [] → step s = .next s

/-- Every step from a state that keeps the invariant leaves one that keeps it: registers canonical, at most 4,096 entries of the
trouble log (R611, R613), and fuses that only move one way (R625, R627, R647, R648). -/
def Obligations.EveryStepKeepsTheInvariant : Prop :=
  ∀ (n : Nv) (s t : State), StepInv n s → step s = .next t → StepInv n t

/-- The state at reset keeps the invariant from its own fuses.
The choices of the model in it: assumption 3. -/
def Obligations.ResetKeepsTheInvariant : Prop :=
  StepInv State.reset.nv State.reset

/-- Every command completes in a next state, never in a fault or a refusal, and leaves the queue of waiting commands as it was.
The choices of the model in it: assumption 6. -/
def Obligations.EveryCommandCompletes : Prop :=
  ∀ (c : Instr) (s : State), ∃ t, exec c s = .next t ∧ t.pending = s.pending

/-- The order in which contributed values and partials are added into an operation changes nothing of it: slot values, flag bytes,
counters, MAXREC and FIRST_FLAG (R137). -/
def Obligations.OrderOfSumsDoesNotMatter : Prop :=
  ∀ (o : Op) (l l' : List (BedVal ⊕ XpRec)), risingTables o → l.Perm l' → l.foldl addIn o = l'.foldl addIn o

/-- An XP record is exact: what a receiver reads from its bytes is the record that was sent (R138 to R144). -/
def Obligations.RecordsRoundTrip : Prop :=
  ∀ r : XpRec, Fits r → xpParse (xpBytes r) = r

/-- While the five clocks do not run, or the package has stopped, only the rows of power, of the start of the clocks and of Shed's own
restarts do anything (R362, R363, R609).
The choices of the model in it: assumption 8. -/
def Obligations.NothingRunsUnclocked : Prop :=
  ∀ (c : Instr) (s : State), s.clocked = false → needsNoClock c = false → exec c s = .next s

/-- A write by a master that does not own the resource only sets NOT_OWNER_WRITE on its card (R402).
The choices of the model in it: assumption 28. -/
def Obligations.OnlyOwnersWrite : Prop :=
  ∀ (c : Instr) (s : State) (m : Master) (res : Nat) (there : Bool), s.clocked = true → ownerOnly s c = some (m, res, there) →
    s.owns m res = false → exec c s = .next (if there then s.notOwner m else s)

/-- Registers: a read answers the last write, a write changes no other register and nothing but registers, and reset gives the values of
the spec to PART_ID (R407), EXPERT_GATE.OPEN (R462), the global counter (R362) and SERVICE.
The choices of the model in it: assumption 3. -/
def Obligations.Registers : Prop :=
  (∀ (s : State) (a : Nat) (v : Word64), (s.rset a v).rget a = v ∧ (∀ b, b ≠ a → (s.rset a v).rget b = s.rget b)
    ∧ s.rset a v = { s with regs := (s.rset a v).regs })
  ∧ State.reset.rget Reg.partId = 0x9624
  ∧ State.reset.gateOpen = true
  ∧ State.reset.rget Reg.gcValue = 0
  ∧ State.reset.flag Reg.service F.service_initDone = false
  ∧ State.reset.seedling = true

/-- Frames: rows that write registers alone, and one that also answers with a value; rows that change only rings and contexts; rows that
change only ports; and words of a program without transfers, which change nothing but the program where it goes on.
The choices of the model in it: assumption 6. -/
def Obligations.Frames : Prop :=
  (∀ (s t : State) (c : Instr) (m : Master) (x n : Nat) (v : Word32),
    c ∈ [.mirHead m n v, .mrSel m n v x, .slotBoundary, .scheduleStart, .seedlingExit] →
    exec c s = .next t → t = { s with regs := t.regs })
  ∧ (∀ (s t : State) (m : Master) (n : Nat), exec (.lxPrbsErrRead m n) s = .next t →
    t = { s with regs := t.regs, out := t.out, freeCtr := t.freeCtr })
  ∧ (∀ s t : State, exec .heartbeat s = .next t →
    t = { s with regs := t.regs, shed := t.shed } ∧ t.shed = { s.shed with since := t.shed.since })
  ∧ (∀ (s t : State) (r : Ref) (c : Instr) (m : Master) (n : Nat),
    c ∈ [.openBucket r, .allreduce r, .reduceScatter r, .allgather r, .shift r, .permute r, .claim m n, .release m n] →
    exec c s = .next t → t = { s with host := t.host })
  ∧ (∀ (s t : State) (c : Instr) (p : Nat), c ∈ [.capTimer p, .squelchEnd p, .ackTimer p] → exec c s = .next t → t = { s with links := t.links })
  ∧ ∀ (s t : State) (p : VyProg) (c : Instr) (r : VyRow), rowOf c = some r → r.op.upset = .clean → s.vy = some p →
    p.xfers = [] → exec c s = .next t → t.vy.isSome = true → t = { s with vy := t.vy }
end

