-- ==== Sys2Proof/Laws/Tables.lean ====
section
/-! SUPPORT. Laws of sparse tables: reads after writes, and the canonical form. -/
namespace Sys2Proof.Machine

/-- Keys rise strictly, and every entry is one that `ok` lets be listed. -/
def TabOk {α : Type} (ok : Nat → α → Prop) (t : Tab α) : Prop :=
  (t.map Prod.fst).Pairwise (· < ·) ∧ ∀ e ∈ t, ok e.1 e.2

theorem TabOk.nil {α : Type} {ok : Nat → α → Prop} : TabOk ok [] := by simp [TabOk]

/-- Every key lies above a bound. -/
def Above {α : Type} (k : Nat) (t : Tab α) : Prop := ∀ e ∈ t, k < e.1

theorem above_nil {α : Type} {k : Nat} : Above k ([] : Tab α) := by simp [Above]

theorem above_cons {α : Type} {i k : Nat} {w : α} {t : Tab α} : Above i ((k, w) :: t) ↔ i < k ∧ Above i t := by simp [Above]

theorem Above.mono {α : Type} {i k : Nat} {t : Tab α} (h : Above k t) (hi : i ≤ k) : Above i t :=
  fun e he => Nat.lt_of_le_of_lt hi (h e he)

/-- A table of at least one entry, by its first entry and the rest. -/
theorem tabOk_cons {α : Type} {ok : Nat → α → Prop} {k : Nat} {w : α} {t : Tab α} :
    TabOk ok ((k, w) :: t) ↔ ok k w ∧ Above k t ∧ TabOk ok t := by
  simp only [TabOk, Above, List.map_cons, List.pairwise_cons, List.mem_map, forall_exists_index, and_imp, forall_apply_eq_imp_iff₂, List.forall_mem_cons]
  grind

theorem mem_tput {α : Type} {t : Tab α} {i : Nat} {v : α} {e : Nat × α} (h : e ∈ tput t i v) : e = (i, v) ∨ e ∈ t := by
  induction t <;> grind [tput]

theorem mem_tdel {α : Type} {t : Tab α} {i : Nat} {e : Nat × α} (h : e ∈ tdel t i) : e ∈ t := by
  induction t <;> grind [tdel]

/-- Keys that lie above a bound stay above it. -/
theorem above_tput {α : Type} {t : Tab α} {i k : Nat} {v : α} (h : Above k t) (hi : k < i) : Above k (tput t i v) := by
  intro e he; grind [mem_tput he, Above]

theorem above_tdel {α : Type} {t : Tab α} {i k : Nat} (h : Above k t) : Above k (tdel t i) := by
  intro e he; grind [mem_tdel he, Above]

theorem TabOk.tput {α : Type} {ok : Nat → α → Prop} {t : Tab α} {i : Nat} {v : α} (h : TabOk ok t) (hv : ok i v) :
    TabOk ok (tput t i v) := by
  induction t <;> grind [Machine.tput, tabOk_cons, TabOk.nil, above_tput, above_nil, above_cons, Above.mono]

theorem TabOk.tdel {α : Type} {ok : Nat → α → Prop} {t : Tab α} {i : Nat} (h : TabOk ok t) : TabOk ok (tdel t i) := by
  induction t <;> grind [Machine.tdel, tabOk_cons, TabOk.nil, above_tdel, above_cons]

/-- A write keeps the canonical form. -/
theorem TabOk.tset {α : Type} [DecidableEq α] {ok : Nat → α → Prop} {t : Tab α} {i : Nat} {v d : α} (h : TabOk ok t)
    (hv : v ≠ d → ok i v) : TabOk ok (tset d t i v) := by
  grind [Machine.tset, TabOk.tput, TabOk.tdel]

theorem tget_tput {α : Type} (d : α) (t : Tab α) (i j : Nat) (v : α) :
    tget d (tput t i v) j = if i = j then v else tget d t j := by
  induction t <;> grind [tput, tget]

theorem tget_tdel {α : Type} (d : α) (t : Tab α) (i j : Nat) :
    tget d (tdel t i) j = if i = j then d else tget d t j := by
  induction t <;> grind [tdel, tget]

/-- A read after a write: the value written at its key, and what was there before at every other key. -/
theorem tget_tset {α : Type} [DecidableEq α] (d : α) (t : Tab α) (i j : Nat) (v : α) :
    tget d (tset d t i v) j = if i = j then v else tget d t j := by
  grind [tset, tget_tput, tget_tdel]

@[simp] theorem tget_tset_same {α : Type} [DecidableEq α] (d : α) (t : Tab α) (i : Nat) (v : α) :
    tget d (tset d t i v) i = v := by simp [tget_tset]

theorem tget_tset_other {α : Type} [DecidableEq α] (d : α) (t : Tab α) {i j : Nat} (v : α) (h : i ≠ j) :
    tget d (tset d t i v) j = tget d t j := by simp [tget_tset, h]

/-- The two shapes of the canonical form, above a bound. -/
theorem risesFrom_iff {α : Type} (d : α) (b : Nat) (t : Tab α) :
    (risesFrom b t = true ∧ ∀ e ∈ t, e.2 ≠ d) ↔ Above b t ∧ TabOk (fun _ v => v ≠ d) t := by
  induction t generalizing b with
  | nil => simp [risesFrom, Above, TabOk.nil]
  | cons x t ih =>
    have := ih x.1
    grind [risesFrom, tabOk_cons, above_cons, Above.mono]

/-- The canonical form in its two shapes. -/
theorem tab_wf_iff {α : Type} [DecidableEq α] (d : α) (t : Tab α) : Tab.wf d t = true ↔ TabOk (fun _ v => v ≠ d) t := by
  cases t with
  | nil => simp [Tab.wf, TabOk.nil]
  | cons x t =>
    have := risesFrom_iff d x.1 t
    grind [Tab.wf, tabOk_cons]

/-- A write keeps a table canonical. -/
theorem wf_tset {α : Type} [DecidableEq α] (d : α) (t : Tab α) (i : Nat) (v : α) (h : Tab.wf d t = true) :
    Tab.wf d (tset d t i v) = true := by
  rw [tab_wf_iff] at h ⊢
  exact h.tset (fun hv => hv)

end Sys2Proof.Machine
end

