-- ==== Sys2Proof/Laws/Kept.lean ====
section
/-! SUPPORT. What every operation of the machine keeps: the invariant of Safety, and the queue of waiting commands. -/
namespace Sys2Proof.Machine
open Sys2Proof.Safety

/-- The invariant from fuses `n`, with a queue `q`, on the fields that it reads. -/
def KeptFields (q : List Instr) (n : Nv) (pending : List Instr) (nv : Nv) (log : List (BitVec 256)) (regs : Tab Word64) : Prop :=
  regsCanonical regs ∧ log.length ≤ 4096 ∧ fusesKept n nv ∧ pending = q

/-- The invariant from fuses `n`, with a queue `q`. -/
def Kept (q : List Instr) (n : Nv) (s : State) : Prop := KeptFields q n s.pending s.nv s.aon.log s.regs

theorem kept_iff {kq kn s} : Kept kq kn s ↔ StepInv kn s ∧ s.pending = kq := by simp [Kept, KeptFields, StepInv, and_assoc]

@[simp] theorem KeptFields.of {kq kn s} (h : Kept kq kn s) : KeptFields kq kn s.pending s.nv s.aon.log s.regs := h

@[simp] theorem kept_mk {kq kn a b c d e f g h i j k l m o p r t u v w x y z} :
    Kept kq kn (State.mk a b c d e f g h i j k l m o p r t u v w x y z) ↔ KeptFields kq kn a d e.log f := Iff.rfl

theorem fusesKept.refl (n : Nv) : fusesKept n n := ⟨rfl, rfl, rfl, Nat.le_refl _, id, List.prefix_refl _⟩

theorem fusesKept.trans {a b c : Nv} (h : fusesKept a b) (k : fusesKept b c) : fusesKept a c := by
  obtain ⟨serial, grade, stepping, floor, keyed, rows⟩ := h
  obtain ⟨serial', grade', stepping', floor', keyed', rows'⟩ := k
  exact ⟨serial'.trans serial, grade'.trans grade, stepping'.trans stepping, Nat.le_trans floor floor', keyed' ∘ keyed, rows.trans rows'⟩

@[simp] theorem Kept.rset {kq kn s} (a : Nat) (v : Word64) (h : Kept kq kn s) : Kept kq kn (s.rset a v) :=
  ⟨TabOk.tset (ok := fun a v => v ≠ regReset a) h.1 (fun hv => hv), h.2⟩

@[simp] theorem Kept.each {kq kn} {α : Type} {l : List α} {f : State → α → State} {s : State}
    (hf : ∀ s x, Kept kq kn s → Kept kq kn (f s x)) (h : Kept kq kn s) : Kept kq kn (s.each l f) := by
  exact List.foldlRecOn (motive := Kept kq kn) l f h (fun s hs x _ => hf s x hs)

@[simp] theorem Kept.ite {kq kn} {c : Prop} [Decidable c] {a b : State} (ha : Kept kq kn a) (hb : Kept kq kn b) :
    Kept kq kn (if c then a else b) := by split <;> assumption

theorem Kept.foldFst {kq kn} {α β : Type} {l : List β} {f : State × α → β → State × α} {a : State × α}
    (hf : ∀ a b, Kept kq kn a.1 → Kept kq kn (f a b).1) (h : Kept kq kn a.1) : Kept kq kn (l.foldl f a).1 :=
  List.foldlRecOn (motive := fun a => Kept kq kn a.1) l f h (fun a ha b _ => hf a b ha)

theorem Kept.fold {kq kn} {β : Type} {l : List β} {f : State → β → State} {a : State}
    (hf : ∀ a b, Kept kq kn a → Kept kq kn (f a b)) (h : Kept kq kn a) : Kept kq kn (l.foldl f a) :=
  List.foldlRecOn (motive := Kept kq kn) l f h (fun a ha b _ => hf a b ha)

@[simp] theorem Kept.fset {kq kn} (s : State) (a : Nat) (f : Bits) (v : Nat) (hs : Kept kq kn s) : Kept kq kn (State.fset s a f v) := by
  unfold State.fset; simp [hs]

@[simp] theorem Kept.fadd {kq kn} (s : State) (a : Nat) (f : Bits) (n : Nat) (hs : Kept kq kn s) : Kept kq kn (State.fadd s a f n) := by
  unfold State.fadd; simp [hs]

theorem Kept.act {kq kn} {s t u : State} {p : Bool} (hs : Kept kq kn s) (ht : Kept kq kn t) (h : s.act p t = .next u) :
    Kept kq kn u := by
  unfold State.act at h; cases h; split <;> assumption

@[simp] theorem Kept.bump {kq kn} (s : State) (hs : Kept kq kn s) : Kept kq kn (State.bump s) := by
  unfold State.bump; simp [hs]

@[simp] theorem Kept.emit {kq kn} (s : State) (o : Output) (hs : Kept kq kn s) : Kept kq kn (State.emit s o) := by
  unfold State.emit; simp [hs]

@[simp] theorem Kept.setOwner {kq kn} (s : State) (res o : Nat) (hs : Kept kq kn s) : Kept kq kn (State.setOwner s res o) := by
  unfold State.setOwner; simp [hs]

@[simp] theorem Kept.notOwner {kq kn} (s : State) (m : Master) (hs : Kept kq kn s) : Kept kq kn (State.notOwner s m) := by
  unfold State.notOwner; simp [hs]

@[simp] theorem Kept.badAccess {kq kn} (s : State) (m : Master) (hs : Kept kq kn s) : Kept kq kn (State.badAccess s m) := by
  unfold State.badAccess; simp [hs]

@[simp] theorem Kept.denied {kq kn} (s : State) (hs : Kept kq kn s) : Kept kq kn (State.denied s) := by
  unfold State.denied; simp [hs]

@[simp] theorem Kept.hostRead {kq kn} (s : State) (card addr n : Nat) (hs : Kept kq kn s) : Kept kq kn (State.hostRead s card addr n) := by
  unfold State.hostRead; simp [hs]

@[simp] theorem Kept.restartTick {kq kn} (s : State) (k : Nat) (hs : Kept kq kn s) : Kept kq kn (State.restartTick s k) := by
  unfold State.restartTick; simp [hs]

@[simp] theorem Kept.shedTick {kq kn} (s : State) (hs : Kept kq kn s) : Kept kq kn (State.shedTick s) := by
  unfold State.shedTick; simp [hs]

@[simp] theorem Kept.logEvent {kq kn} {s : State} (source code sev unit detail : Nat) (banded : Option Nat) (h : Kept kq kn s) :
    Kept kq kn (s.logEvent source code sev unit detail banded) := by
  have hl : s.aon.log.length ≤ 4096 := h.2.1
  have hk : ∀ (l : List (BitVec 256)) b lost, l.length ≤ 4096 →
      Kept kq kn { s with aon := { s.aon with log := l, nextSeq := b, lost := lost } } := fun l _ _ hh => ⟨h.1, hh, h.2.2⟩
  unfold State.logEvent
  dsimp only
  repeat' split
  all_goals (repeat apply Kept.fset)
  all_goals first | exact h | (apply hk; simp_all; try omega)

@[simp] theorem Kept.logUnit {kq kn} (s : State) (source code sev unit : Nat) (detail : Nat) (hs : Kept kq kn s) : Kept kq kn (State.logUnit s source code sev unit detail) := by
  unfold State.logUnit; simp [hs]

@[simp] theorem Kept.addPoints {kq kn} (s : State) (unit n : Nat) (hs : Kept kq kn s) : Kept kq kn (State.addPoints s unit n) := by
  unfold State.addPoints; simp [hs]

@[simp] theorem Kept.setPend {kq kn} (s : State) (card vector v : Nat) (hs : Kept kq kn s) : Kept kq kn (State.setPend s card vector v) := by
  unfold State.setPend; simp [hs]

@[simp] theorem Kept.msix {kq kn} (s : State) (card vector : Nat) (hs : Kept kq kn s) : Kept kq kn (State.msix s card vector) := by
  unfold State.msix; simp [hs]

@[simp] theorem Kept.unmask {kq kn} (s : State) (card vector : Nat) (hs : Kept kq kn s) : Kept kq kn (State.unmask s card vector) := by
  unfold State.unmask; split <;> simp [hs]

@[simp] theorem Kept.setLive {kq kn} (s : State) (port : Nat) (v : Bool) (hs : Kept kq kn s) : Kept kq kn (State.setLive s port v) := by
  unfold State.setLive; dsimp only; (repeat' split) <;> simp +contextual (maxDischargeDepth := 60) [*]

@[simp] theorem Kept.resTake {kq kn} (s : State) (e user : Nat) (hs : Kept kq kn s) : Kept kq kn (State.resTake s e user) := by
  unfold State.resTake; simp [hs]

@[simp] theorem Kept.resFree {kq kn} (s : State) (e : Nat) (hs : Kept kq kn s) : Kept kq kn (State.resFree s e) := by
  unfold State.resFree; simp [hs]

@[simp] theorem Kept.setLost {kq kn} (s : State) (t : Tab Nat) (hs : Kept kq kn s) : Kept kq kn (State.setLost s t) := by
  unfold State.setLost; simp [hs]

@[simp] theorem Kept.setJob {kq kn} (s : State) (j : Nat) (b : Job) (hs : Kept kq kn s) : Kept kq kn (State.setJob s j b) := by
  unfold State.setJob; simp [hs]

@[simp] theorem Kept.modJob {kq kn} (s : State) (j : Nat) (f : Job → Job) (hs : Kept kq kn s) : Kept kq kn (State.modJob s j f) := by
  unfold State.modJob; simp [hs]

@[simp] theorem Kept.modCtx {kq kn} (s : State) (r : Ref) (f : Ctx → Ctx) (hs : Kept kq kn s) : Kept kq kn (State.modCtx s r f) := by
  unfold State.modCtx; simp [hs]

@[simp] theorem Kept.endCmd {kq kn} (s : State) (r : Ref) (st : Nat) (hs : Kept kq kn s) : Kept kq kn (State.endCmd s r st) := by
  unfold State.endCmd; simp [hs]

@[simp] theorem Kept.rejectCmd {kq kn} (s : State) (r : Ref) (st : Nat) (hs : Kept kq kn s) : Kept kq kn (State.rejectCmd s r st) := by
  unfold State.rejectCmd; simp [hs]

@[simp] theorem Kept.setRingState {kq kn} (s : State) (n st : Nat) (hs : Kept kq kn s) : Kept kq kn (State.setRingState s n st) := by
  unfold State.setRingState; simp [hs]

@[simp] theorem Kept.haltRing {kq kn} (s : State) (n cause : Nat) (hs : Kept kq kn s) : Kept kq kn (State.haltRing s n cause) := by
  unfold State.haltRing; simp [hs]

@[simp] theorem Kept.setRingX {kq kn} (s : State) (n : Nat) (x : RingX) (hs : Kept kq kn s) : Kept kq kn (State.setRingX s n x) := by
  unfold State.setRingX; simp [hs]

@[simp] theorem Kept.idleRing {kq kn} (s : State) (n : Nat) (hs : Kept kq kn s) : Kept kq kn (State.idleRing s n) := by
  unfold State.idleRing; simp [hs]

@[simp] theorem Kept.countLaunches {kq kn} (s : State) (hs : Kept kq kn s) : Kept kq kn (State.countLaunches s) := by
  unfold State.countLaunches; simp [hs]

@[simp] theorem Kept.accept {kq kn} (s : State) (ring : Nat) (d : BitVec 512) (hs : Kept kq kn s) : Kept kq kn (State.accept s ring d) := by
  unfold State.accept; simp +contextual (maxDischargeDepth := 60) [hs]

@[simp] theorem Kept.hostReadErr {kq kn} (s : State) (card ring : Nat) (job : Option Nat) (hs : Kept kq kn s) : Kept kq kn (State.hostReadErr s card ring job) := by
  unfold State.hostReadErr; simp [hs]

@[simp] theorem Kept.setEvent {kq kn} (s : State) (e : Nat) (v : Event) (hs : Kept kq kn s) : Kept kq kn (State.setEvent s e v) := by
  unfold State.setEvent; simp [hs]

@[simp] theorem Kept.signal {kq kn} (s : State) (e : Nat) (hs : Kept kq kn s) : Kept kq kn (State.signal s e) := by
  unfold State.signal; simp [hs]

@[simp] theorem Kept.ringMsix {kq kn} (s : State) (n : Nat) (hs : Kept kq kn s) : Kept kq kn (State.ringMsix s n) := by
  unfold State.ringMsix; simp [hs]

@[simp] theorem Kept.ringDue {kq kn} (s : State) (n : Nat) (hs : Kept kq kn s) : Kept kq kn (State.ringDue s n) := by
  unfold State.ringDue; simp [hs]

@[simp] theorem Kept.coalesce {kq kn} (s : State) (n : Nat) (hs : Kept kq kn s) : Kept kq kn (State.coalesce s n) := by
  unfold State.coalesce; simp +contextual (maxDischargeDepth := 60) [hs]

@[simp] theorem Kept.writeCpl {kq kn} (s : State) (h : HeldCpl) (hs : Kept kq kn s) : Kept kq kn (State.writeCpl s h) := by
  unfold State.writeCpl; (repeat' split) <;> simp +contextual (maxDischargeDepth := 60) [hs]

@[simp] theorem Kept.deliver {kq kn} (s : State) (h : HeldCpl) (hs : Kept kq kn s) : Kept kq kn (State.deliver s h) := by
  unfold State.deliver; simp [hs]

theorem Kept.stepClose {kq kn} (s : State) (c : Ctx) (hs : Kept kq kn s) : Kept kq kn (s.stepClose c).1 := by
  unfold State.stepClose
  dsimp only
  split <;> simp +contextual (maxDischargeDepth := 60) [hs]

@[simp] theorem Kept.fetchClose {kq kn} (s : State) (c : Ctx) (hs : Kept kq kn s) : Kept kq kn (State.fetchClose s c) := by
  unfold State.fetchClose; split <;> simp [hs]

@[simp] theorem Kept.parkClose {kq kn} (s : State) (c : Ctx) (hs : Kept kq kn s) : Kept kq kn (State.parkClose s c) := by
  unfold State.parkClose; simp [hs]

@[simp] theorem Kept.checkpointOff {kq kn} (s : State) (j : Nat) (hs : Kept kq kn s) : Kept kq kn (State.checkpointOff s j) := by
  unfold State.checkpointOff; simp [hs]

@[simp] theorem Kept.checkpointClose {kq kn} (s : State) (c : Ctx) (hs : Kept kq kn s) : Kept kq kn (State.checkpointClose s c) := by
  unfold State.checkpointClose; simp [hs]

@[simp] theorem Kept.rewait {kq kn} (s : State) (hs : Kept kq kn s) : Kept kq kn (State.rewait s) := by
  unfold State.rewait; simp [hs]

@[simp] theorem Kept.eventSet {kq kn} (s : State) (x : EvSet) (count target : Nat) (hs : Kept kq kn s) : Kept kq kn (State.eventSet s x count target) := by
  unfold State.eventSet; simp +contextual (maxDischargeDepth := 60) [hs]

@[simp] theorem Kept.nopClose {kq kn} (s : State) (c : Ctx) (hs : Kept kq kn s) : Kept kq kn (State.nopClose s c) := by
  unfold State.nopClose; simp [hs]

@[simp] theorem Kept.complete {kq kn} (s : State) (c : Ctx) (hs : Kept kq kn s) : Kept kq kn (State.complete s c) := by
  unfold State.complete
  have h1 : Kept kq kn (((((s.nopClose c).fetchClose c).parkClose c).checkpointClose c).stepClose (s.launchClose c)).1 :=
    Kept.stepClose _ _ (Kept.checkpointClose _ _ (Kept.parkClose _ _ (Kept.fetchClose _ _ (Kept.nopClose _ _ hs))))
  generalize ((((s.nopClose c).fetchClose c).parkClose c).checkpointClose c).stepClose (s.launchClose c) = a at h1
  obtain ⟨s', c'⟩ := a
  dsimp only at h1 ⊢
  have hx : ∀ (t : State) x, Kept kq kn t → Kept kq kn { t with xb := x } := fun _ _ h => h
  refine Kept.ite (Kept.idleRing _ _ (Kept.ite (hx _ _ ?_) ?_)) (Kept.ite (hx _ _ ?_) ?_) <;> simp +contextual (maxDischargeDepth := 60) [h1]

@[simp] theorem Kept.ringDoorbell {kq kn} (s : State) (n : Nat) (half : Half) (v : Word64) (hs : Kept kq kn s) : Kept kq kn (State.ringDoorbell s n half v) := by
  unfold State.ringDoorbell; (repeat' split) <;> simp +contextual (maxDischargeDepth := 60) [hs]

@[simp] theorem Kept.ringConfig {kq kn} (s : State) (n : Nat) (v : Word32) (hs : Kept kq kn s) : Kept kq kn (State.ringConfig s n v) := by
  unfold State.ringConfig; split <;> simp [hs]

@[simp] theorem Kept.startRing {kq kn} (s : State) (n : Nat) (hs : Kept kq kn s) : Kept kq kn (State.startRing s n) := by
  unfold State.startRing; simp +contextual (maxDischargeDepth := 60) [hs]

@[simp] theorem Kept.flushHeld {kq kn} (s : State) (hs : Kept kq kn s) : Kept kq kn (State.flushHeld s) := by
  unfold State.flushHeld; simp +contextual (maxDischargeDepth := 60) [hs]

theorem Kept.stay {kq kn} {s u : State} (hs : Kept kq kn s)
    (h : (Host.Outcome.next s : Host.Outcome State Fault Refusal) = .next u) : Kept kq kn u := by cases h; exact hs

theorem Kept.issue {kq kn} {s u : State} {c op f} (hs : Kept kq kn s) (hf : ∀ x, Kept kq kn (f x)) (h : s.issue c op f = .next u) :
    Kept kq kn u := by
  unfold State.issue at h; split at h
  · exact Kept.stay hs h
  · exact Kept.act hs (hf _) h

@[simp] theorem Kept.launchEnd {kq kn} (s : State) (x : Ctx) (st : Nat) (sig : Bool) (hs : Kept kq kn s) : Kept kq kn (State.launchEnd s x st sig) := by
  unfold State.launchEnd; simp +contextual (maxDischargeDepth := 60) [hs]

@[simp] theorem Kept.launchFire {kq kn} (s : State) (x : Ctx) (st : Nat) (hs : Kept kq kn s) : Kept kq kn (State.launchFire s x st) := by
  unfold State.launchFire; simp [hs]

@[simp] theorem Kept.countAt {kq kn} (s : State) (reg : Nat → Nat) (io n : Nat) (hs : Kept kq kn s) : Kept kq kn (State.countAt s reg io n) := by
  unfold State.countAt; simp [hs]

@[simp] theorem Kept.telemDrops {kq kn} (s : State) (io n : Nat) (hs : Kept kq kn s) : Kept kq kn (State.telemDrops s io n) := by
  unfold State.telemDrops; simp [hs]

@[simp] theorem Kept.modPk {kq kn} (s : State) (pid : Nat) (f : Pk → Pk) (hs : Kept kq kn s) : Kept kq kn (State.modPk s pid f) := by
  unfold State.modPk; simp [hs]

@[simp] theorem Kept.modCopy {kq kn} (s : State) (id : Nat) (f : Copy → Copy) (hs : Kept kq kn s) : Kept kq kn (State.modCopy s id f) := by
  unfold State.modCopy; simp [hs]

@[simp] theorem Kept.setPoolFree {kq kn} (s : State) (die pool n : Nat) (hs : Kept kq kn s) : Kept kq kn (State.setPoolFree s die pool n) := by
  unfold State.setPoolFree; simp [hs]

@[simp] theorem Kept.poolQueue {kq kn} (s : State) (die pool : Nat) (u : PoolUse) (hs : Kept kq kn s) : Kept kq kn (State.poolQueue s die pool u) := by
  unfold State.poolQueue; simp [hs]

@[simp] theorem Kept.askBuffer {kq kn} (s : State) (n : Nat) (u : PoolUse) (go : State → Nat → Nat → State)
    (hgo : ∀ s a b, Kept kq kn s → Kept kq kn (go s a b)) (hs : Kept kq kn s) : Kept kq kn (State.askBuffer s n u go) := by
  unfold State.askBuffer
  split
  · exact hs
  · exact Kept.ite (by simp [hs]) (hgo _ _ _ (by simp [hs]))

@[simp] theorem Kept.mirrorWrite {kq kn} (s : State) (n : Nat) (k : Pk) (ev reason out hdr : Nat) (hs : Kept kq kn s) : Kept kq kn (State.mirrorWrite s n k ev reason out hdr) := by
  unfold State.mirrorWrite; simp +contextual (maxDischargeDepth := 60) [hs]

theorem Kept.mirrorOne {kq kn} (ev reason out hdr : Nat) (a : State × Pk) (n : Nat) (hs : Kept kq kn a.1) :
    Kept kq kn (State.mirrorOne ev reason out hdr a n).1 := by
  unfold State.mirrorOne
  dsimp only
  (repeat' split) <;> simp +contextual (maxDischargeDepth := 60) [hs]

theorem Kept.mirror {kq kn} (s : State) (k : Pk) (ev reason out hdr : Nat) (hs : Kept kq kn s) :
    Kept kq kn (s.mirror k ev reason out hdr).1 := by
  unfold State.mirror
  exact Kept.foldFst (fun a n h => Kept.mirrorOne ev reason out hdr a n h) hs

@[simp] theorem Kept.mirrorAt {kq kn} (s : State) (pid ev reason out : Nat) (hs : Kept kq kn s) : Kept kq kn (s.mirrorAt pid ev reason out) := by
  unfold State.mirrorAt
  split
  · exact hs
  · exact Kept.modPk _ _ _ (Kept.mirror _ _ _ _ _ _ hs)

@[simp] theorem Kept.mirrorTaken {kq kn} (s : State) (reason : Nat) (hs : Kept kq kn s) : Kept kq kn (s.mirrorTaken reason) := by
  unfold State.mirrorTaken
  split
  · exact hs
  · exact Kept.mirror s _ 2 reason inEngines _ hs

@[simp] theorem Kept.generated {kq kn} (s : State) (p : Packet) (unit : Nat) (hs : Kept kq kn s) : Kept kq kn (State.generated s p unit) := by
  unfold State.generated; simp [hs]

@[simp] theorem Kept.takeBuffer {kq kn} (s : State) (p : Packet) (unit die pool : Nat) (hs : Kept kq kn s) : Kept kq kn (State.takeBuffer s p unit die pool) := by
  unfold State.takeBuffer; simp +contextual (maxDischargeDepth := 60) [hs]

@[simp] theorem Kept.sendUnit {kq kn} (s : State) (p : Packet) (unit : Nat) (hs : Kept kq kn s) : Kept kq kn (State.sendUnit s p unit) := by
  unfold State.sendUnit
  exact Kept.ite (by simp [hs]) (Kept.askBuffer _ _ _ _ (fun s a b h => by simp [h]) hs)

@[simp] theorem Kept.send {kq kn} (s : State) (p : Packet) (hs : Kept kq kn s) : Kept kq kn (State.send s p) := by
  unfold State.send; simp [hs]

@[simp] theorem Kept.setOp {kq kn} (s : State) (o : Op) (hs : Kept kq kn s) : Kept kq kn (State.setOp s o) := by
  unfold State.setOp; simp [hs]

@[simp] theorem Kept.late {kq kn} (s : State) (p : Packet) (hs : Kept kq kn s) : Kept kq kn (State.late s p) := by
  unfold State.late; simp [hs]

@[simp] theorem Kept.downDrop {kq kn} (s : State) (port n : Nat) (hs : Kept kq kn s) : Kept kq kn (State.downDrop s port n) := by
  unfold State.downDrop; simp [hs]

@[simp] theorem Kept.setLink {kq kn} (s : State) (l : Nat) (x : Link) (hs : Kept kq kn s) : Kept kq kn (State.setLink s l x) := by
  unfold State.setLink; simp [hs]

@[simp] theorem Kept.poolFault {kq kn} (s : State) (code die pool no job engine : Nat) (hs : Kept kq kn s) : Kept kq kn (State.poolFault s code die pool no job engine) := by
  unfold State.poolFault; simp [hs]

@[simp] theorem Kept.countFault {kq kn} (s : State) (k : Pk) (i code : Nat) (hs : Kept kq kn s) : Kept kq kn (State.countFault s k i code) := by
  unfold State.countFault; simp [hs]

@[simp] theorem Kept.holdPk {kq kn} (s : State) (pid : Nat) (hs : Kept kq kn s) : Kept kq kn (State.holdPk s pid) := by
  unfold State.holdPk; (repeat' split) <;> first | exact hs | simp [hs]

@[simp] theorem Kept.releaseCell {kq kn} (s : State) (pid i : Nat) (hs : Kept kq kn s) : Kept kq kn (State.releaseCell s pid i) := by
  unfold State.releaseCell; (repeat' split) <;> first | exact hs | simp [hs]

@[simp] theorem Kept.releaseFrom {kq kn} (s : State) (pid i : Nat) (hs : Kept kq kn s) : Kept kq kn (State.releaseFrom s pid i) := by
  unfold State.releaseFrom
  split
  · exact hs
  · exact Kept.each (fun s x h => by simp [h]) hs

@[simp] theorem Kept.releaseBuffer {kq kn} (s : State) (p : Packet) (hs : Kept kq kn s) : Kept kq kn (State.releaseBuffer s p) := by
  unfold State.releaseBuffer; (repeat' split) <;> simp [hs]

@[simp] theorem Kept.freeCells {kq kn} (s : State) (die n : Nat) (hs : Kept kq kn s) : Kept kq kn (State.freeCells s die n) := by
  unfold State.freeCells; simp [hs]

@[simp] theorem Kept.creditBack {kq kn} (s : State) (l cls n : Nat) (hs : Kept kq kn s) : Kept kq kn (State.creditBack s l cls n) := by
  unfold State.creditBack; simp [hs]

@[simp] theorem Kept.cellsGone {kq kn} (s : State) (k : Pk) (n : Nat) (hs : Kept kq kn s) : Kept kq kn (State.cellsGone s k n) := by
  unfold State.cellsGone; split <;> simp [hs]

@[simp] theorem Kept.settlePk {kq kn} (s : State) (pid : Nat) (hs : Kept kq kn s) : Kept kq kn (State.settlePk s pid) := by
  unfold State.settlePk; (repeat' split) <;> simp +contextual (maxDischargeDepth := 60) [hs]

@[simp] theorem Kept.dropCopy {kq kn} (s : State) (c : Copy) (hs : Kept kq kn s) : Kept kq kn (State.dropCopy s c) := by
  unfold State.dropCopy; (repeat' split) <;> simp +contextual (maxDischargeDepth := 60) [hs]

@[simp] theorem Kept.taken {kq kn} (s : State) (p : Packet) (hs : Kept kq kn s) : Kept kq kn (State.taken s p) := by
  unfold State.taken; dsimp only; (repeat' split) <;> simp +contextual (maxDischargeDepth := 60) [*]

@[simp] theorem Kept.holdValues {kq kn} (s : State) (port : Nat) (p : Packet) (l : List BedVal) (hs : Kept kq kn s) : Kept kq kn (State.holdValues s port p l) := by
  unfold State.holdValues; simp [hs]

@[simp] theorem Kept.queueValues {kq kn} (s : State) (port : Nat) (p : Packet) (l : List BedVal) (hs : Kept kq kn s) : Kept kq kn (State.queueValues s port p l) := by
  unfold State.queueValues; (repeat' split) <;> simp [hs]

@[simp] theorem Kept.atStop {kq kn} (s : State) (k : Pk) (hs : Kept kq kn s) : Kept kq kn (State.atStop s k) := by
  unfold State.atStop; simp [hs]

@[simp] theorem Kept.withdraw {kq kn} (s : State) (o : Op) (hs : Kept kq kn s) : Kept kq kn (State.withdraw s o) := by
  unfold State.withdraw; simp +contextual (maxDischargeDepth := 60) [hs]

@[simp] theorem Kept.freeSlots {kq kn} (s : State) (o : Op) (hs : Kept kq kn s) : Kept kq kn (State.freeSlots s o) := by
  unfold State.freeSlots; simp +contextual (maxDischargeDepth := 60) [hs]

@[simp] theorem Kept.finishOp {kq kn} (s : State) (o : Op) (st : Nat) (hs : Kept kq kn s) : Kept kq kn (State.finishOp s o st) := by
  unfold State.finishOp; simp [hs]

@[simp] theorem Kept.control {kq kn} (s : State) (o : Op) (sub dest : Nat) (payload : Bytes) (hs : Kept kq kn s) : Kept kq kn (State.control s o sub dest payload) := by
  unfold State.control; simp [hs]

@[simp] theorem Kept.readyPort {kq kn} (s : State) (o : Op) (sub port : Nat) (hs : Kept kq kn s) : Kept kq kn (State.readyPort s o sub port) := by
  unfold State.readyPort; simp [hs]

@[simp] theorem Kept.readyNotices {kq kn} (s : State) (o : Op) (sub : Nat) (hs : Kept kq kn s) : Kept kq kn (State.readyNotices s o sub) := by
  unfold State.readyNotices; simp +contextual (maxDischargeDepth := 60) [hs]

@[simp] theorem Kept.abortNotices {kq kn} (s : State) (o : Op) (st coord : Nat) (src : AbortFrom) (hs : Kept kq kn s) : Kept kq kn (State.abortNotices s o st coord src) := by
  unfold State.abortNotices; (repeat' split) <;> simp +contextual (maxDischargeDepth := 60) [hs]

@[simp] theorem Kept.abortOp {kq kn} (s : State) (o : Op) (st : Nat) (src : AbortFrom) (origin : Option (Nat × Nat)) (hs : Kept kq kn s) : Kept kq kn (State.abortOp s o st src origin) := by
  unfold State.abortOp; simp +contextual (maxDischargeDepth := 60) [hs]

@[simp] theorem Kept.abortOwn {kq kn} (s : State) (o : Op) (st : Nat) (hs : Kept kq kn s) : Kept kq kn (State.abortOwn s o st) := by
  unfold State.abortOwn; simp [hs]

@[simp] theorem Kept.endNorm {kq kn} (s : State) (r : NormRun) (hs : Kept kq kn s) : Kept kq kn (State.endNorm s r) := by
  unfold State.endNorm; simp [hs]

@[simp] theorem Kept.failNorm {kq kn} (s : State) (r : NormRun) (st : Nat) (hs : Kept kq kn s) : Kept kq kn (State.failNorm s r st) := by
  unfold State.failNorm; simp [hs]

@[simp] theorem Kept.bufferCell {kq kn} (s : State) (port : Nat) (p : Packet) (hs : Kept kq kn s) : Kept kq kn (State.bufferCell s port p) := by
  unfold State.bufferCell; (repeat' split) <;> simp +contextual (maxDischargeDepth := 60) [hs]

theorem Kept.arrive {kq kn} (s : State) (port : Nat) (p : Packet) (f : State → State)
    (hf : ∀ s, Kept kq kn s → Kept kq kn (f s)) (hs : Kept kq kn s) : Kept kq kn (s.arrive port p f) := by
  unfold State.arrive
  dsimp only
  repeat' split
  · simp [hs]
  · simp (maxDischargeDepth := 60) [hs]
  · exact hf _ (by simp [hs])

@[simp] theorem Kept.fenceOp {kq kn} (s : State) (member : Nat) (o : Op) (hs : Kept kq kn s) : Kept kq kn (State.fenceOp s member o) := by
  unfold State.fenceOp; simp [hs]

@[simp] theorem Kept.queueTagged {kq kn} (s : State) (c : Ref) (fail : Option Nat) (hs : Kept kq kn s) : Kept kq kn (State.queueTagged s c fail) := by
  unfold State.queueTagged; split <;> simp [hs]

@[simp] theorem Kept.stampEligible {kq kn} (s : State) (hs : Kept kq kn s) : Kept kq kn (State.stampEligible s) := by
  unfold State.stampEligible; simp [hs]

@[simp] theorem Kept.spillCheck {kq kn} (s : State) (h : Held) (hs : Kept kq kn s) : Kept kq kn (State.spillCheck s h) := by
  unfold State.spillCheck; simp +contextual (maxDischargeDepth := 60) [hs]

@[simp] theorem Kept.spill {kq kn} (s : State) (h : Held) (hs : Kept kq kn s) : Kept kq kn (State.spill s h) := by
  unfold State.spill
  exact Kept.bump _ (Kept.modJob _ _ _ (Kept.spillCheck s h hs))

theorem Kept.spillUntil {kq kn} (n : Nat) (l : List Held) (s : State) (hs : Kept kq kn s) : Kept kq kn (State.spillUntil n l s) := by
  induction l generalizing s with
  | nil => exact hs
  | cons x l ih =>
    unfold State.spillUntil
    split
    · exact hs
    · exact ih _ (Kept.spill s x hs)

theorem Kept.makeRoom {kq kn} {s t : State} {n : Nat} (hs : Kept kq kn s) (h : s.makeRoom n = some t) : Kept kq kn t := by
  unfold State.makeRoom at h
  dsimp only at h
  split at h
  · cases h; exact Kept.spillUntil n _ s hs
  · cases h

@[simp] theorem Kept.dropHeld {kq kn} (s : State) (h : Held) (hs : Kept kq kn s) : Kept kq kn (State.dropHeld s h) := by
  unfold State.dropHeld; simp [hs]

@[simp] theorem Kept.settleData {kq kn} (s : State) (job tag : Nat) (hs : Kept kq kn s) : Kept kq kn (State.settleData s job tag) := by
  unfold State.settleData; split <;> simp [hs]

@[simp] theorem Kept.staleCells {kq kn} (s : State) (o : Op) (n : Nat) (hs : Kept kq kn s) : Kept kq kn (State.staleCells s o n) := by
  unfold State.staleCells; simp [hs]

@[simp] theorem Kept.foreignCells {kq kn} (s : State) (o : Op) (p : Packet) (hs : Kept kq kn s) : Kept kq kn (State.foreignCells s o p) := by
  unfold State.foreignCells; simp [hs]

@[simp] theorem Kept.strayCells {kq kn} (s : State) (p : Packet) (hs : Kept kq kn s) : Kept kq kn (State.strayCells s p) := by
  unfold State.strayCells; simp [hs]

@[simp] theorem Kept.bedFault {kq kn} (s : State) (src code bed points : Nat) (o : Op) (hs : Kept kq kn s) : Kept kq kn (State.bedFault s src code bed points o) := by
  unfold State.bedFault; simp +contextual (maxDischargeDepth := 60) [hs]

@[simp] theorem Kept.bedUpset {kq kn} (s : State) (u : Upset) (code bed : Nat) (o : Op) (hs : Kept kq kn s) : Kept kq kn (State.bedUpset s u code bed o) := by
  unfold State.bedUpset; (repeat' split) <;> simp +contextual (maxDischargeDepth := 60) [hs]

@[simp] theorem Kept.stripeTaken {kq kn} (s : State) (o : Op) (k : Nat) (hs : Kept kq kn s) : Kept kq kn (State.stripeTaken s o k) := by
  unfold State.stripeTaken; simp [hs]

@[simp] theorem Kept.xpFault {kq kn} (s : State) (o : Op) (k src : Nat) (hs : Kept kq kn s) : Kept kq kn (State.xpFault s o k src) := by
  unfold State.xpFault; simp +contextual (maxDischargeDepth := 60) [hs]

@[simp] theorem Kept.sendChunk {kq kn} (s : State) (o : Op) (j : Nat) (hs : Kept kq kn s) : Kept kq kn (State.sendChunk s o j) := by
  unfold State.sendChunk; simp +contextual (maxDischargeDepth := 60) [hs]

@[simp] theorem Kept.chunkUpset {kq kn} (s : State) (u : Upset) (code : Nat) (o : Op) (j : Nat) (hs : Kept kq kn s) : Kept kq kn (State.chunkUpset s u code o j) := by
  unfold State.chunkUpset; simp [hs]

@[simp] theorem Kept.sendResult {kq kn} (s : State) (o : Op) (a n : Nat) (last : Bool) (member : Option Nat) (hs : Kept kq kn s) : Kept kq kn (State.sendResult s o a n last member) := by
  unfold State.sendResult; dsimp only; (repeat' split) <;> simp +contextual (maxDischargeDepth := 60) [*]

@[simp] theorem Kept.sendRun {kq kn} (s : State) (o : Op) (a n : Nat) (ends : Bool) (member : Option Nat) (hs : Kept kq kn s) : Kept kq kn (State.sendRun s o a n ends member) := by
  unfold State.sendRun; simp +contextual (maxDischargeDepth := 60) [hs]

@[simp] theorem Kept.readout {kq kn} (s : State) (o : Op) (j : Nat) (hs : Kept kq kn s) : Kept kq kn (s.readout o j) := by
  unfold State.readout
  dsimp only
  repeat' split
  · simp [hs]
  · refine Kept.each (fun s x h => ?_) hs
    split <;> simp [h]
  · exact hs

@[simp] theorem Kept.rootDone {kq kn} (s : State) (o : Op) (hs : Kept kq kn s) : Kept kq kn (State.rootDone s o) := by
  unfold State.rootDone; simp +contextual (maxDischargeDepth := 60) [hs]

@[simp] theorem Kept.evalDeadline {kq kn} (s : State) (o : Op) (hs : Kept kq kn s) : Kept kq kn (State.evalDeadline s o) := by
  unfold State.evalDeadline; simp [hs]

@[simp] theorem Kept.deadlines {kq kn} (s : State) (hs : Kept kq kn s) : Kept kq kn (State.deadlines s) := by
  unfold State.deadlines
  refine Kept.each (fun s x h => ?_) hs
  (repeat' split) <;> first | exact h | simp [h]

@[simp] theorem Kept.keepCounts {kq kn} (s : State) (p : Packet) (hs : Kept kq kn s) : Kept kq kn (State.keepCounts s p) := by
  unfold State.keepCounts; simp [hs]

theorem Kept.dataIn {kq kn} {s u : State} {port p sub f} (hs : Kept kq kn s) (hf : ∀ s o, Kept kq kn s → Kept kq kn (f s o))
    (h : s.dataIn port p sub f = .next u) : Kept kq kn u := by
  unfold State.dataIn at h
  refine Kept.act hs ?_ h
  dsimp only
  (repeat' split) <;> first | exact hf _ _ (by simp [hs]) | simp [hs]

@[simp] theorem Kept.foreignData {kq kn} (s : State) (o : Op) (p : Packet) (hs : Kept kq kn s) : Kept kq kn (State.foreignData s o p) := by
  unfold State.foreignData; simp [hs]

theorem Kept.acceptData {kq kn} (s : State) (o : Op) (port n : Nat) (f : State → Op → State)
    (hf : ∀ s o, Kept kq kn s → Kept kq kn (f s o)) (hs : Kept kq kn s) : Kept kq kn (s.acceptData o port n f) := by
  unfold State.acceptData
  dsimp only
  split
  · simp +contextual (maxDischargeDepth := 60) [hs]
  · exact hf _ _ (by simp +contextual (maxDischargeDepth := 60) [hs])

@[simp] theorem Kept.sendData {kq kn} (s : State) (o : Op) (toPart dest offset member sub : Nat) (payload : Bytes) (hs : Kept kq kn s) : Kept kq kn (State.sendData s o toPart dest offset member sub payload) := by
  unfold State.sendData; simp [hs]

@[simp] theorem Kept.sendGather {kq kn} (s : State) (job tag a n : Nat) (b : Bytes) (c : Cnt) (hs : Kept kq kn s) : Kept kq kn (State.sendGather s job tag a n b c) := by
  unfold State.sendGather; split <;> simp [hs]

@[simp] theorem Kept.gatherOn {kq kn} (s : State) (o : Op) (a n : Nat) (b : Bytes) (hs : Kept kq kn s) : Kept kq kn (State.gatherOn s o a n b) := by
  unfold State.gatherOn; simp +contextual (maxDischargeDepth := 60) [hs]

@[simp] theorem Kept.sendTables {kq kn} (s : State) (o : Op) (hs : Kept kq kn s) : Kept kq kn (s.sendTables o) := by
  unfold State.sendTables
  refine Kept.each (fun s p h => ?_) hs
  split <;> simp +contextual (maxDischargeDepth := 60) [h]

@[simp] theorem Kept.permuteReady {kq kn} (s : State) (job tag : Nat) (hs : Kept kq kn s) : Kept kq kn (State.permuteReady s job tag) := by
  unfold State.permuteReady; (repeat' split) <;> simp +contextual (maxDischargeDepth := 60) [hs]

@[simp] theorem Kept.countsHere {kq kn} (s : State) (o : Op) (hs : Kept kq kn s) : Kept kq kn (State.countsHere s o) := by
  unfold State.countsHere; simp +contextual (maxDischargeDepth := 60) [hs]

@[simp] theorem Kept.countsIn {kq kn} (s : State) (job tag : Nat) (port : Option Nat) (p : Packet) (hs : Kept kq kn s) : Kept kq kn (State.countsIn s job tag port p) := by
  unfold State.countsIn; (repeat' split) <;> simp +contextual (maxDischargeDepth := 60) [hs]

@[simp] theorem Kept.landRow {kq kn} (s : State) (job tag i r lo : Nat) (b : Bytes) (hs : Kept kq kn s) : Kept kq kn (State.landRow s job tag i r lo b) := by
  unfold State.landRow; dsimp only; (repeat' split) <;> simp +contextual (maxDischargeDepth := 60) [*]

@[simp] theorem Kept.landRows {kq kn} (s : State) (o : Op) (p : Packet) (hs : Kept kq kn s) : Kept kq kn (State.landRows s o p) := by
  unfold State.landRows; simp +contextual (maxDischargeDepth := 60) [hs]

@[simp] theorem Kept.takeIn {kq kn} (s : State) (x : Ctx) (place : List Nat) (hs : Kept kq kn s) : Kept kq kn (State.takeIn s x place) := by
  unfold State.takeIn; simp +contextual (maxDischargeDepth := 60) [hs]

@[simp] theorem Kept.admitSieve {kq kn} (s : State) (x : Ctx) (place : List Nat) (hs : Kept kq kn s) : Kept kq kn (State.admitSieve s x place) := by
  unfold State.admitSieve; simp +contextual (maxDischargeDepth := 60) [hs]

@[simp] theorem Kept.logHbm {kq kn} (s : State) (code job gen : Nat) (sectors : List Nat) (hs : Kept kq kn s) : Kept kq kn (State.logHbm s code job gen sectors) := by
  unfold State.logHbm; simp [hs]

@[simp] theorem Kept.normSend {kq kn} (s : State) (r : NormRun) (sub dest : Nat) (payload : Bytes) (hs : Kept kq kn s) : Kept kq kn (State.normSend s r sub dest payload) := by
  unfold State.normSend; simp [hs]

@[simp] theorem Kept.normSecond {kq kn} (s : State) (r : NormRun) (hs : Kept kq kn s) : Kept kq kn (State.normSecond s r) := by
  unfold State.normSecond; simp +contextual (maxDischargeDepth := 60) [hs]

@[simp] theorem Kept.normDone {kq kn} (s : State) (r : NormRun) (hs : Kept kq kn s) : Kept kq kn (State.normDone s r) := by
  unfold State.normDone; simp +contextual (maxDischargeDepth := 60) [hs]

@[simp] theorem Kept.normGo {kq kn} (s : State) (ring idx : Nat) (hs : Kept kq kn s) : Kept kq kn (State.normGo s ring idx) := by
  unfold State.normGo; dsimp only; (repeat' split) <;> simp +contextual (maxDischargeDepth := 60) [*]

@[simp] theorem Kept.rejectChecked {kq kn} (s : State) (c : Ref) (j gen st : Nat) (sectors : List Nat) (hs : Kept kq kn s) :
    Kept kq kn (State.rejectChecked s c j gen st sectors) := by
  unfold State.rejectChecked; split <;> simp [hs]

@[simp] theorem Kept.releaseGrads {kq kn} (s : State) (job tensor gen : Nat) (hs : Kept kq kn s) : Kept kq kn (State.releaseGrads s job tensor gen) := by
  unfold State.releaseGrads; simp +contextual (maxDischargeDepth := 60) [hs]

@[simp] theorem Kept.slotLost {kq kn} (s : State) (bed job gen : Nat) (hs : Kept kq kn s) : Kept kq kn (State.slotLost s bed job gen) := by
  unfold State.slotLost; simp [hs]

@[simp] theorem Kept.gradLost {kq kn} (s : State) (c : Ref) (h : Held) (hs : Kept kq kn s) : Kept kq kn (State.gradLost s c h) := by
  unfold State.gradLost; simp +contextual (maxDischargeDepth := 60) [hs]

@[simp] theorem Kept.normStart {kq kn} (s : State) (x : Ctx) (hs : Kept kq kn s) : Kept kq kn (State.normStart s x) := by
  unfold State.normStart; simp +contextual (maxDischargeDepth := 60) [hs]

@[simp] theorem Kept.heldResidue {kq kn} (s : State) (l : List Held) (u : Upset) (job gen : Nat) (hs : Kept kq kn s) : Kept kq kn (State.heldResidue s l u job gen) := by
  unfold State.heldResidue; simp +contextual (maxDischargeDepth := 60) [hs]

@[simp] theorem Kept.partFault {kq kn} (s : State) (job gen : Nat) (hs : Kept kq kn s) : Kept kq kn (State.partFault s job gen) := by
  unfold State.partFault; dsimp only; simp +contextual (maxDischargeDepth := 60) [hs]

@[simp] theorem Kept.normTake {kq kn} (s : State) (p : Packet) (m : NormMsg) (hs : Kept kq kn s) : Kept kq kn (State.normTake s p m) := by
  unfold State.normTake; simp +contextual (maxDischargeDepth := 60) [hs]

theorem Kept.stepTensor {kq kn} (x : Ctx) (n : NormRes) (a : State × StepRun) (e : Nat × Rec) (hs : Kept kq kn a.1) :
    Kept kq kn (State.stepTensor x n a e).1 := by
  unfold State.stepTensor
  dsimp only
  (repeat' split) <;> simp +contextual (maxDischargeDepth := 60) [hs]

@[simp] theorem Kept.passTensor {kq kn} (gen job : Nat) (s : State) (e : Nat × Rec) (hs : Kept kq kn s) : Kept kq kn (State.passTensor gen job s e) := by
  unfold State.passTensor; simp [hs]

@[simp] theorem Kept.sendStats {kq kn} (x : Ctx) (n : NormRes) (s : State) (e : Nat × Rec) (hs : Kept kq kn s) : Kept kq kn (State.sendStats x n s e) := by
  unfold State.sendStats; simp +contextual (maxDischargeDepth := 60) [hs]

@[simp] theorem Kept.sendRows {kq kn} (x : Ctx) (n : NormRes) (s : State) (e : Nat × Rec) (hs : Kept kq kn s) : Kept kq kn (State.sendRows x n s e) := by
  unfold State.sendRows; simp +contextual (maxDischargeDepth := 60) [hs]

@[simp] theorem Kept.stepEnd {kq kn} (s : State) (x : Ctx) (n : NormRes) (st outcome : Nat) (sc clip : Nat) (r : StepRun) (hs : Kept kq kn s) : Kept kq kn (State.stepEnd s x n st outcome sc clip r) := by
  unfold State.stepEnd; simp [hs]

@[simp] theorem Kept.uncoverLost {kq kn} (s : State) (j : Nat) (e : Nat × Rec) (hs : Kept kq kn s) : Kept kq kn (State.uncoverLost s j e) := by
  unfold State.uncoverLost; dsimp only; (repeat' split) <;> simp +contextual (maxDischargeDepth := 60) [*]

@[simp] theorem Kept.stepFault {kq kn} (s : State) (j gen st : Nat) (r : StepRun) (hs : Kept kq kn s) : Kept kq kn (State.stepFault s j gen st r) := by
  unfold State.stepFault; dsimp only; (repeat' split) <;> simp +contextual (maxDischargeDepth := 60) [hs]

@[simp] theorem Kept.stepRun {kq kn} (s : State) (x : Ctx) (n : NormRes) (fault : Option (Nat × Upset)) (hs : Kept kq kn s) :
    Kept kq kn (s.stepRun x n fault) := by
  unfold State.stepRun
  dsimp only
  split
  · simp +contextual (maxDischargeDepth := 60) [hs]
  · generalize ha : List.foldl (State.stepTensor x n) _ _ = a
    have h1 : Kept kq kn a.1 := ha ▸ Kept.foldFst (fun a b h => Kept.stepTensor x n a b h) (by simp +contextual (maxDischargeDepth := 60) [hs])
    clear ha
    (repeat' split) <;> simp +contextual (maxDischargeDepth := 60) [h1]

@[simp] theorem Kept.stepGo {kq kn} (s : State) (x : Ctx) (fault : Option (Nat × Upset)) (hs : Kept kq kn s) :
    Kept kq kn (s.stepGo x fault) := by
  unfold State.stepGo
  dsimp only
  split
  · simp [hs]
  · split
    · exact hs
    · rename_i n _
      have h0 : Kept kq kn (if x.phase == .run then s else s.modCtx x.ref (Ctx.start s.now)) := by split <;> simp [hs]
      generalize (if x.phase == .run then s else s.modCtx x.ref (Ctx.start s.now)) = t at h0
      have h1 : ∀ {l}, Kept kq kn (t.each l (State.sendStats x n)) := Kept.each (fun s e h => Kept.sendStats x n s e h) h0
      have h2 : ∀ {l m}, Kept kq kn ((t.each l (State.sendStats x n)).each m (State.sendRows x n)) :=
        Kept.each (fun s e h => Kept.sendRows x n s e h) h1
      (repeat' split) <;> simp [h0, h2]

@[simp] theorem Kept.pubTell {kq kn} (s : State) (x : Ctx) (gen : Nat) (e : Nat × Rec) (hs : Kept kq kn s) : Kept kq kn (State.pubTell s x gen e) := by
  unfold State.pubTell; simp +contextual (maxDischargeDepth := 60) [hs]

theorem Kept.pubTensor {kq kn} (x : Ctx) (gen : Nat) (a : State × PubRun) (e : Nat × Rec) (hs : Kept kq kn a.1) :
    Kept kq kn (State.pubTensor x gen a e).1 := by
  unfold State.pubTensor
  refine Kept.foldFst (fun b i hb => ?_) (by simp +contextual (maxDischargeDepth := 60) [hs])
  simp +contextual (maxDischargeDepth := 60) [hb]

@[simp] theorem Kept.pubGo {kq kn} (s : State) (x : Ctx) (hs : Kept kq kn s) : Kept kq kn (s.pubGo x) := by
  unfold State.pubGo
  dsimp only
  (repeat' split)
  · simp +contextual (maxDischargeDepth := 60) [hs]
  · simp +contextual (maxDischargeDepth := 60) [hs]
  · exact hs
  all_goals
    refine Kept.modCtx _ _ _ ?_
    exact Kept.foldFst (fun a b h => Kept.pubTensor x _ a b h) (by simp +contextual (maxDischargeDepth := 60) [hs])

@[simp] theorem Kept.pubBegin {kq kn} (s : State) (x : Ctx) (hs : Kept kq kn s) : Kept kq kn (State.pubBegin s x) := by
  unfold State.pubBegin; simp +contextual (maxDischargeDepth := 60) [hs]

@[simp] theorem Kept.pubAll {kq kn} (s : State) (j : Nat) (hs : Kept kq kn s) : Kept kq kn (State.pubAll s j) := by
  unfold State.pubAll; simp +contextual (maxDischargeDepth := 60) [hs]

@[simp] theorem Kept.parkDone {kq kn} (s : State) (x : Ctx) (h : Handle) (hs : Kept kq kn s) : Kept kq kn (State.parkDone s x h) := by
  unfold State.parkDone; simp [hs]

@[simp] theorem Kept.checkpointGo {kq kn} (s : State) (x : Ctx) (startTick : Nat) (hs : Kept kq kn s) : Kept kq kn (State.checkpointGo s x startTick) := by
  unfold State.checkpointGo; simp +contextual (maxDischargeDepth := 60) [hs]

@[simp] theorem Kept.mend {kq kn} (s : State) (j : Nat) (wrote : List (Nat × Nat × Nat)) (hs : Kept kq kn s) :
    Kept kq kn (s.mend j wrote) := by
  unfold State.mend
  split
  · exact hs
  · exact Kept.fold (fun a b h => by simp [h]) hs

@[simp] theorem Kept.restoreGo {kq kn} (s : State) (x : Ctx) (img : Bytes) (hs : Kept kq kn s) : Kept kq kn (State.restoreGo s x img) := by
  unfold State.restoreGo; dsimp only; (repeat' split) <;> simp +contextual (maxDischargeDepth := 60) [*]

@[simp] theorem Kept.vyEnd {kq kn} (s : State) (p : VyProg) (st : Nat) (f : Option VyFault) (lib2 : Nat) (hs : Kept kq kn s) : Kept kq kn (State.vyEnd s p st f lib2) := by
  unfold State.vyEnd; simp +contextual (maxDischargeDepth := 60) [hs]

@[simp] theorem Kept.toBuffer {kq kn} (s : State) (job : Nat) (b : VyBuf) (off : Nat) (data : Bytes) (hs : Kept kq kn s) : Kept kq kn (State.toBuffer s job b off data) := by
  unfold State.toBuffer; simp +contextual (maxDischargeDepth := 60) [hs]

@[simp] theorem Kept.logBuffer {kq kn} (s : State) (p : VyProg) (b : VyBuf) (off len : Nat) (hs : Kept kq kn s) : Kept kq kn (State.logBuffer s p b off len) := by
  unfold State.logBuffer; simp [hs]

@[simp] theorem Kept.outTransfers {kq kn} (s : State) (p : VyProg) (hs : Kept kq kn s) : Kept kq kn (State.outTransfers s p) := by
  unfold State.outTransfers; simp +contextual (maxDischargeDepth := 60) [hs]

@[simp] theorem Kept.vySettle {kq kn} (s : State) (p : VyProg) (hs : Kept kq kn s) : Kept kq kn (State.vySettle s p) := by
  unfold State.vySettle; dsimp only; (repeat' split) <;> simp +contextual (maxDischargeDepth := 60) [*]

@[simp] theorem Kept.vyTick {kq kn} (s : State) (hs : Kept kq kn s) : Kept kq kn (State.vyTick s) := by
  unfold State.vyTick; split <;> simp [hs]

@[simp] theorem Kept.vyResume {kq kn} (s : State) (hs : Kept kq kn s) : Kept kq kn (State.vyResume s) := by
  unfold State.vyResume; split <;> simp [hs]

@[simp] theorem Kept.vyUpset {kq kn} (s : State) (p : VyProg) (tile : Nat) (u : Upset) (hs : Kept kq kn s) : Kept kq kn (State.vyUpset s p tile u) := by
  unfold State.vyUpset; simp +contextual (maxDischargeDepth := 60) [hs]

@[simp] theorem Kept.vyFault {kq kn} (s : State) (p : VyProg) (v : VyIns) (pc kind addr : Nat) (tile : Option Nat) (hs : Kept kq kn s) : Kept kq kn (State.vyFault s p v pc kind addr tile) := by
  unfold State.vyFault; simp [hs]

theorem Kept.vyIssue {kq kn} {s u : State} {o cls place use f} (hs : Kept kq kn s) (h : s.vyIssue o cls place use f = .next u) :
    Kept kq kn u := by
  unfold State.vyIssue at h
  split at h
  · exact Kept.stay hs h
  · refine Kept.act hs ?_ h
    dsimp only
    (repeat' split) <;> simp [hs]

@[simp] theorem Kept.telemOff {kq kn} (s : State) (hs : Kept kq kn s) : Kept kq kn (State.telemOff s) := by
  unfold State.telemOff; simp +contextual (maxDischargeDepth := 60) [hs]

@[simp] theorem Kept.mirrorOff {kq kn} (s : State) (n : Nat) (hs : Kept kq kn s) : Kept kq kn (State.mirrorOff s n) := by
  unfold State.mirrorOff; simp +contextual (maxDischargeDepth := 60) [hs]

@[simp] theorem Kept.evict {kq kn} (s : State) (e : Nat) (hs : Kept kq kn s) : Kept kq kn (State.evict s e) := by
  unfold State.evict; simp +contextual (maxDischargeDepth := 60) [hs]

@[simp] theorem Kept.resGrab {kq kn} (s : State) (e user : Nat) (hs : Kept kq kn s) : Kept kq kn (State.resGrab s e user) := by
  unfold State.resGrab; (repeat' split) <;> first | exact hs | simp [hs]

@[simp] theorem Kept.mirrorFields {kq kn} (s : State) (n : Nat) (v : Word32) (hs : Kept kq kn s) : Kept kq kn (State.mirrorFields s n v) := by
  unfold State.mirrorFields; simp +contextual (maxDischargeDepth := 60) [hs]

@[simp] theorem Kept.mirrorAfresh {kq kn} (s : State) (n : Nat) (hs : Kept kq kn s) : Kept kq kn (State.mirrorAfresh s n) := by
  unfold State.mirrorAfresh; simp [hs]

@[simp] theorem Kept.sendMap {kq kn} (s : State) (map : Bytes) (seq : Nat) (hs : Kept kq kn s) : Kept kq kn (State.sendMap s map seq) := by
  unfold State.sendMap; simp +contextual (maxDischargeDepth := 60) [hs]

@[simp] theorem Kept.rollTelem {kq kn} (s : State) (hs : Kept kq kn s) : Kept kq kn (State.rollTelem s) := by
  unfold State.rollTelem; simp [hs]

@[simp] theorem Kept.encode {kq kn} (s : State) (l lane : Nat) (flit : Bytes) (hs : Kept kq kn s) : Kept kq kn (State.encode s l lane flit) := by
  unfold State.encode; simp +contextual (maxDischargeDepth := 60) [hs]

@[simp] theorem Kept.putFlit {kq kn} (s : State) (l lane : Nat) (flit : Bytes) (hs : Kept kq kn s) : Kept kq kn (State.putFlit s l lane flit) := by
  unfold State.putFlit; simp [hs]

@[simp] theorem Kept.deal {kq kn} (s : State) (l : Nat) (idle flit : Bytes) (hs : Kept kq kn s) : Kept kq kn (State.deal s l idle flit) := by
  unfold State.deal; simp +contextual (maxDischargeDepth := 60) [hs]

@[simp] theorem Kept.arrived {kq kn} (s : State) (l lane : Nat) (bad : Bool) (flit : Bytes) (hs : Kept kq kn s) : Kept kq kn (State.arrived s l lane bad flit) := by
  unfold State.arrived; simp [hs]

@[simp] theorem Kept.pullFlit {kq kn} (s : State) (l : Nat) (e : Nat × Bool × Bytes) (hs : Kept kq kn s) : Kept kq kn (State.pullFlit s l e) := by
  unfold State.pullFlit; simp [hs]

@[simp] theorem Kept.adaptTap {kq kn} (s : State) (l : Nat) (x : Nat × Nat × Word32 × Bool) (hs : Kept kq kn s) : Kept kq kn (State.adaptTap s l x) := by
  unfold State.adaptTap; simp +contextual (maxDischargeDepth := 60) [hs]

@[simp] theorem Kept.takeTaps {kq kn} (s : State) (l lane : Nat) (x : LaneTrained) (hs : Kept kq kn s) : Kept kq kn (State.takeTaps s l lane x) := by
  unfold State.takeTaps; simp +contextual (maxDischargeDepth := 60) [hs]

theorem Kept.takeId {kq kn} (s : State) (hs : Kept kq kn s) : Kept kq kn s.takeId.2 := hs

@[simp] theorem Kept.capTokens {kq kn} (s : State) (a : Nat) (hs : Kept kq kn s) : Kept kq kn (State.capTokens s a) := by
  unfold State.capTokens; simp +contextual (maxDischargeDepth := 60) [hs]

@[simp] theorem Kept.enterCell {kq kn} (s : State) (cp : Copy) (cls i d : Nat) (hs : Kept kq kn s) : Kept kq kn (State.enterCell s cp cls i d) := by
  unfold State.enterCell; simp +contextual (maxDischargeDepth := 60) [hs]

@[simp] theorem Kept.spendPolice {kq kn} (s : State) (p c n : Nat) (hs : Kept kq kn s) : Kept kq kn (State.spendPolice s p c n) := by
  unfold State.spendPolice; simp [hs]

@[simp] theorem Kept.spendShape {kq kn} (s : State) (out c : Nat) (hs : Kept kq kn s) : Kept kq kn (State.spendShape s out c) := by
  unfold State.spendShape; simp [hs]

@[simp] theorem Kept.telemDropped {kq kn} (s : State) (k : Pk) (n : Nat) (policed : Bool) (hs : Kept kq kn s) : Kept kq kn (State.telemDropped s k n policed) := by
  unfold State.telemDropped; (repeat' split) <;> simp [hs]

@[simp] theorem Kept.dropPk {kq kn} (s : State) (k : Pk) (reg : Nat → Nat) (reason : Nat) (hs : Kept kq kn s) :
    Kept kq kn (s.dropPk k reg reason) := by
  unfold State.dropPk
  have h1 := Kept.mirror s k 2 reason 0x1FF k.hdr0 hs
  generalize s.mirror k 2 reason 0x1FF k.hdr0 = a at h1
  obtain ⟨s', k'⟩ := a
  dsimp only at h1 ⊢
  (repeat' split) <;> simp +contextual (maxDischargeDepth := 60) [h1]

@[simp] theorem Kept.dropPart {kq kn} (s : State) (k : Pk) (reg : Nat → Nat) (io out reason n : Nat) (hs : Kept kq kn s) :
    Kept kq kn (State.dropPart s k reg io out reason n) := by
  unfold State.dropPart
  have h1 := Kept.mirror s k 2 reason (s.ioCode out) k.hdr0 hs
  generalize s.mirror k 2 reason (s.ioCode out) k.hdr0 = a at h1
  obtain ⟨s', k'⟩ := a
  dsimp only at h1 ⊢
  simp +contextual (maxDischargeDepth := 60) [h1]

@[simp] theorem Kept.dropCopyAt {kq kn} (s : State) (c : Copy) (reg : Nat → Nat) (reason : Nat) (hs : Kept kq kn s) :
    Kept kq kn (s.dropCopyAt c reg reason) := by
  unfold State.dropCopyAt; split <;> first | exact hs | simp [hs]

@[simp] theorem Kept.nameFenced {kq kn} (s : State) (p : Packet) (port : Nat) (hs : Kept kq kn s) : Kept kq kn (State.nameFenced s p port) := by
  unfold State.nameFenced; (repeat' split) <;> simp +contextual (maxDischargeDepth := 60) [hs]

@[simp] theorem Kept.fenceCopy {kq kn} (s : State) (c : Copy) (hs : Kept kq kn s) : Kept kq kn (State.fenceCopy s c) := by
  unfold State.fenceCopy; (repeat' split) <;> simp +contextual (maxDischargeDepth := 60) [hs]

@[simp] theorem Kept.fenceSweep {kq kn} (s : State) (hs : Kept kq kn s) : Kept kq kn (State.fenceSweep s) := by
  unfold State.fenceSweep; simp +contextual (maxDischargeDepth := 60) [hs]

@[simp] theorem Kept.addCopy {kq kn} (s : State) (k : Pk) (out : Nat) (ports : List Nat) (hs : Kept kq kn s) :
    Kept kq kn (s.addCopy k out ports) := by
  unfold State.addCopy
  refine Kept.ite (by simp [hs]) ?_
  have h1 := Kept.takeId s hs
  generalize s.takeId = a at h1
  obtain ⟨i, s'⟩ := a
  dsimp only at h1 ⊢
  have h2 : ∀ l, Kept kq kn ({ s'.holdPk k.pid with xb := l } : State) := fun _ => Kept.holdPk s' k.pid h1
  refine Kept.ite (Kept.dropCopyAt _ _ _ _ (h2 _)) (Kept.fenceCopy _ _ (Kept.each (fun s x h => ?_) (h2 _)))
  simp [h]

@[simp] theorem Kept.dropOrphan {kq kn} (s : State) (pid q n : Nat) (hs : Kept kq kn s) : Kept kq kn (State.dropOrphan s pid q n) := by
  unfold State.dropOrphan; (repeat' split) <;> simp [hs]

theorem Kept.markLast {kq kn} (s : State) (k : Pk) (hs : Kept kq kn s) : Kept kq kn (s.markLast k).1 := by
  unfold State.markLast
  split
  · dsimp only
    split <;> simp [hs]
  · exact hs

@[simp] theorem Kept.place {kq kn} (s : State) (k : Pk) (r : Routed) (hs : Kept kq kn s) : Kept kq kn (State.place s k r) := by
  unfold State.place
  refine Kept.settlePk _ _ (Kept.releaseFrom _ _ _ (Kept.modPk _ _ _ (Kept.each (fun s x h => ?_) (Kept.each (fun s x h => ?_) ?_))))
  · split <;> first | exact h | simp [h]
  · simp [h]
  · simp [hs]

@[simp] theorem Kept.sendOn {kq kn} (s : State) (k : Pk) (hs : Kept kq kn s) : Kept kq kn (State.sendOn s k) := by
  unfold State.sendOn
  split
  · simp [hs]
  · have h1 := Kept.markLast s k hs
    generalize s.markLast k = a at h1
    obtain ⟨s', k'⟩ := a
    dsimp only at h1 ⊢
    simp [h1]

@[simp] theorem Kept.routePk {kq kn} (s : State) (k : Pk) (hs : Kept kq kn s) : Kept kq kn (s.routePk k) := by
  unfold State.routePk
  have h1 : Kept kq kn (if isEdgeIo k.inp then (s, k) else s.mirror k 0 0 0x1FF k.hdr0).1 := by
    split
    · exact hs
    · exact Kept.mirror _ _ _ _ _ _ hs
  generalize (if isEdgeIo k.inp then (s, k) else s.mirror k 0 0 0x1FF k.hdr0) = a at h1
  obtain ⟨t, k2⟩ := a
  dsimp only at h1 ⊢
  simp +contextual (maxDischargeDepth := 60) [h1]

theorem Kept.newPk {kq kn} (s : State) (inp : Nat) (p : Packet) (lens : List Nat) (hs : Kept kq kn s) :
    Kept kq kn (s.newPk inp p lens).1 := hs

@[simp] theorem Kept.enterOwn {kq kn} (s : State) (e : Nat) (p : Packet) (unit : Nat) (hs : Kept kq kn s) : Kept kq kn (State.enterOwn s e p unit) := by
  unfold State.enterOwn
  exact Kept.routePk _ _ (Kept.newPk _ _ _ _ (by simp [hs]))

@[simp] theorem Kept.routeOwn {kq kn} (s : State) (p : Packet) (unit : Nat) (hs : Kept kq kn s) : Kept kq kn (State.routeOwn s p unit) := by
  unfold State.routeOwn
  split
  · exact Kept.poolQueue _ _ _ _ (Kept.bump _ hs)
  · exact Kept.enterOwn _ _ _ _ (Kept.bump _ hs)

@[simp] theorem Kept.routeWhole {kq kn} (s : State) (inp : Nat) (p : Packet) (hs : Kept kq kn s) : Kept kq kn (State.routeWhole s inp p) := by
  unfold State.routeWhole
  exact Kept.routePk _ _ (Kept.countAt _ _ _ _ (Kept.newPk _ _ _ _ hs))

@[simp] theorem Kept.spendDeficit {kq kn} (s : State) (l : List Head) (m : Matching) (h : Head) (hs : Kept kq kn s) : Kept kq kn (State.spendDeficit s l m h) := by
  unfold State.spendDeficit; simp [hs]

@[simp] theorem Kept.loseDeficits {kq kn} (s : State) (l : List Head) (m : Matching) (hs : Kept kq kn s) : Kept kq kn (State.loseDeficits s l m) := by
  unfold State.loseDeficits; simp [hs]

theorem Kept.matchRound {kq kn} (l : List Head) (outs : List Nat) (first : Bool) (x : State × Matching) (hs : Kept kq kn x.1) :
    Kept kq kn (State.matchRound l outs first x).1 := by
  unfold State.matchRound
  refine Kept.foldFst (fun a i ha => ?_) hs
  dsimp only
  (repeat' split) <;> simp +contextual (maxDischargeDepth := 60) [ha]

@[simp] theorem Kept.reachStop {kq kn} (s : State) (c : Copy) (hs : Kept kq kn s) : Kept kq kn (State.reachStop s c) := by
  unfold State.reachStop; dsimp only; (repeat' split) <;> simp +contextual (maxDischargeDepth := 60) [hs]

@[simp] theorem Kept.crossCell {kq kn} (s : State) (h : Head) (hs : Kept kq kn s) : Kept kq kn (State.crossCell s h) := by
  unfold State.crossCell; simp +contextual (maxDischargeDepth := 60) [hs]

@[simp] theorem Kept.cellTime {kq kn} (s : State) (hs : Kept kq kn s) : Kept kq kn s.cellTime := by
  unfold State.cellTime
  have h0 := Kept.fenceSweep s hs
  generalize s.fenceSweep = t at h0
  dsimp only
  generalize State.scheduled t _ _ = m
  have h1 := Kept.matchRound t.heads (dedup (t.heads.map (fun h => h.copy.out))) true (t.loseDeficits t.heads m, m)
    (Kept.loseDeficits t t.heads m h0)
  generalize State.matchRound _ _ true (_, m) = a at h1
  have h2 := Kept.matchRound t.heads (dedup (t.heads.map (fun h => h.copy.out))) false a h1
  generalize State.matchRound _ _ false a = b at h2
  have h3 := Kept.matchRound t.heads (dedup (t.heads.map (fun h => h.copy.out))) false b h2
  generalize State.matchRound _ _ false b = c at h3
  exact Kept.each (fun s x h => Kept.crossCell s x h) h3

@[simp] theorem Kept.serve {kq kn} (s : State) (die pool : Nat) (u : PoolUse) (hs : Kept kq kn s) : Kept kq kn (State.serve s die pool u) := by
  unfold State.serve; (repeat' split) <;> simp [hs]

@[simp] theorem Kept.runLibrary {kq kn} (s : State) (p : VyProg) (hs : Kept kq kn s) : Kept kq kn (State.runLibrary s p) := by
  unfold State.runLibrary; simp +contextual (maxDischargeDepth := 60) [hs]

@[simp] theorem Kept.sieveReject {kq kn} (s : State) (x : Ctx) (st : Nat) (hs : Kept kq kn s) : Kept kq kn (State.sieveReject s x st) := by
  unfold State.sieveReject; simp [hs]

@[simp] theorem Kept.dropSieve {kq kn} (s : State) (c : Ref) (hs : Kept kq kn s) : Kept kq kn (State.dropSieve s c) := by
  unfold State.dropSieve; simp [hs]

@[simp] theorem Kept.progReads {kq kn} (s : State) (x : Ctx) (b : Bytes) (hs : Kept kq kn s) : Kept kq kn (State.progReads s x b) := by
  unfold State.progReads; simp +contextual (maxDischargeDepth := 60) [hs]

@[simp] theorem Kept.startProg {kq kn} (s : State) (x : Ctx) (r : SieveReq) (text : Option Bytes) (bufs : List Bytes) (hs : Kept kq kn s) : Kept kq kn (State.startProg s x r text bufs) := by
  unfold State.startProg; simp +contextual (maxDischargeDepth := 60) [hs]

@[simp] theorem Kept.tilesShort {kq kn} (s : State) (x : Ctx) (r : SieveReq) (hs : Kept kq kn s) : Kept kq kn (State.tilesShort s x r) := by
  unfold State.tilesShort; simp +contextual (maxDischargeDepth := 60) [hs]

@[simp] theorem Kept.activate {kq kn} (s : State) (j : Nat) (hs : Kept kq kn s) : Kept kq kn (State.activate s j) := by
  unfold State.activate; simp +contextual (maxDischargeDepth := 60) [hs]

@[simp] theorem Kept.layoutShow {kq kn} (s : State) (hs : Kept kq kn s) : Kept kq kn (State.layoutShow s) := by
  unfold State.layoutShow; simp [hs]

@[simp] theorem Kept.haltJobRings {kq kn} (s : State) (j : Nat) (hs : Kept kq kn s) : Kept kq kn (State.haltJobRings s j) := by
  unfold State.haltJobRings; simp +contextual (maxDischargeDepth := 60) [hs]

@[simp] theorem Kept.wipePages {kq kn} (s : State) (j : Nat) (hs : Kept kq kn s) : Kept kq kn (State.wipePages s j) := by
  unfold State.wipePages; simp [hs]

@[simp] theorem Kept.dropWaits {kq kn} (s : State) (mine : Ref → Bool) (hs : Kept kq kn s) : Kept kq kn (State.dropWaits s mine) := by
  unfold State.dropWaits; dsimp only; (repeat' split) <;> simp +contextual (maxDischargeDepth := 60) [hs]

@[simp] theorem Kept.dropJobWaits {kq kn} (s : State) (j : Nat) (hs : Kept kq kn s) : Kept kq kn (State.dropJobWaits s j) := by
  unfold State.dropJobWaits; simp [hs]

@[simp] theorem Kept.endJob {kq kn} (s : State) (j : Nat) (hs : Kept kq kn s) : Kept kq kn (s.endJob j) := by
  unfold State.endJob
  have h1 : Kept kq kn ((s.wipePages j).modJob j (fun b => (b.put J.enable 0).put J.state jobEnding)) := by simp +contextual (maxDischargeDepth := 60) [hs]
  generalize (s.wipePages j).modJob j (fun b => (b.put J.enable 0).put J.state jobEnding) = t at h1
  dsimp only
  have h2 : Kept kq kn (t.each (t.ops.filter (fun o => o.job == j && o.live)) (fun s o =>
      match s.findOp j o.tag with
      | some o => if o.live then s.abortOwn o stCancelled else s
      | none => s)) := by
    refine Kept.each (fun s x h => ?_) h1
    (repeat' split) <;> simp +contextual (maxDischargeDepth := 60) [h]
  generalize State.each t _ _ = t2 at h2
  have h3 : ∀ (t : State) (c : Ctx), Kept kq kn t → Kept kq kn ((t.opOf c.ref).elim t t.withdraw) := fun t c h => by
    cases t.opOf c.ref <;> simp [h]
  split <;> (try split) <;> simp +contextual (maxDischargeDepth := 60) [h2, h3]

@[simp] theorem Kept.layoutRefused {kq kn} (s : State) (cause : Nat) (hs : Kept kq kn s) : Kept kq kn (State.layoutRefused s cause) := by
  unfold State.layoutRefused; simp [hs]

@[simp] theorem Kept.setUnitState {kq kn} (s : State) (u st : Nat) (hs : Kept kq kn s) : Kept kq kn (State.setUnitState s u st) := by
  unfold State.setUnitState; simp [hs]

@[simp] theorem Kept.showStore {kq kn} (s : State) (hs : Kept kq kn s) : Kept kq kn (State.showStore s) := by
  unfold State.showStore; simp [hs]

@[simp] theorem Kept.tryStoreReady {kq kn} (s : State) (hs : Kept kq kn s) : Kept kq kn (State.tryStoreReady s) := by
  unfold State.tryStoreReady; simp [hs]

@[simp] theorem Kept.pprGo {kq kn} (s : State) (stack : Nat) (v : Word32) (hard : Bool) (hs : Kept kq kn s) : Kept kq kn (State.pprGo s stack v hard) := by
  unfold State.pprGo; simp +contextual (maxDischargeDepth := 60) [hs]

@[simp] theorem Kept.countBeds {kq kn} (s : State) (hs : Kept kq kn s) : Kept kq kn (State.countBeds s) := by
  unfold State.countBeds; simp +contextual (maxDischargeDepth := 60) [hs]

@[simp] theorem Kept.setBed {kq kn} (s : State) (b st : Nat) (hs : Kept kq kn s) : Kept kq kn (State.setBed s b st) := by
  unfold State.setBed; simp [hs]

@[simp] theorem Kept.mapBed {kq kn} (s : State) (r : Nat × Nat) (hs : Kept kq kn s) : Kept kq kn (State.mapBed s r) := by
  unfold State.mapBed; simp +contextual (maxDischargeDepth := 60) [hs]

@[simp] theorem Kept.restoreTo {kq kn} (s : State) (bed spare : Nat) (hs : Kept kq kn s) : Kept kq kn (State.restoreTo s bed spare) := by
  unfold State.restoreTo; simp [hs]

@[simp] theorem Kept.spillBed {kq kn} (s : State) (bed : Nat) (hs : Kept kq kn s) : Kept kq kn (State.spillBed s bed) := by
  unfold State.spillBed; simp +contextual (maxDischargeDepth := 60) [hs]

@[simp] theorem Kept.scoreRise {kq kn} (s : State) (u old new : Nat) (hs : Kept kq kn s) : Kept kq kn (State.scoreRise s u old new) := by
  unfold State.scoreRise; dsimp only; simp +contextual (maxDischargeDepth := 60) [hs]

@[simp] theorem Kept.failScore {kq kn} (s : State) (u : Nat) (hs : Kept kq kn s) : Kept kq kn (State.failScore s u) := by
  unfold State.failScore; simp [hs]

@[simp] theorem Kept.failBed {kq kn} (s : State) (u st : Nat) (hs : Kept kq kn s) : Kept kq kn (State.failBed s u st) := by
  unfold State.failBed; dsimp only; simp +contextual (maxDischargeDepth := 60) [hs]

@[simp] theorem Kept.repairBed {kq kn} (s : State) (bed : Nat) (hs : Kept kq kn s) :
    Kept kq kn (s.repairBed bed) := by
  unfold State.repairBed
  dsimp only
  have hn : ∀ (t : State) l, Kept kq kn t → Kept kq kn { t with nv := { t.nv with softBeds := l } } := fun _ _ h => h
  split <;> (refine Kept.logUnit _ _ _ _ _ _ (hn _ _ ?_); simp +contextual (maxDischargeDepth := 60) [hs])

@[simp] theorem Kept.remapRow {kq kn} (s : State) (stack p row : Nat) (hs : Kept kq kn s) : Kept kq kn (s.remapRow stack p row) := by
  unfold State.remapRow
  dsimp only
  have hn : ∀ l, Kept kq kn { s with nv := { s.nv with softRows := l } } := fun _ => hs
  refine Kept.ite ?_ ?_
  · exact Kept.showStore _ (Kept.logUnit _ _ _ _ _ _ (Kept.logUnit _ _ _ _ _ _ (Kept.setUnitState _ _ _ (hn _))))
  · refine Kept.fset _ _ _ _ (Kept.logUnit _ _ _ _ _ _ (Kept.addPoints _ _ _ (Kept.ite ?_ (Kept.setUnitState _ _ _ ?_))))
    all_goals exact Kept.fset _ _ _ _ (Kept.fset _ _ _ _ (hn _))

@[simp] theorem Kept.applyRow {kq kn} (s : State) (r : Nat × Nat × Nat) (hs : Kept kq kn s) : Kept kq kn (State.applyRow s r) := by
  unfold State.applyRow; simp +contextual (maxDischargeDepth := 60) [hs]

@[simp] theorem Kept.applyRepairs {kq kn} (s : State) (beds : List (Nat × Nat)) (rows : List (Nat × Nat × Nat)) (hs : Kept kq kn s) :
    Kept kq kn (State.applyRepairs s beds rows) := by
  unfold State.applyRepairs; simp +contextual (maxDischargeDepth := 60) [hs]

@[simp] theorem Kept.pstat {kq kn} (s : State) (p : Nat) (f : Bits) (v : Nat) (hs : Kept kq kn s) : Kept kq kn (State.pstat s p f v) := by
  unfold State.pstat; simp [hs]

@[simp] theorem Kept.stageLanes {kq kn} (s : State) (l : List Nat) (st : Nat) (hs : Kept kq kn s) : Kept kq kn (State.stageLanes s l st) := by
  unfold State.stageLanes; simp +contextual (maxDischargeDepth := 60) [hs]

@[simp] theorem Kept.toStage {kq kn} (s : State) (p st : Nat) (hs : Kept kq kn s) : Kept kq kn (State.toStage s p st) := by
  unfold State.toStage; simp [hs]

@[simp] theorem Kept.idleLanes {kq kn} (s : State) (l : List Nat) (hs : Kept kq kn s) : Kept kq kn (State.idleLanes s l) := by
  unfold State.idleLanes; simp +contextual (maxDischargeDepth := 60) [hs]

@[simp] theorem Kept.logLane {kq kn} (s : State) (code lane : Nat) (hs : Kept kq kn s) : Kept kq kn (State.logLane s code lane) := by
  unfold State.logLane; simp [hs]

@[simp] theorem Kept.sendTraining {kq kn} (s : State) (l n : Nat) (hs : Kept kq kn s) : Kept kq kn (State.sendTraining s l n) := by
  unfold State.sendTraining
  exact Kept.bump _ (Kept.each (fun s x h => by simp [h]) hs)

@[simp] theorem Kept.closeAborted {kq kn} (s : State) (pid : Nat) (hs : Kept kq kn s) : Kept kq kn (s.closeAborted pid) := by
  unfold State.closeAborted
  split
  · exact hs
  · refine Kept.ite hs (Kept.settlePk _ _ ?_)
    have h1 := Kept.takeId _ (Kept.each (l := (s.copiesOf pid).filter (fun c => c.next == 0)) (f := State.dropCopy) (fun s x h => by simp [h]) hs)
    exact Kept.ite (Kept.telemDrops _ _ _ (Kept.countAt _ _ _ _ (Kept.mirrorAt _ _ _ _ _ (Kept.each (fun s x h => by simp [h]) (Kept.modPk _ _ _ h1)))))
      (Kept.each (fun s x h => by simp [h]) (Kept.modPk _ _ _ h1))

@[simp] theorem Kept.dropLink {kq kn} (s : State) (l : Nat) (hs : Kept kq kn s) : Kept kq kn (State.dropLink s l) := by
  unfold State.dropLink; simp +contextual (maxDischargeDepth := 60) [hs]

@[simp] theorem Kept.toTime {kq kn} (s : State) (st : Nat) (hs : Kept kq kn s) : Kept kq kn (State.toTime s st) := by
  unfold State.toTime; simp +contextual (maxDischargeDepth := 60) [hs]

@[simp] theorem Kept.checkUpstream {kq kn} (s : State) (hs : Kept kq kn s) : Kept kq kn (State.checkUpstream s) := by
  unfold State.checkUpstream; simp [hs]

@[simp] theorem Kept.freeOwned {kq kn} (s : State) (m : Nat) (hs : Kept kq kn s) : Kept kq kn (State.freeOwned s m) := by
  unfold State.freeOwned; simp +contextual (maxDischargeDepth := 60) [hs]

@[simp] theorem Kept.split {kq kn} (s : State) (hs : Kept kq kn s) : Kept kq kn s.split := by
  unfold State.split
  dsimp only
  have h2 : Kept kq kn (s.each (s.ops.filter (fun o => o.live && s.spansPeer o)) (fun t o =>
      match t.findOp o.job o.tag with
      | some o => if o.live then t.abortOp o stPeerAbort .own (some (0xFFFF, s.fget Reg.graftPeer F.graftPeer_coord)) else t
      | none => t)) := by
    refine Kept.each (fun s x h => ?_) hs
    (repeat' split) <;> simp +contextual (maxDischargeDepth := 60) [h]
  generalize State.each s _ _ = t at h2
  refine Kept.ite ?_ ?_ <;> simp +contextual (maxDischargeDepth := 60) [h2]

@[simp] theorem Kept.setTrunk {kq kn} (s : State) (d : Nat) (t : TrunkSt) (hs : Kept kq kn s) : Kept kq kn (State.setTrunk s d t) := by
  unfold State.setTrunk; simp [hs]

@[simp] theorem Kept.toGraft {kq kn} (s : State) (st : Nat) (hs : Kept kq kn s) : Kept kq kn (State.toGraft s st) := by
  unfold State.toGraft; simp [hs]

@[simp] theorem Kept.showGraft {kq kn} (s : State) (hs : Kept kq kn s) : Kept kq kn (State.showGraft s) := by
  unfold State.showGraft; simp [hs]

@[simp] theorem Kept.showDrop {kq kn} (s : State) (p : Nat) (hs : Kept kq kn s) : Kept kq kn (State.showDrop s p) := by
  unfold State.showDrop; simp +contextual (maxDischargeDepth := 60) [hs]

@[simp] theorem Kept.losePort {kq kn} (s : State) (p : Nat) (hs : Kept kq kn s) : Kept kq kn (State.losePort s p) := by
  unfold State.losePort; simp +contextual (maxDischargeDepth := 60) [hs]

@[simp] theorem Kept.lossPoints {kq kn} (s : State) (l n : Nat) (hs : Kept kq kn s) : Kept kq kn (State.lossPoints s l n) := by
  unfold State.lossPoints
  exact Kept.each (fun s x h => by simp [h]) hs

@[simp] theorem Kept.moveCopies {kq kn} (s : State) (d : Nat) (hs : Kept kq kn s) : Kept kq kn (State.moveCopies s d) := by
  unfold State.moveCopies; simp [hs]

@[simp] theorem Kept.loseTrunk {kq kn} (s : State) (d : Nat) (hs : Kept kq kn s) : Kept kq kn (State.loseTrunk s d) := by
  unfold State.loseTrunk; simp +contextual (maxDischargeDepth := 60) [hs]

@[simp] theorem Kept.tapGone {kq kn} (s : State) (card : Nat) (hs : Kept kq kn s) : Kept kq kn (State.tapGone s card) := by
  unfold State.tapGone; simp [hs]

@[simp] theorem Kept.loseTap {kq kn} (s : State) (card : Nat) (hs : Kept kq kn s) : Kept kq kn (State.loseTap s card) := by
  unfold State.loseTap; simp +contextual (maxDischargeDepth := 60) [hs]

@[simp] theorem Kept.loseLink {kq kn} (s : State) (l : Nat) (hs : Kept kq kn s) : Kept kq kn (State.loseLink s l) := by
  unfold State.loseLink; split <;> simp [hs]

@[simp] theorem Kept.startRetrain {kq kn} (s : State) (p rate : Nat) (hs : Kept kq kn s) : Kept kq kn (State.startRetrain s p rate) := by
  unfold State.startRetrain; simp +contextual (maxDischargeDepth := 60) [hs]

@[simp] theorem Kept.startImage {kq kn} (s : State) (hs : Kept kq kn s) : Kept kq kn (State.startImage s) := by
  unfold State.startImage; simp [hs]

@[simp] theorem Kept.refusePair {kq kn} (s : State) (cause : Nat) (hs : Kept kq kn s) : Kept kq kn (State.refusePair s cause) := by
  unfold State.refusePair; simp +contextual (maxDischargeDepth := 60) [hs]

@[simp] theorem Kept.pairTimeout {kq kn} (s : State) (hs : Kept kq kn s) : Kept kq kn (State.pairTimeout s) := by
  unfold State.pairTimeout; simp [hs]

@[simp] theorem Kept.pairAgain {kq kn} (s : State) (hs : Kept kq kn s) : Kept kq kn (State.pairAgain s) := by
  unfold State.pairAgain; simp +contextual (maxDischargeDepth := 60) [hs]

@[simp] theorem Kept.trunkAgain {kq kn} (s : State) (d : Nat) (hs : Kept kq kn s) : Kept kq kn (State.trunkAgain s d) := by
  unfold State.trunkAgain; simp +contextual (maxDischargeDepth := 60) [hs]

@[simp] theorem Kept.trunkTrained {kq kn} (s : State) (d : Nat) (hs : Kept kq kn s) : Kept kq kn (State.trunkTrained s d) := by
  unfold State.trunkTrained; simp +contextual (maxDischargeDepth := 60) [hs]

@[simp] theorem Kept.trunkLocked {kq kn} (s : State) (d : Nat) (hs : Kept kq kn s) : Kept kq kn (State.trunkLocked s d) := by
  unfold State.trunkLocked; simp +contextual (maxDischargeDepth := 60) [hs]

@[simp] theorem Kept.setPeer {kq kn} (s : State) (b : Bytes) (hs : Kept kq kn s) : Kept kq kn (State.setPeer s b) := by
  unfold State.setPeer; simp +contextual (maxDischargeDepth := 60) [hs]

@[simp] theorem Kept.pairOwners {kq kn} (s : State) (card0 card1 : Bool) (hs : Kept kq kn s) : Kept kq kn (State.pairOwners s card0 card1) := by
  unfold State.pairOwners; simp +contextual (maxDischargeDepth := 60) [hs]

@[simp] theorem Kept.swapCards {kq kn} (s : State) (hs : Kept kq kn s) : Kept kq kn (State.swapCards s) := by
  unfold State.swapCards; simp +contextual (maxDischargeDepth := 60) [hs]

@[simp] theorem Kept.showPeerBeds {kq kn} (s : State) (hs : Kept kq kn s) : Kept kq kn (State.showPeerBeds s) := by
  unfold State.showPeerBeds; simp +contextual (maxDischargeDepth := 60) [hs]

@[simp] theorem Kept.merge {kq kn} (s : State) (b : Bytes) (hs : Kept kq kn s) : Kept kq kn (State.merge s b) := by
  unfold State.merge; simp +contextual (maxDischargeDepth := 60) [hs]

@[simp] theorem Kept.unmerge {kq kn} (s : State) (hs : Kept kq kn s) : Kept kq kn (State.unmerge s) := by
  unfold State.unmerge; simp +contextual (maxDischargeDepth := 60) [hs]

@[simp] theorem Kept.judgePair {kq kn} (s : State) (hs : Kept kq kn s) : Kept kq kn (State.judgePair s) := by
  unfold State.judgePair; dsimp only; (repeat' split) <;> simp +contextual (maxDischargeDepth := 60) [hs]

@[simp] theorem Kept.pairSent {kq kn} (s : State) (d : Nat) (seen : Bool) (hs : Kept kq kn s) : Kept kq kn (State.pairSent s d seen) := by
  unfold State.pairSent; simp +contextual (maxDischargeDepth := 60) [hs]

@[simp] theorem Kept.afterWrite {kq kn} (s : State) (m : Master) (a : Nat) (r : RegRow) (hs : Kept kq kn s) : Kept kq kn (State.afterWrite s m a r) := by
  unfold State.afterWrite; simp +contextual (maxDischargeDepth := 60) [hs]

@[simp] theorem Kept.cfgIgnored {kq kn} (s : State) (a : Nat) (r : RegRow) (want got : Word64) (hs : Kept kq kn s) : Kept kq kn (State.cfgIgnored s a r want got) := by
  unfold State.cfgIgnored; simp [hs]

@[simp] theorem Kept.keepQos {kq kn} (s : State) (a : Nat) (hs : Kept kq kn s) : Kept kq kn (State.keepQos s a) := by
  unfold State.keepQos; simp [hs]

@[simp] theorem Kept.writeReg {kq kn} (s : State) (m : Master) (a : Nat) (r : RegRow) (half v : Nat) (hs : Kept kq kn s) : Kept kq kn (State.writeReg s m a r half v) := by
  unfold State.writeReg; simp +contextual (maxDischargeDepth := 60) [hs]

@[simp] theorem Kept.writeOwn {kq kn} (s : State) (m : Master) (half v : Nat) (hs : Kept kq kn s) : Kept kq kn (State.writeOwn s m half v) := by
  unfold State.writeOwn; (repeat' split) <;> simp +contextual (maxDischargeDepth := 60) [hs]

@[simp] theorem Kept.writeHalf {kq kn} (s : State) (m : Master) (half v : Nat) (hs : Kept kq kn s) : Kept kq kn (State.writeHalf s m half v) := by
  unfold State.writeHalf; (repeat' split) <;> simp +contextual (maxDischargeDepth := 60) [hs]

@[simp] theorem Kept.readClear {kq kn} (s : State) (m : Master) (half : Nat) (hs : Kept kq kn s) : Kept kq kn (State.readClear s m half) := by
  unfold State.readClear; (repeat' split) <;> simp +contextual (maxDischargeDepth := 60) [hs]

@[simp] theorem Kept.fuseRegs {kq kn} (s : State) (hs : Kept kq kn s) : Kept kq kn (State.fuseRegs s) := by
  unfold State.fuseRegs; simp +contextual (maxDischargeDepth := 60) [hs]

@[simp] theorem Kept.resetTo {kq kn} (s : State) (hs : Kept kq kn s) : Kept kq kn s.resetTo := by
  unfold State.resetTo
  refine Kept.fuseRegs _ ?_
  exact ⟨⟨List.Pairwise.nil, by intro e he; cases he⟩, hs.2.1, hs.2.2⟩

@[simp] theorem Kept.tapDown {kq kn} (s : State) (wasUp : Bool) (hs : Kept kq kn s) : Kept kq kn (State.tapDown s wasUp) := by
  unfold State.tapDown; simp +contextual (maxDischargeDepth := 60) [hs]

@[simp] theorem Kept.refOk {kq kn} (s : State) (hs : Kept kq kn s) : Kept kq kn (State.refOk s) := by
  unfold State.refOk; simp [hs]

@[simp] theorem Kept.toBoot {kq kn} (s : State) (v : Nat) (hs : Kept kq kn s) : Kept kq kn (State.toBoot s v) := by
  unfold State.toBoot; simp [hs]

@[simp] theorem Kept.bootRepairs {kq kn} (s : State) (hs : Kept kq kn s) : Kept kq kn (State.bootRepairs s) := by
  unfold State.bootRepairs
  have h1 := Kept.applyRepairs s s.nv.softBeds (s.nv.fusedRows ++ s.nv.softRows) hs
  refine Kept.ite h1 ?_
  split
  · exact Kept.restartTick _ _ (Kept.applyRepairs _ _ _ h1)
  · exact Kept.fset _ Reg.shedStatus F.shedStatus_bootBist 1 (Kept.logEvent 0x0A 4 0 0 0 none h1)

@[simp] theorem Kept.checkTick {kq kn} (s : State) (hs : Kept kq kn s) : Kept kq kn (State.checkTick s) := by
  unfold State.checkTick
  exact Kept.ite (Kept.tryStoreReady _ (Kept.fset _ _ _ _ hs)) hs

@[simp] theorem Kept.closeGate {kq kn} (s : State) (hs : Kept kq kn s) : Kept kq kn (State.closeGate s) := by
  unfold State.closeGate; split <;> simp [hs]

@[simp] theorem Kept.stopAll {kq kn} (s : State) (why : Stopped) (hs : Kept kq kn s) : Kept kq kn (State.stopAll s why) := by
  unfold State.stopAll; simp +contextual (maxDischargeDepth := 60) [hs]

@[simp] theorem Kept.outOfPort {kq kn} (s : State) (lane : Nat) (hs : Kept kq kn s) : Kept kq kn (State.outOfPort s lane) := by
  unfold State.outOfPort; simp +contextual (maxDischargeDepth := 60) [hs]

@[simp] theorem Kept.toTrain {kq kn} (s : State) (p : Nat) (lanes : List Nat) (hs : Kept kq kn s) : Kept kq kn (State.toTrain s p lanes) := by
  unfold State.toTrain; simp +contextual (maxDischargeDepth := 60) [hs]

@[simp] theorem Kept.testLane {kq kn} (s : State) (p : Nat) (any : Bool) (x : Nat × Nat) (hs : Kept kq kn s) : Kept kq kn (State.testLane s p any x) := by
  unfold State.testLane; simp +contextual (maxDischargeDepth := 60) [hs]

@[simp] theorem Kept.toTap {kq kn} (s : State) (stage : Nat) (hs : Kept kq kn s) : Kept kq kn (State.toTap s stage) := by
  unfold State.toTap; simp [hs]

@[simp] theorem Kept.stageFail {kq kn} (s : State) (p cause : Nat) (hs : Kept kq kn s) : Kept kq kn (State.stageFail s p cause) := by
  unfold State.stageFail; simp +contextual (maxDischargeDepth := 60) [hs]

@[simp] theorem Kept.laneTrained {kq kn} (s : State) (lane : Nat) (x : LaneTrained) (hs : Kept kq kn s) : Kept kq kn (State.laneTrained s lane x) := by
  unfold State.laneTrained; simp +contextual (maxDischargeDepth := 60) [hs]

@[simp] theorem Kept.setFar {kq kn} (s : State) (p : Nat) (b : Bytes) (hs : Kept kq kn s) : Kept kq kn (State.setFar s p b) := by
  unfold State.setFar; simp +contextual (maxDischargeDepth := 60) [hs]

@[simp] theorem Kept.linkActive {kq kn} (s : State) (p k : Nat) (hs : Kept kq kn s) : Kept kq kn (State.linkActive s p k) := by
  unfold State.linkActive; simp +contextual (maxDischargeDepth := 60) [hs]

@[simp] theorem Kept.freshLink {kq kn} (s : State) (p : Nat) (b : Bytes) (hs : Kept kq kn s) : Kept kq kn (State.freshLink s p b) := by
  unfold State.freshLink; simp [hs]

@[simp] theorem Kept.tryFullRate {kq kn} (s : State) (p : Nat) (hs : Kept kq kn s) : Kept kq kn (State.tryFullRate s p) := by
  unfold State.tryFullRate; simp [hs]

@[simp] theorem Kept.tapCap {kq kn} (s : State) (cap : Bytes) (hs : Kept kq kn s) : Kept kq kn (State.tapCap s cap) := by
  unfold State.tapCap; simp +contextual (maxDischargeDepth := 60) [hs]

@[simp] theorem Kept.advertise {kq kn} (s : State) (p : Nat) (hs : Kept kq kn s) : Kept kq kn (State.advertise s p) := by
  unfold State.advertise; simp +contextual (maxDischargeDepth := 60) [hs]

@[simp] theorem Kept.noteSent {kq kn} (s : State) (o : TimeOut) (hs : Kept kq kn s) : Kept kq kn (s.noteSent o) := by
  cases o <;> exact hs

@[simp] theorem Kept.countNak {kq kn} (s : State) (l : Nat) (hs : Kept kq kn s) : Kept kq kn (State.countNak s l) := by
  unfold State.countNak; (repeat' split) <;> simp [hs]

@[simp] theorem Kept.sendFlit {kq kn} (s : State) (l kind seq : Nat) (payload : Bytes) (hs : Kept kq kn s) : Kept kq kn (State.sendFlit s l kind seq payload) := by
  unfold State.sendFlit; simp +contextual (maxDischargeDepth := 60) [hs]

@[simp] theorem Kept.countOut {kq kn} (s : State) (out cls : Nat) (hs : Kept kq kn s) : Kept kq kn (State.countOut s out cls) := by
  unfold State.countOut; simp +contextual (maxDischargeDepth := 60) [hs]

@[simp] theorem Kept.sendCell {kq kn} (s : State) (l : Nat) (c : Copy) (hs : Kept kq kn s) : Kept kq kn (s.sendCell l c) := by
  unfold State.sendCell
  split
  · exact hs
  · rename_i k _
    extract_lets x ctx i mark cell
    have h1 : Kept kq kn (if i = 0 then s.mirror k 1 0 (s.ioCode c.out) (numAt cell 0 8) else (s, k)).1 := by
      split
      · exact Kept.mirror _ _ _ _ _ _ hs
      · exact hs
    generalize (if i = 0 then s.mirror k 1 0 (s.ioCode c.out) (numAt cell 0 8) else (s, k)) = a at h1
    obtain ⟨t, k2⟩ := a
    dsimp only at h1 ⊢
    split <;> simp +contextual (maxDischargeDepth := 60) [h1]

@[simp] theorem Kept.flitSlot {kq kn} (s : State) (l : Nat) (hs : Kept kq kn s) : Kept kq kn (State.flitSlot s l) := by
  unfold State.flitSlot
  have h0 := Kept.fenceSweep s hs
  generalize s.fenceSweep = t at h0
  dsimp only
  (repeat' split) <;> simp +contextual (maxDischargeDepth := 60) [h0]

@[simp] theorem Kept.discardCell {kq kn} (s : State) (l : Nat) (hs : Kept kq kn s) : Kept kq kn (State.discardCell s l) := by
  unfold State.discardCell; simp [hs]

@[simp] theorem Kept.badCell {kq kn} (s : State) (l cls ctx : Nat) (hs : Kept kq kn s) : Kept kq kn (State.badCell s l cls ctx) := by
  unfold State.badCell; dsimp only; (repeat' split) <;> simp +contextual (maxDischargeDepth := 60) [*]

@[simp] theorem Kept.firstCell {kq kn} (s : State) (l hdr : Nat) (cell : Bytes) (hs : Kept kq kn s) :
    Kept kq kn (s.firstCell l hdr cell) := by
  unfold State.firstCell
  have h1 := Kept.takeId s hs
  generalize s.takeId = a at h1
  obtain ⟨i, s'⟩ := a
  dsimp only at h1 ⊢
  split <;> simp +contextual (maxDischargeDepth := 60) [h1]

@[simp] theorem Kept.badFirst {kq kn} (s : State) (l hdr : Nat) (cell : Bytes) (hs : Kept kq kn s) : Kept kq kn (State.badFirst s l hdr cell) := by
  unfold State.badFirst
  exact Kept.badCell _ _ _ _ (Kept.mirror _ _ _ _ _ _ hs)

@[simp] theorem Kept.countLater {kq kn} (s : State) (k : Pk) (hs : Kept kq kn s) : Kept kq kn (State.countLater s k) := by
  unfold State.countLater; (repeat' split) <;> simp +contextual (maxDischargeDepth := 60) [hs]

@[simp] theorem Kept.orphanCopy {kq kn} (s : State) (k : Pk) (c : Copy) (hs : Kept kq kn s) : Kept kq kn (State.orphanCopy s k c) := by
  unfold State.orphanCopy; simp +contextual (maxDischargeDepth := 60) [hs]

@[simp] theorem Kept.laterCell {kq kn} (s : State) (l hdr : Nat) (cell : Bytes) (k : Pk) (hs : Kept kq kn s) :
    Kept kq kn (s.laterCell l hdr cell k) := by
  unfold State.laterCell
  have h1 := Kept.takeId s hs
  generalize s.takeId = a at h1
  obtain ⟨i, s'⟩ := a
  dsimp only at h1 ⊢
  (repeat' split) <;> simp +contextual (maxDischargeDepth := 60) [h1]

@[simp] theorem Kept.epochCell {kq kn} (s : State) (l hdr : Nat) (k : Pk) (hs : Kept kq kn s) : Kept kq kn (State.epochCell s l hdr k) := by
  unfold State.epochCell
  have h1 := Kept.creditBack _ l (nbits hdr 2 2) 1 (Kept.telemDrops _ (linkIo l) 1 (Kept.countAt _ Reg.epochDrop (linkIo l) 1
    (Kept.mirrorAt s k.pid 2 mrEpochDrop 0x1FF hs)))
  exact Kept.closeAborted _ _ (Kept.ite (Kept.setLink _ _ _ h1) (Kept.setLink _ _ _ h1))

@[simp] theorem Kept.takeCell {kq kn} (s : State) (l : Nat) (cell : Bytes) (hs : Kept kq kn s) : Kept kq kn (State.takeCell s l cell) := by
  unfold State.takeCell; dsimp only; (repeat' split) <;> simp +contextual (maxDischargeDepth := 60) [*]

@[simp] theorem Kept.cellFlit {kq kn} (s : State) (l : Nat) (t : Trailer) (cell : Bytes) (hs : Kept kq kn s) : Kept kq kn (State.cellFlit s l t cell) := by
  unfold State.cellFlit; simp +contextual (maxDischargeDepth := 60) [hs]

@[simp] theorem Kept.nakRetrain {kq kn} (s : State) (l : Nat) (hs : Kept kq kn s) : Kept kq kn (State.nakRetrain s l) := by
  unfold State.nakRetrain; simp [hs]

@[simp] theorem Kept.fecFixed {kq kn} (s : State) (l : Nat) (x : Nat × Nat × Nat) (hs : Kept kq kn s) : Kept kq kn (State.fecFixed s l x) := by
  unfold State.fecFixed; simp +contextual (maxDischargeDepth := 60) [hs]

@[simp] theorem Kept.fecLost {kq kn} (s : State) (l lane : Nat) (hs : Kept kq kn s) : Kept kq kn (State.fecLost s l lane) := by
  unfold State.fecLost; simp +contextual (maxDischargeDepth := 60) [hs]

@[simp] theorem Kept.countFec {kq kn} (s : State) (l : Nat) (f : Fec) (hs : Kept kq kn s) : Kept kq kn (State.countFec s l f) := by
  unfold State.countFec; simp +contextual (maxDischargeDepth := 60) [hs]

@[simp] theorem Kept.takeFlit {kq kn} (s : State) (port : Nat) (bad : Bool) (flit : Bytes) (hs : Kept kq kn s) : Kept kq kn (State.takeFlit s port bad flit) := by
  unfold State.takeFlit; simp +contextual (maxDischargeDepth := 60) [hs]

/-- Every flit whose slot has come keeps the invariant, however many there are. -/
@[simp] theorem Kept.takeSlots {kq kn} (n l : Nat) {s : State} (hs : Kept kq kn s) : Kept kq kn (s.takeSlots l n) := by
  induction n generalizing s with
  | zero => exact hs
  | succ n ih =>
    unfold State.takeSlots
    split
    · exact ih (Kept.takeFlit _ l _ _ (by simp [hs]))
    · exact hs

@[simp] theorem Kept.takeDesc {kq kn} (s : State) (ring : Nat) (d : BitVec 512) (hs : Kept kq kn s) : Kept kq kn (State.takeDesc s ring d) := by
  unfold State.takeDesc; split <;> simp [hs]

@[simp] theorem Kept.jobTableLost {kq kn} (s : State) (j : Nat) (hs : Kept kq kn s) : Kept kq kn (State.jobTableLost s j) := by
  unfold State.jobTableLost; simp [hs]

@[simp] theorem Kept.freeWaits {kq kn} (s : State) (c : Ref) (hs : Kept kq kn s) : Kept kq kn (State.freeWaits s c) := by
  unfold State.freeWaits; simp [hs]

@[simp] theorem Kept.ctxLost {kq kn} (s : State) (x : Ctx) (hs : Kept kq kn s) : Kept kq kn (State.ctxLost s x) := by
  unfold State.ctxLost; dsimp only; (repeat' split) <;> simp +contextual (maxDischargeDepth := 60) [hs]

@[simp] theorem Kept.respondTo {kq kn} (s : State) (m : Master) (respOk : Bool) (op package seq status : Nat) (payload : Bytes) (hs : Kept kq kn s) : Kept kq kn (State.respondTo s m respOk op package seq status payload) := by
  unfold State.respondTo; simp +contextual (maxDischargeDepth := 60) [hs]

@[simp] theorem Kept.respond {kq kn} (s : State) (m : Master) (respOk : Bool) (q : Mail) (status : Nat) (payload : Bytes) (hs : Kept kq kn s) : Kept kq kn (State.respond s m respOk q status payload) := by
  unfold State.respond; simp [hs]

@[simp] theorem Kept.readRequest {kq kn} (s : State) (m : Master) (len : Nat) (hs : Kept kq kn s) : Kept kq kn (State.readRequest s m len) := by
  unfold State.readRequest; simp +contextual (maxDischargeDepth := 60) [hs]

theorem Kept.mail {kq kn} {s u : State} {m req op need f} (hs : Kept kq kn s) (hf : ∀ t q, Kept kq kn t → Kept kq kn (f t q))
    (h : s.mail m req op need f = .next u) : Kept kq kn u := by
  unfold State.mail at h
  refine Kept.act hs ?_ h
  dsimp only
  (repeat' split) <;> first | exact hs | exact hf _ _ (by simp [hs]) | simp +contextual (maxDischargeDepth := 60) [hs]

@[simp] theorem Kept.dropSlice {kq kn} (s : State) (u : Nat) (hs : Kept kq kn s) : Kept kq kn (State.dropSlice s u) := by
  unfold State.dropSlice; simp [hs]

@[simp] theorem Kept.sliceTake {kq kn} (s : State) (e user : Nat) (hs : Kept kq kn s) : Kept kq kn (State.sliceTake s e user) := by
  unfold State.sliceTake; simp +contextual (maxDischargeDepth := 60) [hs]

@[simp] theorem Kept.startSlice {kq kn} (s : State) (r : SliceRun) (user : Nat) (hs : Kept kq kn s) : Kept kq kn (State.startSlice s r user) := by
  unfold State.startSlice; simp +contextual (maxDischargeDepth := 60) [hs]

@[simp] theorem Kept.freeSlice {kq kn} (s : State) (r : SliceRun) (hs : Kept kq kn s) : Kept kq kn (State.freeSlice s r) := by
  unfold State.freeSlice; simp +contextual (maxDischargeDepth := 60) [hs]

@[simp] theorem Kept.answerSlice {kq kn} (s : State) (r : SliceRun) (status : Nat) (hs : Kept kq kn s) : Kept kq kn (State.answerSlice s r status) := by
  unfold State.answerSlice; simp [hs]

@[simp] theorem Kept.bedFailed {kq kn} (s : State) (b : Nat) (hs : Kept kq kn s) : Kept kq kn (s.bedFailed b) := by
  unfold State.bedFailed
  have hn : ∀ (t : State) l, Kept kq kn t → Kept kq kn { t with nv := { t.nv with softBeds := l } } := fun _ _ h => h
  dsimp only
  (repeat' split)
  · simp +contextual (maxDischargeDepth := 60) [hs]
  · refine Kept.logUnit _ _ _ _ _ _ (hn _ _ ?_)
    simp +contextual (maxDischargeDepth := 60) [hs]
  · exact hs

@[simp] theorem Kept.pcFailed {kq kn} (s : State) (u : Nat) (hs : Kept kq kn s) : Kept kq kn (State.pcFailed s u) := by
  unfold State.pcFailed; simp +contextual (maxDischargeDepth := 60) [hs]

@[simp] theorem Kept.unitFailed {kq kn} (s : State) (u : Nat) (hs : Kept kq kn s) : Kept kq kn (State.unitFailed s u) := by
  unfold State.unitFailed; split <;> simp [hs]

@[simp] theorem Kept.correctedError {kq kn} (s : State) (u : Nat) (hs : Kept kq kn s) : Kept kq kn (State.correctedError s u) := by
  unfold State.correctedError; simp +contextual (maxDischargeDepth := 60) [hs]

@[simp] theorem Kept.loseLine {kq kn} (s : State) (line : Nat) (hs : Kept kq kn s) : Kept kq kn (State.loseLine s line) := by
  unfold State.loseLine; (repeat' split) <;> simp +contextual (maxDischargeDepth := 60) [hs]

@[simp] theorem Kept.scrubTick {kq kn} (s : State) (hs : Kept kq kn s) : Kept kq kn (State.scrubTick s) := by
  unfold State.scrubTick
  exact Kept.each (fun s x h => by simp [h]) hs

@[simp] theorem Kept.overtake {kq kn} (s : State) (u : Nat) (hs : Kept kq kn s) : Kept kq kn (State.overtake s u) := by
  unfold State.overtake; (repeat' split) <;> simp +contextual (maxDischargeDepth := 60) [hs]

@[simp] theorem Kept.setThrottle {kq kn} (s : State) (n : Nat) (hs : Kept kq kn s) : Kept kq kn (State.setThrottle s n) := by
  unfold State.setThrottle; simp [hs]

@[simp] theorem Kept.applyThrottle {kq kn} (s : State) (depth cause : Nat) (hs : Kept kq kn s) : Kept kq kn (State.applyThrottle s depth cause) := by
  unfold State.applyThrottle; simp +contextual (maxDischargeDepth := 60) [hs]

@[simp] theorem Kept.clearHealth {kq kn} (s : State) (hs : Kept kq kn s) : Kept kq kn (State.clearHealth s) := by
  unfold State.clearHealth; simp [hs]

@[simp] theorem Kept.restartShed {kq kn} (s : State) (hs : Kept kq kn s) : Kept kq kn (State.restartShed s) := by
  unfold State.restartShed; simp +contextual (maxDischargeDepth := 60) [hs]

@[simp] theorem Kept.shedRuns {kq kn} (s : State) (hs : Kept kq kn s) : Kept kq kn (State.shedRuns s) := by
  unfold State.shedRuns; simp +contextual (maxDischargeDepth := 60) [hs]

@[simp] theorem Kept.leaveRecovery {kq kn} (s : State) (hs : Kept kq kn s) : Kept kq kn (State.leaveRecovery s) := by
  unfold State.leaveRecovery; simp +contextual (maxDischargeDepth := 60) [hs]

@[simp] theorem Kept.flashWrite {kq kn} (s : State) (off : Nat) (b : Bytes) (hs : Kept kq kn s) : Kept kq kn (s.flashWrite off b) := hs

@[simp] theorem Kept.requestSlice {kq kn} (s : State) (m : Master) (respOk : Bool) (q : Mail) (u : Nat) (repair : Bool) (hs : Kept kq kn s) : Kept kq kn (State.requestSlice s m respOk q u repair) := by
  unfold State.requestSlice; split <;> simp [hs]

@[simp] theorem Kept.burn {kq kn} (s : State) (hs : Kept kq kn s) : Kept kq kn s.burn := by
  obtain ⟨h1, h2, ⟨a, b, c, d, e, f⟩, h4⟩ := hs
  exact ⟨h1, h2, ⟨a, b, c, d, e, f.trans (List.prefix_append _ _)⟩, h4⟩

@[simp] theorem Kept.changeLife {kq kn} (s : State) (goal : Nat) (hs : Kept kq kn s) : Kept kq kn (s.changeLife goal) := by
  unfold State.changeLife
  dsimp only
  refine Kept.refOk _ (Kept.tapDown _ _ (Kept.resetTo _ (Kept.logEvent _ _ _ _ _ _ ?_)))
  obtain ⟨h1, h2, ⟨a, b, c, d, e, f⟩, h4⟩ := hs
  exact ⟨h1, Nat.zero_le _, ⟨a, b, c, d, fun x => by simp [e x], f⟩, h4⟩

@[simp] theorem Kept.request {kq kn} (s : State) (q : ClaimReq) (hs : Kept kq kn s) : Kept kq kn (State.request s q) := by
  unfold State.request; simp [hs]

@[simp] theorem Kept.claimResult {kq kn} (s : State) (q : ClaimReq) (st : Nat) (hs : Kept kq kn s) : Kept kq kn (State.claimResult s q st) := by
  unfold State.claimResult; (repeat' split) <;> simp +contextual (maxDischargeDepth := 60) [hs]

@[simp] theorem Kept.release {kq kn} (s : State) (q : ClaimReq) (hs : Kept kq kn s) : Kept kq kn (State.release s q) := by
  unfold State.release; simp +contextual (maxDischargeDepth := 60) [hs]

theorem Kept.claim {kq kn} (a : State × List Nat) (q : ClaimReq) (hs : Kept kq kn a.1) : Kept kq kn (State.claim a q).1 := by
  unfold State.claim
  dsimp only
  (repeat' split) <;> simp +contextual (maxDischargeDepth := 60) [hs]

@[simp] theorem Kept.applyClaims {kq kn} (s : State) (hs : Kept kq kn s) : Kept kq kn s.applyClaims := by
  unfold State.applyClaims
  have h : Kept kq kn ((s.requests false).foldl State.claim (s.each (s.requests true) State.release, [])).1 :=
    Kept.foldFst (fun a b h => Kept.claim a b h) (by simp +contextual (maxDischargeDepth := 60) [hs])
  exact h

@[simp] theorem Kept.svStart {kq kn} (s : State) (cmd : Option Ref) (card addr : Nat) (hs : Kept kq kn s) : Kept kq kn (State.svStart s cmd card addr) := by
  unfold State.svStart; simp [hs]

@[simp] theorem Kept.svTick {kq kn} (s : State) (hs : Kept kq kn s) : Kept kq kn (State.svTick s) := by
  unfold State.svTick; split <;> simp [hs]

@[simp] theorem Kept.stepped {kq kn} (s : State) (hs : Kept kq kn s) : Kept kq kn (State.stepped s) := by
  unfold State.stepped; simp +contextual (maxDischargeDepth := 60) [hs]

@[simp] theorem Kept.holdReleases {kq kn} (s : State) (hs : Kept kq kn s) : Kept kq kn (State.holdReleases s) := by
  unfold State.holdReleases; simp [hs]

@[simp] theorem Kept.loadNow {kq kn} (s : State) (v : Word64) (hs : Kept kq kn s) : Kept kq kn (State.loadNow s v) := by
  unfold State.loadNow; simp +contextual (maxDischargeDepth := 60) [hs]

@[simp] theorem Kept.loadRefused {kq kn} (s : State) (hs : Kept kq kn s) : Kept kq kn (State.loadRefused s) := by
  unfold State.loadRefused; simp [hs]

@[simp] theorem Kept.takeLoad {kq kn} (s : State) (hs : Kept kq kn s) : Kept kq kn (State.takeLoad s) := by
  unfold State.takeLoad; dsimp only; (repeat' split) <;> simp +contextual (maxDischargeDepth := 60) [hs]

@[simp] theorem Kept.newRole {kq kn} (s : State) (old : Nat) (hs : Kept kq kn s) : Kept kq kn (State.newRole s old) := by
  unfold State.newRole; simp +contextual (maxDischargeDepth := 60) [hs]

@[simp] theorem Kept.queueTime {kq kn} (s : State) (l : Nat) (o : TimeOut) (hs : Kept kq kn s) : Kept kq kn (State.queueTime s l o) := by
  unfold State.queueTime; simp [hs]

@[simp] theorem Kept.missedReply {kq kn} (s : State) (hs : Kept kq kn s) : Kept kq kn (State.missedReply s) := by
  unfold State.missedReply; simp +contextual (maxDischargeDepth := 60) [hs]

@[simp] theorem Kept.addSample {kq kn} (s : State) (offset delay : Int) (hs : Kept kq kn s) : Kept kq kn (State.addSample s offset delay) := by
  unfold State.addSample; simp +contextual (maxDischargeDepth := 60) [hs]

@[simp] theorem Kept.acquire {kq kn} (s : State) (hs : Kept kq kn s) : Kept kq kn (State.acquire s) := by
  unfold State.acquire; simp [hs]

@[simp] theorem Kept.showHops {kq kn} (s : State) (hops bound : Nat) (hs : Kept kq kn s) : Kept kq kn (State.showHops s hops bound) := by
  unfold State.showHops; simp [hs]

@[simp] theorem Kept.lockedSample {kq kn} (s : State) (offset : Int) (hs : Kept kq kn s) : Kept kq kn (State.lockedSample s offset) := by
  unfold State.lockedSample; simp +contextual (maxDischargeDepth := 60) [hs]

@[simp] theorem Kept.acquireSample {kq kn} (s : State) (offset : Int) (hs : Kept kq kn s) : Kept kq kn (State.acquireSample s offset) := by
  unfold State.acquireSample; simp +contextual (maxDischargeDepth := 60) [hs]

@[simp] theorem Kept.takeSample {kq kn} (s : State) (offset delay : Int) (hs : Kept kq kn s) : Kept kq kn (State.takeSample s offset delay) := by
  unfold State.takeSample; simp +contextual (maxDischargeDepth := 60) [hs]

@[simp] theorem Kept.restamp {kq kn} (s : State) (pid : Nat) (hs : Kept kq kn s) : Kept kq kn (State.restamp s pid) := by
  unfold State.restamp; dsimp only; (repeat' split) <;> simp +contextual (maxDischargeDepth := 60) [hs]

@[simp] theorem Kept.flip {kq kn} (s : State) (hs : Kept kq kn s) : Kept kq kn (State.flip s) := by
  unfold State.flip
  exact Kept.each (fun s x h => by simp [h]) (by simp [hs])

@[simp] theorem Kept.flipAt {kq kn} (s : State) (hs : Kept kq kn s) : Kept kq kn (State.flipAt s) := by
  unfold State.flipAt; simp [hs]

@[simp] theorem Kept.refill {kq kn} (s : State) (hs : Kept kq kn s) : Kept kq kn (State.refill s) := by
  unfold State.refill; simp +contextual (maxDischargeDepth := 60) [hs]

@[simp] theorem Kept.qosTick {kq kn} (s : State) (hs : Kept kq kn s) : Kept kq kn (State.qosTick s) := by
  unfold State.qosTick
  exact Kept.each (fun s x h => by simp [h]) hs

@[simp] theorem Kept.sampleDepths {kq kn} (s : State) (hs : Kept kq kn s) : Kept kq kn (State.sampleDepths s) := by
  unfold State.sampleDepths; simp +contextual (maxDischargeDepth := 60) [hs]

@[simp] theorem Kept.pulse {kq kn} (s : State) (hs : Kept kq kn s) : Kept kq kn (State.pulse s) := by
  unfold State.pulse; simp [hs]

@[simp] theorem Kept.slew {kq kn} (s : State) (hs : Kept kq kn s) : Kept kq kn (State.slew s) := by
  unfold State.slew; simp [hs]

@[simp] theorem Kept.ageBuffers {kq kn} (s : State) (hs : Kept kq kn s) : Kept kq kn (State.ageBuffers s) := by
  unfold State.ageBuffers; simp +contextual (maxDischargeDepth := 60) [hs]

@[simp] theorem Kept.countLines {kq kn} (s : State) (hs : Kept kq kn s) : Kept kq kn (State.countLines s) := by
  unfold State.countLines; dsimp only; split <;> simp +contextual (maxDischargeDepth := 60) [hs]

@[simp] theorem Kept.tick {kq kn} (s : State) (hs : Kept kq kn s) : Kept kq kn (State.tick s) := by
  unfold State.tick; simp +contextual (maxDischargeDepth := 60) [hs]

theorem Kept.fabric {kq kn} {s u : State} {c op p f} (hs : Kept kq kn s) (hf : ∀ x, Kept kq kn (f x)) (h : s.fabric c op p f = .next u) :
    Kept kq kn u := by
  unfold State.fabric at h
  split at h
  · exact Kept.stay hs h
  · exact Kept.act hs (by split <;> simp [hs, hf]) h

@[simp] theorem Kept.imageFault {kq kn} (s : State) (c : Ref) (hs : Kept kq kn s) : Kept kq kn (State.imageFault s c) := by
  unfold State.imageFault; simp [hs]

@[simp] theorem Kept.setBank {kq kn} (s : State) (n : Nat) (b : SchedBank) (hs : Kept kq kn s) : Kept kq kn (State.setBank s n b) := by
  unfold State.setBank; simp [hs]

@[simp] theorem Kept.loadBank {kq kn} (s : State) (c : Ref) (start slotLog2 n : Nat) (clear : Bool) (owners : Tab Nat) (hs : Kept kq kn s) : Kept kq kn (State.loadBank s c start slotLog2 n clear owners) := by
  unfold State.loadBank; simp +contextual (maxDischargeDepth := 60) [hs]

@[simp] theorem Kept.sense {kq kn} (s : State) (a : Nat) (v : Option Int) (hs : Kept kq kn s) : Kept kq kn (State.sense s a v) := by
  unfold State.sense; split <;> simp [hs]

@[simp] theorem Kept.takeReadings {kq kn} (s : State) (r : Readings) (hs : Kept kq kn s) : Kept kq kn (State.takeReadings s r) := by
  unfold State.takeReadings; simp +contextual (maxDischargeDepth := 60) [hs]

@[simp] theorem Kept.heatStack {kq kn} (s : State) (k : Nat) (v : Option Int) (hs : Kept kq kn s) : Kept kq kn (State.heatStack s k v) := by
  unfold State.heatStack; (repeat' split) <;> simp +contextual (maxDischargeDepth := 60) [hs]

@[simp] theorem Kept.inletCheck {kq kn} (s : State) (c : Option Int) (hs : Kept kq kn s) : Kept kq kn (State.inletCheck s c) := by
  unfold State.inletCheck; simp +contextual (maxDischargeDepth := 60) [hs]

@[simp] theorem Kept.evaluate {kq kn} (s : State) (r : Readings) (hs : Kept kq kn s) : Kept kq kn (State.evaluate s r) := by
  unfold State.evaluate; simp +contextual (maxDischargeDepth := 60) [hs]

@[simp] theorem Kept.scoreUnit {kq kn} (s : State) (u : Nat) (hs : Kept kq kn s) : Kept kq kn (State.scoreUnit s u) := by
  unfold State.scoreUnit; simp +contextual (maxDischargeDepth := 60) [hs]

@[simp] theorem Kept.xferError {kq kn} (s : State) (p : VyProg) (x : VyXfer) (st : Nat) (hs : Kept kq kn s) : Kept kq kn (State.xferError s p x st) := by
  unfold State.xferError; simp (maxDischargeDepth := 60) [hs]

@[simp] theorem Kept.xferRead {kq kn} (s : State) (p : VyProg) (x : VyXfer) (hs : Kept kq kn s) : Kept kq kn (State.xferRead s p x) := by
  unfold State.xferRead; simp [hs]

end Sys2Proof.Machine
end

