-- ==== Sys2Proof/Laws/State.lean ====
section
/-! SUPPORT. What each update of the state leaves as it was, field by field, and what a read answers after a write. -/
namespace Sys2Proof.Machine

/-! `State.rset` changes `regs` alone. -/
@[simp] theorem State.rset_pending (s : State) (a : Nat) (v : Word64) : (s.rset a v).pending = s.pending := rfl
@[simp] theorem State.rset_freeCtr (s : State) (a : Nat) (v : Word64) : (s.rset a v).freeCtr = s.freeCtr := rfl
@[simp] theorem State.rset_pwr (s : State) (a : Nat) (v : Word64) : (s.rset a v).pwr = s.pwr := rfl
@[simp] theorem State.rset_nv (s : State) (a : Nat) (v : Word64) : (s.rset a v).nv = s.nv := rfl
@[simp] theorem State.rset_aon (s : State) (a : Nat) (v : Word64) : (s.rset a v).aon = s.aon := rfl
@[simp] theorem State.rset_host (s : State) (a : Nat) (v : Word64) : (s.rset a v).host = s.host := rfl
@[simp] theorem State.rset_jobs (s : State) (a : Nat) (v : Word64) : (s.rset a v).jobs = s.jobs := rfl
@[simp] theorem State.rset_ops (s : State) (a : Nat) (v : Word64) : (s.rset a v).ops = s.ops := rfl
@[simp] theorem State.rset_held (s : State) (a : Nat) (v : Word64) : (s.rset a v).held = s.held := rfl
@[simp] theorem State.rset_norms (s : State) (a : Nat) (v : Word64) : (s.rset a v).norms = s.norms := rfl
@[simp] theorem State.rset_restores (s : State) (a : Nat) (v : Word64) : (s.rset a v).restores = s.restores := rfl
@[simp] theorem State.rset_bedQ (s : State) (a : Nat) (v : Word64) : (s.rset a v).bedQ = s.bedQ := rfl
@[simp] theorem State.rset_sieves (s : State) (a : Nat) (v : Word64) : (s.rset a v).sieves = s.sieves := rfl
@[simp] theorem State.rset_vy (s : State) (a : Nat) (v : Word64) : (s.rset a v).vy = s.vy := rfl
@[simp] theorem State.rset_vyOps (s : State) (a : Nat) (v : Word64) : (s.rset a v).vyOps = s.vyOps := rfl
@[simp] theorem State.rset_fences (s : State) (a : Nat) (v : Word64) : (s.rset a v).fences = s.fences := rfl
@[simp] theorem State.rset_xb (s : State) (a : Nat) (v : Word64) : (s.rset a v).xb = s.xb := rfl
@[simp] theorem State.rset_links (s : State) (a : Nat) (v : Word64) : (s.rset a v).links = s.links := rfl
@[simp] theorem State.rset_graft (s : State) (a : Nat) (v : Word64) : (s.rset a v).graft = s.graft := rfl
@[simp] theorem State.rset_time (s : State) (a : Nat) (v : Word64) : (s.rset a v).time = s.time := rfl
@[simp] theorem State.rset_shed (s : State) (a : Nat) (v : Word64) : (s.rset a v).shed = s.shed := rfl
@[simp] theorem State.rset_out (s : State) (a : Nat) (v : Word64) : (s.rset a v).out = s.out := rfl

/-! `State.fset` changes `regs` alone. -/
@[simp] theorem State.fset_pending (s : State) (a : Nat) (f : Bits) (v : Nat) : (s.fset a f v).pending = s.pending := rfl
@[simp] theorem State.fset_freeCtr (s : State) (a : Nat) (f : Bits) (v : Nat) : (s.fset a f v).freeCtr = s.freeCtr := rfl
@[simp] theorem State.fset_pwr (s : State) (a : Nat) (f : Bits) (v : Nat) : (s.fset a f v).pwr = s.pwr := rfl
@[simp] theorem State.fset_nv (s : State) (a : Nat) (f : Bits) (v : Nat) : (s.fset a f v).nv = s.nv := rfl
@[simp] theorem State.fset_aon (s : State) (a : Nat) (f : Bits) (v : Nat) : (s.fset a f v).aon = s.aon := rfl
@[simp] theorem State.fset_host (s : State) (a : Nat) (f : Bits) (v : Nat) : (s.fset a f v).host = s.host := rfl
@[simp] theorem State.fset_jobs (s : State) (a : Nat) (f : Bits) (v : Nat) : (s.fset a f v).jobs = s.jobs := rfl
@[simp] theorem State.fset_ops (s : State) (a : Nat) (f : Bits) (v : Nat) : (s.fset a f v).ops = s.ops := rfl
@[simp] theorem State.fset_held (s : State) (a : Nat) (f : Bits) (v : Nat) : (s.fset a f v).held = s.held := rfl
@[simp] theorem State.fset_norms (s : State) (a : Nat) (f : Bits) (v : Nat) : (s.fset a f v).norms = s.norms := rfl
@[simp] theorem State.fset_restores (s : State) (a : Nat) (f : Bits) (v : Nat) : (s.fset a f v).restores = s.restores := rfl
@[simp] theorem State.fset_bedQ (s : State) (a : Nat) (f : Bits) (v : Nat) : (s.fset a f v).bedQ = s.bedQ := rfl
@[simp] theorem State.fset_sieves (s : State) (a : Nat) (f : Bits) (v : Nat) : (s.fset a f v).sieves = s.sieves := rfl
@[simp] theorem State.fset_vy (s : State) (a : Nat) (f : Bits) (v : Nat) : (s.fset a f v).vy = s.vy := rfl
@[simp] theorem State.fset_vyOps (s : State) (a : Nat) (f : Bits) (v : Nat) : (s.fset a f v).vyOps = s.vyOps := rfl
@[simp] theorem State.fset_fences (s : State) (a : Nat) (f : Bits) (v : Nat) : (s.fset a f v).fences = s.fences := rfl
@[simp] theorem State.fset_xb (s : State) (a : Nat) (f : Bits) (v : Nat) : (s.fset a f v).xb = s.xb := rfl
@[simp] theorem State.fset_links (s : State) (a : Nat) (f : Bits) (v : Nat) : (s.fset a f v).links = s.links := rfl
@[simp] theorem State.fset_graft (s : State) (a : Nat) (f : Bits) (v : Nat) : (s.fset a f v).graft = s.graft := rfl
@[simp] theorem State.fset_time (s : State) (a : Nat) (f : Bits) (v : Nat) : (s.fset a f v).time = s.time := rfl
@[simp] theorem State.fset_shed (s : State) (a : Nat) (f : Bits) (v : Nat) : (s.fset a f v).shed = s.shed := rfl
@[simp] theorem State.fset_out (s : State) (a : Nat) (f : Bits) (v : Nat) : (s.fset a f v).out = s.out := rfl

/-! `State.fadd` changes `regs` alone. -/
@[simp] theorem State.fadd_pending (s : State) (a : Nat) (f : Bits) (n : Nat) : (s.fadd a f n).pending = s.pending := rfl
@[simp] theorem State.fadd_freeCtr (s : State) (a : Nat) (f : Bits) (n : Nat) : (s.fadd a f n).freeCtr = s.freeCtr := rfl
@[simp] theorem State.fadd_pwr (s : State) (a : Nat) (f : Bits) (n : Nat) : (s.fadd a f n).pwr = s.pwr := rfl
@[simp] theorem State.fadd_nv (s : State) (a : Nat) (f : Bits) (n : Nat) : (s.fadd a f n).nv = s.nv := rfl
@[simp] theorem State.fadd_aon (s : State) (a : Nat) (f : Bits) (n : Nat) : (s.fadd a f n).aon = s.aon := rfl
@[simp] theorem State.fadd_host (s : State) (a : Nat) (f : Bits) (n : Nat) : (s.fadd a f n).host = s.host := rfl
@[simp] theorem State.fadd_jobs (s : State) (a : Nat) (f : Bits) (n : Nat) : (s.fadd a f n).jobs = s.jobs := rfl
@[simp] theorem State.fadd_ops (s : State) (a : Nat) (f : Bits) (n : Nat) : (s.fadd a f n).ops = s.ops := rfl
@[simp] theorem State.fadd_held (s : State) (a : Nat) (f : Bits) (n : Nat) : (s.fadd a f n).held = s.held := rfl
@[simp] theorem State.fadd_norms (s : State) (a : Nat) (f : Bits) (n : Nat) : (s.fadd a f n).norms = s.norms := rfl
@[simp] theorem State.fadd_restores (s : State) (a : Nat) (f : Bits) (n : Nat) : (s.fadd a f n).restores = s.restores := rfl
@[simp] theorem State.fadd_bedQ (s : State) (a : Nat) (f : Bits) (n : Nat) : (s.fadd a f n).bedQ = s.bedQ := rfl
@[simp] theorem State.fadd_sieves (s : State) (a : Nat) (f : Bits) (n : Nat) : (s.fadd a f n).sieves = s.sieves := rfl
@[simp] theorem State.fadd_vy (s : State) (a : Nat) (f : Bits) (n : Nat) : (s.fadd a f n).vy = s.vy := rfl
@[simp] theorem State.fadd_vyOps (s : State) (a : Nat) (f : Bits) (n : Nat) : (s.fadd a f n).vyOps = s.vyOps := rfl
@[simp] theorem State.fadd_fences (s : State) (a : Nat) (f : Bits) (n : Nat) : (s.fadd a f n).fences = s.fences := rfl
@[simp] theorem State.fadd_xb (s : State) (a : Nat) (f : Bits) (n : Nat) : (s.fadd a f n).xb = s.xb := rfl
@[simp] theorem State.fadd_links (s : State) (a : Nat) (f : Bits) (n : Nat) : (s.fadd a f n).links = s.links := rfl
@[simp] theorem State.fadd_graft (s : State) (a : Nat) (f : Bits) (n : Nat) : (s.fadd a f n).graft = s.graft := rfl
@[simp] theorem State.fadd_time (s : State) (a : Nat) (f : Bits) (n : Nat) : (s.fadd a f n).time = s.time := rfl
@[simp] theorem State.fadd_shed (s : State) (a : Nat) (f : Bits) (n : Nat) : (s.fadd a f n).shed = s.shed := rfl
@[simp] theorem State.fadd_out (s : State) (a : Nat) (f : Bits) (n : Nat) : (s.fadd a f n).out = s.out := rfl

/-! `State.notOwner` changes `regs` alone. -/
@[simp] theorem State.notOwner_pending (s : State) (m : Master) : (s.notOwner m).pending = s.pending := rfl
@[simp] theorem State.notOwner_freeCtr (s : State) (m : Master) : (s.notOwner m).freeCtr = s.freeCtr := rfl
@[simp] theorem State.notOwner_pwr (s : State) (m : Master) : (s.notOwner m).pwr = s.pwr := rfl
@[simp] theorem State.notOwner_nv (s : State) (m : Master) : (s.notOwner m).nv = s.nv := rfl
@[simp] theorem State.notOwner_aon (s : State) (m : Master) : (s.notOwner m).aon = s.aon := rfl
@[simp] theorem State.notOwner_host (s : State) (m : Master) : (s.notOwner m).host = s.host := rfl
@[simp] theorem State.notOwner_jobs (s : State) (m : Master) : (s.notOwner m).jobs = s.jobs := rfl
@[simp] theorem State.notOwner_ops (s : State) (m : Master) : (s.notOwner m).ops = s.ops := rfl
@[simp] theorem State.notOwner_held (s : State) (m : Master) : (s.notOwner m).held = s.held := rfl
@[simp] theorem State.notOwner_norms (s : State) (m : Master) : (s.notOwner m).norms = s.norms := rfl
@[simp] theorem State.notOwner_restores (s : State) (m : Master) : (s.notOwner m).restores = s.restores := rfl
@[simp] theorem State.notOwner_bedQ (s : State) (m : Master) : (s.notOwner m).bedQ = s.bedQ := rfl
@[simp] theorem State.notOwner_sieves (s : State) (m : Master) : (s.notOwner m).sieves = s.sieves := rfl
@[simp] theorem State.notOwner_vy (s : State) (m : Master) : (s.notOwner m).vy = s.vy := rfl
@[simp] theorem State.notOwner_vyOps (s : State) (m : Master) : (s.notOwner m).vyOps = s.vyOps := rfl
@[simp] theorem State.notOwner_fences (s : State) (m : Master) : (s.notOwner m).fences = s.fences := rfl
@[simp] theorem State.notOwner_xb (s : State) (m : Master) : (s.notOwner m).xb = s.xb := rfl
@[simp] theorem State.notOwner_links (s : State) (m : Master) : (s.notOwner m).links = s.links := rfl
@[simp] theorem State.notOwner_graft (s : State) (m : Master) : (s.notOwner m).graft = s.graft := rfl
@[simp] theorem State.notOwner_time (s : State) (m : Master) : (s.notOwner m).time = s.time := rfl
@[simp] theorem State.notOwner_shed (s : State) (m : Master) : (s.notOwner m).shed = s.shed := rfl
@[simp] theorem State.notOwner_out (s : State) (m : Master) : (s.notOwner m).out = s.out := rfl

/-! `State.denied` changes `regs` alone. -/
@[simp] theorem State.denied_pending (s : State) : (s.denied).pending = s.pending := rfl
@[simp] theorem State.denied_freeCtr (s : State) : (s.denied).freeCtr = s.freeCtr := rfl
@[simp] theorem State.denied_pwr (s : State) : (s.denied).pwr = s.pwr := rfl
@[simp] theorem State.denied_nv (s : State) : (s.denied).nv = s.nv := rfl
@[simp] theorem State.denied_aon (s : State) : (s.denied).aon = s.aon := rfl
@[simp] theorem State.denied_host (s : State) : (s.denied).host = s.host := rfl
@[simp] theorem State.denied_jobs (s : State) : (s.denied).jobs = s.jobs := rfl
@[simp] theorem State.denied_ops (s : State) : (s.denied).ops = s.ops := rfl
@[simp] theorem State.denied_held (s : State) : (s.denied).held = s.held := rfl
@[simp] theorem State.denied_norms (s : State) : (s.denied).norms = s.norms := rfl
@[simp] theorem State.denied_restores (s : State) : (s.denied).restores = s.restores := rfl
@[simp] theorem State.denied_bedQ (s : State) : (s.denied).bedQ = s.bedQ := rfl
@[simp] theorem State.denied_sieves (s : State) : (s.denied).sieves = s.sieves := rfl
@[simp] theorem State.denied_vy (s : State) : (s.denied).vy = s.vy := rfl
@[simp] theorem State.denied_vyOps (s : State) : (s.denied).vyOps = s.vyOps := rfl
@[simp] theorem State.denied_fences (s : State) : (s.denied).fences = s.fences := rfl
@[simp] theorem State.denied_xb (s : State) : (s.denied).xb = s.xb := rfl
@[simp] theorem State.denied_links (s : State) : (s.denied).links = s.links := rfl
@[simp] theorem State.denied_graft (s : State) : (s.denied).graft = s.graft := rfl
@[simp] theorem State.denied_time (s : State) : (s.denied).time = s.time := rfl
@[simp] theorem State.denied_shed (s : State) : (s.denied).shed = s.shed := rfl
@[simp] theorem State.denied_out (s : State) : (s.denied).out = s.out := rfl

/-! `State.bump` changes `freeCtr` alone. -/
@[simp] theorem State.bump_pending (s : State) : (s.bump).pending = s.pending := rfl
@[simp] theorem State.bump_pwr (s : State) : (s.bump).pwr = s.pwr := rfl
@[simp] theorem State.bump_nv (s : State) : (s.bump).nv = s.nv := rfl
@[simp] theorem State.bump_aon (s : State) : (s.bump).aon = s.aon := rfl
@[simp] theorem State.bump_regs (s : State) : (s.bump).regs = s.regs := rfl
@[simp] theorem State.bump_host (s : State) : (s.bump).host = s.host := rfl
@[simp] theorem State.bump_jobs (s : State) : (s.bump).jobs = s.jobs := rfl
@[simp] theorem State.bump_ops (s : State) : (s.bump).ops = s.ops := rfl
@[simp] theorem State.bump_held (s : State) : (s.bump).held = s.held := rfl
@[simp] theorem State.bump_norms (s : State) : (s.bump).norms = s.norms := rfl
@[simp] theorem State.bump_restores (s : State) : (s.bump).restores = s.restores := rfl
@[simp] theorem State.bump_bedQ (s : State) : (s.bump).bedQ = s.bedQ := rfl
@[simp] theorem State.bump_sieves (s : State) : (s.bump).sieves = s.sieves := rfl
@[simp] theorem State.bump_vy (s : State) : (s.bump).vy = s.vy := rfl
@[simp] theorem State.bump_vyOps (s : State) : (s.bump).vyOps = s.vyOps := rfl
@[simp] theorem State.bump_fences (s : State) : (s.bump).fences = s.fences := rfl
@[simp] theorem State.bump_xb (s : State) : (s.bump).xb = s.xb := rfl
@[simp] theorem State.bump_links (s : State) : (s.bump).links = s.links := rfl
@[simp] theorem State.bump_graft (s : State) : (s.bump).graft = s.graft := rfl
@[simp] theorem State.bump_time (s : State) : (s.bump).time = s.time := rfl
@[simp] theorem State.bump_shed (s : State) : (s.bump).shed = s.shed := rfl
@[simp] theorem State.bump_out (s : State) : (s.bump).out = s.out := rfl

/-! `State.emit` changes `out` alone. -/
@[simp] theorem State.emit_pending (s : State) (o : Output) : (s.emit o).pending = s.pending := rfl
@[simp] theorem State.emit_freeCtr (s : State) (o : Output) : (s.emit o).freeCtr = s.freeCtr := rfl
@[simp] theorem State.emit_pwr (s : State) (o : Output) : (s.emit o).pwr = s.pwr := rfl
@[simp] theorem State.emit_nv (s : State) (o : Output) : (s.emit o).nv = s.nv := rfl
@[simp] theorem State.emit_aon (s : State) (o : Output) : (s.emit o).aon = s.aon := rfl
@[simp] theorem State.emit_regs (s : State) (o : Output) : (s.emit o).regs = s.regs := rfl
@[simp] theorem State.emit_host (s : State) (o : Output) : (s.emit o).host = s.host := rfl
@[simp] theorem State.emit_jobs (s : State) (o : Output) : (s.emit o).jobs = s.jobs := rfl
@[simp] theorem State.emit_ops (s : State) (o : Output) : (s.emit o).ops = s.ops := rfl
@[simp] theorem State.emit_held (s : State) (o : Output) : (s.emit o).held = s.held := rfl
@[simp] theorem State.emit_norms (s : State) (o : Output) : (s.emit o).norms = s.norms := rfl
@[simp] theorem State.emit_restores (s : State) (o : Output) : (s.emit o).restores = s.restores := rfl
@[simp] theorem State.emit_bedQ (s : State) (o : Output) : (s.emit o).bedQ = s.bedQ := rfl
@[simp] theorem State.emit_sieves (s : State) (o : Output) : (s.emit o).sieves = s.sieves := rfl
@[simp] theorem State.emit_vy (s : State) (o : Output) : (s.emit o).vy = s.vy := rfl
@[simp] theorem State.emit_vyOps (s : State) (o : Output) : (s.emit o).vyOps = s.vyOps := rfl
@[simp] theorem State.emit_fences (s : State) (o : Output) : (s.emit o).fences = s.fences := rfl
@[simp] theorem State.emit_xb (s : State) (o : Output) : (s.emit o).xb = s.xb := rfl
@[simp] theorem State.emit_links (s : State) (o : Output) : (s.emit o).links = s.links := rfl
@[simp] theorem State.emit_graft (s : State) (o : Output) : (s.emit o).graft = s.graft := rfl
@[simp] theorem State.emit_time (s : State) (o : Output) : (s.emit o).time = s.time := rfl
@[simp] theorem State.emit_shed (s : State) (o : Output) : (s.emit o).shed = s.shed := rfl

/-! `State.setJob` changes `jobs` alone. -/
@[simp] theorem State.setJob_pending (s : State) (j : Nat) (b : Job) : (s.setJob j b).pending = s.pending := rfl
@[simp] theorem State.setJob_freeCtr (s : State) (j : Nat) (b : Job) : (s.setJob j b).freeCtr = s.freeCtr := rfl
@[simp] theorem State.setJob_pwr (s : State) (j : Nat) (b : Job) : (s.setJob j b).pwr = s.pwr := rfl
@[simp] theorem State.setJob_nv (s : State) (j : Nat) (b : Job) : (s.setJob j b).nv = s.nv := rfl
@[simp] theorem State.setJob_aon (s : State) (j : Nat) (b : Job) : (s.setJob j b).aon = s.aon := rfl
@[simp] theorem State.setJob_regs (s : State) (j : Nat) (b : Job) : (s.setJob j b).regs = s.regs := rfl
@[simp] theorem State.setJob_host (s : State) (j : Nat) (b : Job) : (s.setJob j b).host = s.host := rfl
@[simp] theorem State.setJob_ops (s : State) (j : Nat) (b : Job) : (s.setJob j b).ops = s.ops := rfl
@[simp] theorem State.setJob_held (s : State) (j : Nat) (b : Job) : (s.setJob j b).held = s.held := rfl
@[simp] theorem State.setJob_norms (s : State) (j : Nat) (b : Job) : (s.setJob j b).norms = s.norms := rfl
@[simp] theorem State.setJob_restores (s : State) (j : Nat) (b : Job) : (s.setJob j b).restores = s.restores := rfl
@[simp] theorem State.setJob_bedQ (s : State) (j : Nat) (b : Job) : (s.setJob j b).bedQ = s.bedQ := rfl
@[simp] theorem State.setJob_sieves (s : State) (j : Nat) (b : Job) : (s.setJob j b).sieves = s.sieves := rfl
@[simp] theorem State.setJob_vy (s : State) (j : Nat) (b : Job) : (s.setJob j b).vy = s.vy := rfl
@[simp] theorem State.setJob_vyOps (s : State) (j : Nat) (b : Job) : (s.setJob j b).vyOps = s.vyOps := rfl
@[simp] theorem State.setJob_fences (s : State) (j : Nat) (b : Job) : (s.setJob j b).fences = s.fences := rfl
@[simp] theorem State.setJob_xb (s : State) (j : Nat) (b : Job) : (s.setJob j b).xb = s.xb := rfl
@[simp] theorem State.setJob_links (s : State) (j : Nat) (b : Job) : (s.setJob j b).links = s.links := rfl
@[simp] theorem State.setJob_graft (s : State) (j : Nat) (b : Job) : (s.setJob j b).graft = s.graft := rfl
@[simp] theorem State.setJob_time (s : State) (j : Nat) (b : Job) : (s.setJob j b).time = s.time := rfl
@[simp] theorem State.setJob_shed (s : State) (j : Nat) (b : Job) : (s.setJob j b).shed = s.shed := rfl
@[simp] theorem State.setJob_out (s : State) (j : Nat) (b : Job) : (s.setJob j b).out = s.out := rfl

/-! `State.modJob` changes `jobs` alone. -/
@[simp] theorem State.modJob_pending (s : State) (j : Nat) (f : Job → Job) : (s.modJob j f).pending = s.pending := rfl
@[simp] theorem State.modJob_freeCtr (s : State) (j : Nat) (f : Job → Job) : (s.modJob j f).freeCtr = s.freeCtr := rfl
@[simp] theorem State.modJob_pwr (s : State) (j : Nat) (f : Job → Job) : (s.modJob j f).pwr = s.pwr := rfl
@[simp] theorem State.modJob_nv (s : State) (j : Nat) (f : Job → Job) : (s.modJob j f).nv = s.nv := rfl
@[simp] theorem State.modJob_aon (s : State) (j : Nat) (f : Job → Job) : (s.modJob j f).aon = s.aon := rfl
@[simp] theorem State.modJob_regs (s : State) (j : Nat) (f : Job → Job) : (s.modJob j f).regs = s.regs := rfl
@[simp] theorem State.modJob_host (s : State) (j : Nat) (f : Job → Job) : (s.modJob j f).host = s.host := rfl
@[simp] theorem State.modJob_ops (s : State) (j : Nat) (f : Job → Job) : (s.modJob j f).ops = s.ops := rfl
@[simp] theorem State.modJob_held (s : State) (j : Nat) (f : Job → Job) : (s.modJob j f).held = s.held := rfl
@[simp] theorem State.modJob_norms (s : State) (j : Nat) (f : Job → Job) : (s.modJob j f).norms = s.norms := rfl
@[simp] theorem State.modJob_restores (s : State) (j : Nat) (f : Job → Job) : (s.modJob j f).restores = s.restores := rfl
@[simp] theorem State.modJob_bedQ (s : State) (j : Nat) (f : Job → Job) : (s.modJob j f).bedQ = s.bedQ := rfl
@[simp] theorem State.modJob_sieves (s : State) (j : Nat) (f : Job → Job) : (s.modJob j f).sieves = s.sieves := rfl
@[simp] theorem State.modJob_vy (s : State) (j : Nat) (f : Job → Job) : (s.modJob j f).vy = s.vy := rfl
@[simp] theorem State.modJob_vyOps (s : State) (j : Nat) (f : Job → Job) : (s.modJob j f).vyOps = s.vyOps := rfl
@[simp] theorem State.modJob_fences (s : State) (j : Nat) (f : Job → Job) : (s.modJob j f).fences = s.fences := rfl
@[simp] theorem State.modJob_xb (s : State) (j : Nat) (f : Job → Job) : (s.modJob j f).xb = s.xb := rfl
@[simp] theorem State.modJob_links (s : State) (j : Nat) (f : Job → Job) : (s.modJob j f).links = s.links := rfl
@[simp] theorem State.modJob_graft (s : State) (j : Nat) (f : Job → Job) : (s.modJob j f).graft = s.graft := rfl
@[simp] theorem State.modJob_time (s : State) (j : Nat) (f : Job → Job) : (s.modJob j f).time = s.time := rfl
@[simp] theorem State.modJob_shed (s : State) (j : Nat) (f : Job → Job) : (s.modJob j f).shed = s.shed := rfl
@[simp] theorem State.modJob_out (s : State) (j : Nat) (f : Job → Job) : (s.modJob j f).out = s.out := rfl

/-! `State.modCtx` changes `host` alone. -/
@[simp] theorem State.modCtx_pending (s : State) (r : Ref) (f : Ctx → Ctx) : (s.modCtx r f).pending = s.pending := rfl
@[simp] theorem State.modCtx_freeCtr (s : State) (r : Ref) (f : Ctx → Ctx) : (s.modCtx r f).freeCtr = s.freeCtr := rfl
@[simp] theorem State.modCtx_pwr (s : State) (r : Ref) (f : Ctx → Ctx) : (s.modCtx r f).pwr = s.pwr := rfl
@[simp] theorem State.modCtx_nv (s : State) (r : Ref) (f : Ctx → Ctx) : (s.modCtx r f).nv = s.nv := rfl
@[simp] theorem State.modCtx_aon (s : State) (r : Ref) (f : Ctx → Ctx) : (s.modCtx r f).aon = s.aon := rfl
@[simp] theorem State.modCtx_regs (s : State) (r : Ref) (f : Ctx → Ctx) : (s.modCtx r f).regs = s.regs := rfl
@[simp] theorem State.modCtx_jobs (s : State) (r : Ref) (f : Ctx → Ctx) : (s.modCtx r f).jobs = s.jobs := rfl
@[simp] theorem State.modCtx_ops (s : State) (r : Ref) (f : Ctx → Ctx) : (s.modCtx r f).ops = s.ops := rfl
@[simp] theorem State.modCtx_held (s : State) (r : Ref) (f : Ctx → Ctx) : (s.modCtx r f).held = s.held := rfl
@[simp] theorem State.modCtx_norms (s : State) (r : Ref) (f : Ctx → Ctx) : (s.modCtx r f).norms = s.norms := rfl
@[simp] theorem State.modCtx_restores (s : State) (r : Ref) (f : Ctx → Ctx) : (s.modCtx r f).restores = s.restores := rfl
@[simp] theorem State.modCtx_bedQ (s : State) (r : Ref) (f : Ctx → Ctx) : (s.modCtx r f).bedQ = s.bedQ := rfl
@[simp] theorem State.modCtx_sieves (s : State) (r : Ref) (f : Ctx → Ctx) : (s.modCtx r f).sieves = s.sieves := rfl
@[simp] theorem State.modCtx_vy (s : State) (r : Ref) (f : Ctx → Ctx) : (s.modCtx r f).vy = s.vy := rfl
@[simp] theorem State.modCtx_vyOps (s : State) (r : Ref) (f : Ctx → Ctx) : (s.modCtx r f).vyOps = s.vyOps := rfl
@[simp] theorem State.modCtx_fences (s : State) (r : Ref) (f : Ctx → Ctx) : (s.modCtx r f).fences = s.fences := rfl
@[simp] theorem State.modCtx_xb (s : State) (r : Ref) (f : Ctx → Ctx) : (s.modCtx r f).xb = s.xb := rfl
@[simp] theorem State.modCtx_links (s : State) (r : Ref) (f : Ctx → Ctx) : (s.modCtx r f).links = s.links := rfl
@[simp] theorem State.modCtx_graft (s : State) (r : Ref) (f : Ctx → Ctx) : (s.modCtx r f).graft = s.graft := rfl
@[simp] theorem State.modCtx_time (s : State) (r : Ref) (f : Ctx → Ctx) : (s.modCtx r f).time = s.time := rfl
@[simp] theorem State.modCtx_shed (s : State) (r : Ref) (f : Ctx → Ctx) : (s.modCtx r f).shed = s.shed := rfl
@[simp] theorem State.modCtx_out (s : State) (r : Ref) (f : Ctx → Ctx) : (s.modCtx r f).out = s.out := rfl

/-! `State.setOp` changes `ops` alone. -/
@[simp] theorem State.setOp_pending (s : State) (o : Op) : (s.setOp o).pending = s.pending := rfl
@[simp] theorem State.setOp_freeCtr (s : State) (o : Op) : (s.setOp o).freeCtr = s.freeCtr := rfl
@[simp] theorem State.setOp_pwr (s : State) (o : Op) : (s.setOp o).pwr = s.pwr := rfl
@[simp] theorem State.setOp_nv (s : State) (o : Op) : (s.setOp o).nv = s.nv := rfl
@[simp] theorem State.setOp_aon (s : State) (o : Op) : (s.setOp o).aon = s.aon := rfl
@[simp] theorem State.setOp_regs (s : State) (o : Op) : (s.setOp o).regs = s.regs := rfl
@[simp] theorem State.setOp_host (s : State) (o : Op) : (s.setOp o).host = s.host := rfl
@[simp] theorem State.setOp_jobs (s : State) (o : Op) : (s.setOp o).jobs = s.jobs := rfl
@[simp] theorem State.setOp_held (s : State) (o : Op) : (s.setOp o).held = s.held := rfl
@[simp] theorem State.setOp_norms (s : State) (o : Op) : (s.setOp o).norms = s.norms := rfl
@[simp] theorem State.setOp_restores (s : State) (o : Op) : (s.setOp o).restores = s.restores := rfl
@[simp] theorem State.setOp_bedQ (s : State) (o : Op) : (s.setOp o).bedQ = s.bedQ := rfl
@[simp] theorem State.setOp_sieves (s : State) (o : Op) : (s.setOp o).sieves = s.sieves := rfl
@[simp] theorem State.setOp_vy (s : State) (o : Op) : (s.setOp o).vy = s.vy := rfl
@[simp] theorem State.setOp_vyOps (s : State) (o : Op) : (s.setOp o).vyOps = s.vyOps := rfl
@[simp] theorem State.setOp_fences (s : State) (o : Op) : (s.setOp o).fences = s.fences := rfl
@[simp] theorem State.setOp_xb (s : State) (o : Op) : (s.setOp o).xb = s.xb := rfl
@[simp] theorem State.setOp_links (s : State) (o : Op) : (s.setOp o).links = s.links := rfl
@[simp] theorem State.setOp_graft (s : State) (o : Op) : (s.setOp o).graft = s.graft := rfl
@[simp] theorem State.setOp_time (s : State) (o : Op) : (s.setOp o).time = s.time := rfl
@[simp] theorem State.setOp_shed (s : State) (o : Op) : (s.setOp o).shed = s.shed := rfl
@[simp] theorem State.setOp_out (s : State) (o : Op) : (s.setOp o).out = s.out := rfl

/-! `State.setLink` changes `links` alone. -/
@[simp] theorem State.setLink_pending (s : State) (l : Nat) (x : Link) : (s.setLink l x).pending = s.pending := rfl
@[simp] theorem State.setLink_freeCtr (s : State) (l : Nat) (x : Link) : (s.setLink l x).freeCtr = s.freeCtr := rfl
@[simp] theorem State.setLink_pwr (s : State) (l : Nat) (x : Link) : (s.setLink l x).pwr = s.pwr := rfl
@[simp] theorem State.setLink_nv (s : State) (l : Nat) (x : Link) : (s.setLink l x).nv = s.nv := rfl
@[simp] theorem State.setLink_aon (s : State) (l : Nat) (x : Link) : (s.setLink l x).aon = s.aon := rfl
@[simp] theorem State.setLink_regs (s : State) (l : Nat) (x : Link) : (s.setLink l x).regs = s.regs := rfl
@[simp] theorem State.setLink_host (s : State) (l : Nat) (x : Link) : (s.setLink l x).host = s.host := rfl
@[simp] theorem State.setLink_jobs (s : State) (l : Nat) (x : Link) : (s.setLink l x).jobs = s.jobs := rfl
@[simp] theorem State.setLink_ops (s : State) (l : Nat) (x : Link) : (s.setLink l x).ops = s.ops := rfl
@[simp] theorem State.setLink_held (s : State) (l : Nat) (x : Link) : (s.setLink l x).held = s.held := rfl
@[simp] theorem State.setLink_norms (s : State) (l : Nat) (x : Link) : (s.setLink l x).norms = s.norms := rfl
@[simp] theorem State.setLink_restores (s : State) (l : Nat) (x : Link) : (s.setLink l x).restores = s.restores := rfl
@[simp] theorem State.setLink_bedQ (s : State) (l : Nat) (x : Link) : (s.setLink l x).bedQ = s.bedQ := rfl
@[simp] theorem State.setLink_sieves (s : State) (l : Nat) (x : Link) : (s.setLink l x).sieves = s.sieves := rfl
@[simp] theorem State.setLink_vy (s : State) (l : Nat) (x : Link) : (s.setLink l x).vy = s.vy := rfl
@[simp] theorem State.setLink_vyOps (s : State) (l : Nat) (x : Link) : (s.setLink l x).vyOps = s.vyOps := rfl
@[simp] theorem State.setLink_fences (s : State) (l : Nat) (x : Link) : (s.setLink l x).fences = s.fences := rfl
@[simp] theorem State.setLink_xb (s : State) (l : Nat) (x : Link) : (s.setLink l x).xb = s.xb := rfl
@[simp] theorem State.setLink_graft (s : State) (l : Nat) (x : Link) : (s.setLink l x).graft = s.graft := rfl
@[simp] theorem State.setLink_time (s : State) (l : Nat) (x : Link) : (s.setLink l x).time = s.time := rfl
@[simp] theorem State.setLink_shed (s : State) (l : Nat) (x : Link) : (s.setLink l x).shed = s.shed := rfl
@[simp] theorem State.setLink_out (s : State) (l : Nat) (x : Link) : (s.setLink l x).out = s.out := rfl

/-! `State.setTrunk` changes `graft` alone. -/
@[simp] theorem State.setTrunk_pending (s : State) (d : Nat) (t : TrunkSt) : (s.setTrunk d t).pending = s.pending := rfl
@[simp] theorem State.setTrunk_freeCtr (s : State) (d : Nat) (t : TrunkSt) : (s.setTrunk d t).freeCtr = s.freeCtr := rfl
@[simp] theorem State.setTrunk_pwr (s : State) (d : Nat) (t : TrunkSt) : (s.setTrunk d t).pwr = s.pwr := rfl
@[simp] theorem State.setTrunk_nv (s : State) (d : Nat) (t : TrunkSt) : (s.setTrunk d t).nv = s.nv := rfl
@[simp] theorem State.setTrunk_aon (s : State) (d : Nat) (t : TrunkSt) : (s.setTrunk d t).aon = s.aon := rfl
@[simp] theorem State.setTrunk_regs (s : State) (d : Nat) (t : TrunkSt) : (s.setTrunk d t).regs = s.regs := rfl
@[simp] theorem State.setTrunk_host (s : State) (d : Nat) (t : TrunkSt) : (s.setTrunk d t).host = s.host := rfl
@[simp] theorem State.setTrunk_jobs (s : State) (d : Nat) (t : TrunkSt) : (s.setTrunk d t).jobs = s.jobs := rfl
@[simp] theorem State.setTrunk_ops (s : State) (d : Nat) (t : TrunkSt) : (s.setTrunk d t).ops = s.ops := rfl
@[simp] theorem State.setTrunk_held (s : State) (d : Nat) (t : TrunkSt) : (s.setTrunk d t).held = s.held := rfl
@[simp] theorem State.setTrunk_norms (s : State) (d : Nat) (t : TrunkSt) : (s.setTrunk d t).norms = s.norms := rfl
@[simp] theorem State.setTrunk_restores (s : State) (d : Nat) (t : TrunkSt) : (s.setTrunk d t).restores = s.restores := rfl
@[simp] theorem State.setTrunk_bedQ (s : State) (d : Nat) (t : TrunkSt) : (s.setTrunk d t).bedQ = s.bedQ := rfl
@[simp] theorem State.setTrunk_sieves (s : State) (d : Nat) (t : TrunkSt) : (s.setTrunk d t).sieves = s.sieves := rfl
@[simp] theorem State.setTrunk_vy (s : State) (d : Nat) (t : TrunkSt) : (s.setTrunk d t).vy = s.vy := rfl
@[simp] theorem State.setTrunk_vyOps (s : State) (d : Nat) (t : TrunkSt) : (s.setTrunk d t).vyOps = s.vyOps := rfl
@[simp] theorem State.setTrunk_fences (s : State) (d : Nat) (t : TrunkSt) : (s.setTrunk d t).fences = s.fences := rfl
@[simp] theorem State.setTrunk_xb (s : State) (d : Nat) (t : TrunkSt) : (s.setTrunk d t).xb = s.xb := rfl
@[simp] theorem State.setTrunk_links (s : State) (d : Nat) (t : TrunkSt) : (s.setTrunk d t).links = s.links := rfl
@[simp] theorem State.setTrunk_time (s : State) (d : Nat) (t : TrunkSt) : (s.setTrunk d t).time = s.time := rfl
@[simp] theorem State.setTrunk_shed (s : State) (d : Nat) (t : TrunkSt) : (s.setTrunk d t).shed = s.shed := rfl
@[simp] theorem State.setTrunk_out (s : State) (d : Nat) (t : TrunkSt) : (s.setTrunk d t).out = s.out := rfl

/-! `State.msix` changes `regs` or `out`: a message leaves, or a masked vector is noted. -/
@[simp] theorem State.msix_pending (s : State) (card vector : Nat) : (s.msix card vector).pending = s.pending := by unfold State.msix; split <;> rfl
@[simp] theorem State.msix_freeCtr (s : State) (card vector : Nat) : (s.msix card vector).freeCtr = s.freeCtr := by unfold State.msix; split <;> rfl
@[simp] theorem State.msix_pwr (s : State) (card vector : Nat) : (s.msix card vector).pwr = s.pwr := by unfold State.msix; split <;> rfl
@[simp] theorem State.msix_nv (s : State) (card vector : Nat) : (s.msix card vector).nv = s.nv := by unfold State.msix; split <;> rfl
@[simp] theorem State.msix_aon (s : State) (card vector : Nat) : (s.msix card vector).aon = s.aon := by unfold State.msix; split <;> rfl
@[simp] theorem State.msix_host (s : State) (card vector : Nat) : (s.msix card vector).host = s.host := by unfold State.msix; split <;> rfl
@[simp] theorem State.msix_jobs (s : State) (card vector : Nat) : (s.msix card vector).jobs = s.jobs := by unfold State.msix; split <;> rfl
@[simp] theorem State.msix_ops (s : State) (card vector : Nat) : (s.msix card vector).ops = s.ops := by unfold State.msix; split <;> rfl
@[simp] theorem State.msix_held (s : State) (card vector : Nat) : (s.msix card vector).held = s.held := by unfold State.msix; split <;> rfl
@[simp] theorem State.msix_norms (s : State) (card vector : Nat) : (s.msix card vector).norms = s.norms := by unfold State.msix; split <;> rfl
@[simp] theorem State.msix_restores (s : State) (card vector : Nat) : (s.msix card vector).restores = s.restores := by unfold State.msix; split <;> rfl
@[simp] theorem State.msix_bedQ (s : State) (card vector : Nat) : (s.msix card vector).bedQ = s.bedQ := by unfold State.msix; split <;> rfl
@[simp] theorem State.msix_sieves (s : State) (card vector : Nat) : (s.msix card vector).sieves = s.sieves := by unfold State.msix; split <;> rfl
@[simp] theorem State.msix_vy (s : State) (card vector : Nat) : (s.msix card vector).vy = s.vy := by unfold State.msix; split <;> rfl
@[simp] theorem State.msix_vyOps (s : State) (card vector : Nat) : (s.msix card vector).vyOps = s.vyOps := by unfold State.msix; split <;> rfl
@[simp] theorem State.msix_fences (s : State) (card vector : Nat) : (s.msix card vector).fences = s.fences := by unfold State.msix; split <;> rfl
@[simp] theorem State.msix_xb (s : State) (card vector : Nat) : (s.msix card vector).xb = s.xb := by unfold State.msix; split <;> rfl
@[simp] theorem State.msix_links (s : State) (card vector : Nat) : (s.msix card vector).links = s.links := by unfold State.msix; split <;> rfl
@[simp] theorem State.msix_graft (s : State) (card vector : Nat) : (s.msix card vector).graft = s.graft := by unfold State.msix; split <;> rfl
@[simp] theorem State.msix_time (s : State) (card vector : Nat) : (s.msix card vector).time = s.time := by unfold State.msix; split <;> rfl
@[simp] theorem State.msix_shed (s : State) (card vector : Nat) : (s.msix card vector).shed = s.shed := by unfold State.msix; split <;> rfl

/-! ## Reads after writes -/

@[simp] theorem State.rget_rset (s : State) (a : Nat) (v : Word64) : (s.rset a v).rget a = v := tget_tset_same _ _ _ _

theorem State.rget_rset_other (s : State) {a b : Nat} (v : Word64) (h : a ≠ b) : (s.rset a v).rget b = s.rget b := by
  unfold State.rget State.rset tset
  dsimp only
  split
  · simp [tget_tdel, h]
  · simp [tget_tput, h]

theorem State.rget_fset (s : State) (a : Nat) (f : Bits) (v : Nat) : (s.fset a f v).rget a = bset f (s.rget a) v := State.rget_rset ..

theorem State.rget_fset_other (s : State) {a b : Nat} (f : Bits) (v : Nat) (h : a ≠ b) : (s.fset a f v).rget b = s.rget b :=
  State.rget_rset_other s _ h

theorem State.fget_fset_other (s : State) {a b : Nat} (f g : Bits) (v : Nat) (h : a ≠ b) : (s.fset a f v).fget b g = s.fget b g := by
  unfold State.fget; rw [State.rget_fset_other s f v h]

@[simp] theorem State.link_setLink (s : State) (l : Nat) (x : Link) : (s.setLink l x).link l = x := tget_tset_same _ _ _ _

@[simp] theorem State.job_setJob (s : State) (j : Nat) (b : Job) : (s.setJob j b).job j = b := tget_tset_same _ _ _ _

@[simp] theorem State.job_modJob (s : State) (j : Nat) (f : Job → Job) : (s.modJob j f).job j = f (s.job j) := State.job_setJob ..

/-- A field that lies within its word reads what was written into it. -/
theorem bget_bset {n : Nat} (f : Bits) (x : BitVec n) (v : Nat) (h : f.lo + f.width ≤ n) : bget f (bset f x v) = v % 2 ^ f.width := by
  unfold bget bset
  have hx := x.isLt
  have hl : x.toNat % 2 ^ f.lo < 2 ^ f.lo := Nat.mod_lt _ (Nat.two_pow_pos _)
  have hv : v % 2 ^ f.width < 2 ^ f.width := Nat.mod_lt _ (Nat.two_pow_pos _)
  have hq : x.toNat / 2 ^ (f.lo + f.width) < 2 ^ (n - (f.lo + f.width)) := by
    apply Nat.div_lt_of_lt_mul; rw [← Nat.pow_add]; rwa [Nat.add_sub_cancel' h]
  rw [Nat.pow_add] at hq ⊢
  have e : (2 : Nat) ^ n = 2 ^ f.lo * 2 ^ f.width * 2 ^ (n - (f.lo + f.width)) := by
    rw [← Nat.pow_add, ← Nat.pow_add, Nat.add_sub_cancel' h]
  generalize x.toNat / (2 ^ f.lo * 2 ^ f.width) = q at *
  generalize x.toNat % 2 ^ f.lo = l at *
  generalize v % 2 ^ f.width = u at *
  have h1 : 2 ^ f.lo * u + 2 ^ f.lo ≤ 2 ^ f.lo * 2 ^ f.width := by
    have := Nat.mul_le_mul_left (2 ^ f.lo) hv; rwa [Nat.mul_succ] at this
  have h2 := Nat.mul_le_mul_left (2 ^ f.lo * 2 ^ f.width) hq
  rw [Nat.mul_succ] at h2
  have h3 : l + 2 ^ f.lo * u + 2 ^ f.lo * 2 ^ f.width * q < 2 ^ n := by rw [e]; omega
  rw [BitVec.toNat_ofNat, Nat.mod_eq_of_lt h3, Nat.mul_assoc, Nat.add_assoc, ← Nat.mul_add,
    Nat.add_mul_div_left _ _ (Nat.two_pow_pos _), Nat.div_eq_of_lt hl, Nat.zero_add, Nat.add_mul_mod_self_left, Nat.mod_eq_of_lt hv]

/-- The bytes put into a window keep its canonical form. -/
theorem wf_putBytes (w : Tab Byte) (tile off : Nat) (b : Bytes) (h : Tab.wf 0 w = true) : Tab.wf 0 (putBytes w tile off b) = true := by
  unfold putBytes
  exact List.foldlRecOn (motive := fun w => Tab.wf 0 w = true) _ _ h (fun w hw i _ => wf_tset _ _ _ _ hw)

end Sys2Proof.Machine
end

