-- ==== Sys2Proof/Laws/Ops.lean ====
section
/-! SUPPORT. What the shared operations answer: a row with its condition, a command of a ring, a command on the fabric, a request of
the mailbox, and a data packet of an operation. -/
namespace Sys2Proof.Machine
open Sys2Proof.Safety

/-! ## Rows with a condition -/

theorem State.act_runs {s t : State} {p : Bool} (h : s.clocked = true) (hp : p = true) : s.act p t = .next t := by
  simp [State.act, h, hp]

theorem State.act_stays {s t : State} {p : Bool} (hp : p = false) : s.act p t = .next s := by simp [State.act, hp]

theorem State.act_unclocked {s t : State} {p : Bool} (h : s.clocked = false) : s.act p t = .next s := by simp [State.act, h]

/-- A row either runs, with the clocks and its condition, or leaves the state. -/
theorem State.act_cases {s t u : State} {p : Bool} (h : s.act p t = .next u) :
    (s.clocked = true ∧ p = true ∧ u = t) ∨ ((s.clocked = false ∨ p = false) ∧ u = s) := by
  simp only [State.act, Host.Outcome.next.injEq] at h
  cases hc : s.clocked <;> cases p <;> simp_all

/-! ## Commands of a ring -/

theorem State.issue_free {s : State} {c : Ref} {op : Nat} {x : Ctx} {f : Ctx → State} (h : Free s c op x) :
    s.issue c op f = .next (f x) := by
  simp [State.issue, State.act, h.ctx, h.phase, h.opcode, h.clocks]

theorem State.issue_cases {s u : State} {c : Ref} {op : Nat} {f : Ctx → State} (h : s.issue c op f = .next u) :
    (∃ x, Free s c op x ∧ u = f x) ∨ u = s := by
  unfold State.issue at h
  split at h
  · exact .inr (by simpa using h.symm)
  · next x hx =>
    rcases State.act_cases h with ⟨hc, hp, rfl⟩ | ⟨_, rfl⟩
    · simp only [Bool.and_eq_true, beq_iff_eq] at hp
      exact .inl ⟨x, ⟨hc, hx, hp.1, hp.2⟩, rfl⟩
    · exact .inr rfl

/-- A command on the fabric runs when its turn has come and the owner of its job owns the fabric. -/
theorem State.fabric_free {s : State} {c : Ref} {op : Nat} {x : Ctx} {turn : Bool} {f : Ctx → State} (h : Free s c op x) (ht : turn = true)
    (ho : s.ownerOf (s.ringJob c.ring) = s.ownerOf resFabric) : s.fabric c op turn f = .next (f x) := by
  simp [State.fabric, State.act, h.ctx, h.phase, h.opcode, h.clocks, ht, ho]

/-! ## The mailbox -/

theorem State.mail_asks {s : State} {m : Master} {req : MbxReq} {q : Mail} {op need : Nat} {f : State → Mail → State}
    (h : Asks s m req q op need) : s.mail m req op need f = .next (f (s.readRequest m q.payload.length) q) := by
  obtain ⟨b, hb⟩ : ∃ b, req.bytes = some b := by
    cases hb : req.bytes with
    | none => have := h.read; simp [hb] at this
    | some b => exact ⟨b, rfl⟩
  have hq : readMail b = q := by have := h.read; simpa [hb] using this
  have := h.known
  simp [State.mail, State.act, h.clocks, h.host, h.idle, hb, hq, h.names, h.here, h.checks]

/-! ## Contexts -/

theorem find_updFirst {α : Type} {p : α → Bool} {f : α → α} {l : List α} {x : α} (h : l.find? p = some x) (hf : p (f x) = true) :
    (updFirst p f l).find? p = some (f x) := by
  induction l <;> grind [updFirst]

/-- A change of one context is seen by its reference, where the change keeps the reference. -/
theorem State.ctx_modCtx {s : State} {r : Ref} {x : Ctx} {f : Ctx → Ctx} (h : s.ctx r = some x) (hf : Ctx.is r (f x) = true) :
    (s.modCtx r f).ctx r = some (f x) := find_updFirst h hf

end Sys2Proof.Machine
end

