-- ==== Sys2Proof/Laws/PerInstr.lean ====
section
/-! SUPPORT. What a well-formed command promises of its operands, command by command. -/
namespace Sys2Proof.Laws.WellFormedFields
set_option Elab.async false

/-- The thread that a row of a program is about. -/
def wordOf : Instr → Option VOp
  | .br v | .jmp v | .call v | .ret v | .halt v | .barT v | .barG v | .syncL v | .syncG v | .waitx v | .add v | .sub v | .mul v |
    .mulh v | .mulhu v | .div v | .divu v | .rem v | .remu v | .and v | .or v | .xor v | .shl v | .shr v | .sar v | .rotl v |
    .min v | .max v | .minu v | .maxu v | .mov v | .cmpEq v | .cmpLt v | .cmpLtu v | .fadd v | .fsub v | .fmul v | .fma v |
    .fnma v | .fdiv v | .fsqrt v | .fmax v | .fmin v | .fabs v | .fsign v | .fsel v | .fmov v | .fcmpEq v | .fcmpLt v |
    .fcmpLe v | .dec v | .enc v | .wclr v | .wacc v | .wdot v | .wadd v | .wread v | .maxr v | .ld v | .lds v | .st v | .pld v |
    .pst v | .aadd v | .amin v | .amax v | .aminu v | .amaxu v | .aand v | .aor v | .aswp v | .acas v | .sacc v | .sld v |
    .bxferI v | .bxferO v | .gets v | .seed v | .wqtake v => some v
  | _ => none

/-- The ring and the index of the command of a ring that a row is about. -/
def commandOf : Instr → Option Ref
  | .nop c | .openBucket c | .closeBucket c | .allreduce c | .reduceScatter c | .allgather c | .shift c | .permute c |
    .norm c _ | .step c _ | .publish c | .park c | .fetch c | .checkpoint c | .restore c _ | .sieveRun c _ | .fence c |
    .unfence c | .launchAt c | .scheduleLoad c _ | .routeStage c _ | .routeSwap c | .survey c | .waitRelease c _ | .admitOp c |
    .normDeadline c | .stepStart c _ | .publishStart c | .checkpointStart c | .commandComplete c | .launchMature c |
    .programStart c _ _ | .programDeadline c => some c
  | _ => none

/-- The packet that a row carries. -/
def packetOf : Instr → Option Packet
  | .contrib _ p | .xp _ p _ | .result _ p | .ready _ p | .ready2 _ p | .summary _ p | .abort _ p | .normMax _ ⟨p, _⟩ |
    .normSum _ p _ | .pubMax _ p | .block _ p | .stats _ p | .allgatherData _ p | .shiftData _ p | .permuteCounts _ p |
    .permuteRows _ p | .parkData _ p | .imageData _ p | .packetRoute _ p => some p
  | _ => none

/-- The place of a thread, the place of a command and the class of a packet lie in their ranges (R283, R412, R419, R506). -/
def Statement (i : Instr) : Prop := i.wf = true →
  (∀ v, wordOf i = some v → v.tile < 256 ∧ v.tid < 512)
  ∧ (∀ c, commandOf i = some c → c.ring < 16384 ∧ c.idx < 2 ^ 32) ∧ (∀ p, packetOf i = some p → p.cls < 4)

/-- A row without a thread, a command or a packet. -/
theorem plain {i : Instr} (a : wordOf i = none) (b : commandOf i = none) (c : packetOf i = none) : Statement i := by
  intro _; simp [a, b, c]

/-- A row of a program. -/
theorem about_word {i : Instr} {v : VOp} (a : wordOf i = some v) (b : commandOf i = none) (c : packetOf i = none) (h : i.wf = v.wf) :
    Statement i := by
  intro w
  rw [h, VOp.wf, tileWf, threadWf, Bool.and_eq_true, decide_eq_true_eq, decide_eq_true_eq] at w
  simpa [a, b, c] using w

/-- A row about a command of a ring. -/
theorem about_command {i : Instr} {r : Ref} (a : wordOf i = none) (b : commandOf i = some r) (c : packetOf i = none) (h : i.wf = r.wf) :
    Statement i := by
  intro w
  rw [h, Ref.wf, ringWf, Bool.and_eq_true, decide_eq_true_eq, decide_eq_true_eq] at w
  simpa [a, b, c] using w

/-- A row that carries a packet. -/
theorem about_packet {i : Instr} {p : Packet} {q : Bool} (a : wordOf i = none) (b : commandOf i = none) (c : packetOf i = some p)
    (h : i.wf = (q && p.wf)) : Statement i := by
  intro w
  rw [h, Packet.wf] at w
  simp only [Bool.and_eq_true, decide_eq_true_eq] at w
  simpa [a, b, c] using w.2.1

theorem nop (c : Ref) : Statement (.nop c) := about_command rfl rfl rfl rfl
theorem openBucket (c : Ref) : Statement (.openBucket c) := about_command rfl rfl rfl rfl
theorem closeBucket (c : Ref) : Statement (.closeBucket c) := about_command rfl rfl rfl rfl
theorem allreduce (c : Ref) : Statement (.allreduce c) := about_command rfl rfl rfl rfl
theorem reduceScatter (c : Ref) : Statement (.reduceScatter c) := about_command rfl rfl rfl rfl
theorem allgather (c : Ref) : Statement (.allgather c) := about_command rfl rfl rfl rfl
theorem shift (c : Ref) : Statement (.shift c) := about_command rfl rfl rfl rfl
theorem permute (c : Ref) : Statement (.permute c) := about_command rfl rfl rfl rfl
theorem norm (c : Ref) (upset : Upset) : Statement (.norm c upset) := about_command rfl rfl rfl rfl
theorem step (c : Ref) (fault : Option (Nat × Upset)) : Statement (.step c fault) := about_command rfl rfl rfl rfl
theorem publish (c : Ref) : Statement (.publish c) := about_command rfl rfl rfl rfl
theorem park (c : Ref) : Statement (.park c) := about_command rfl rfl rfl rfl
theorem fetch (c : Ref) : Statement (.fetch c) := about_command rfl rfl rfl rfl
theorem checkpoint (c : Ref) : Statement (.checkpoint c) := about_command rfl rfl rfl rfl
theorem restore (c : Ref) (image : Option Bytes) : Statement (.restore c image) := about_command rfl rfl rfl rfl
theorem sieveRun (c : Ref) (block : Option Bytes) : Statement (.sieveRun c block) := about_command rfl rfl rfl rfl
theorem fence (c : Ref) : Statement (.fence c) := about_command rfl rfl rfl rfl
theorem unfence (c : Ref) : Statement (.unfence c) := about_command rfl rfl rfl rfl
theorem launchAt (c : Ref) : Statement (.launchAt c) := about_command rfl rfl rfl rfl
theorem scheduleLoad (c : Ref) (image : Option Bytes) : Statement (.scheduleLoad c image) := about_command rfl rfl rfl rfl
theorem routeStage (c : Ref) (image : Option Bytes) : Statement (.routeStage c image) := about_command rfl rfl rfl rfl
theorem routeSwap (c : Ref) : Statement (.routeSwap c) := about_command rfl rfl rfl rfl
theorem survey (c : Ref) : Statement (.survey c) := about_command rfl rfl rfl rfl
theorem descriptorRead (ring : Nat) (desc : Option (BitVec 512)) (upset : Upset) : Statement (.descriptorRead ring desc upset) := plain rfl rfl rfl
theorem waitRelease (c : Ref) (upset : Upset) : Statement (.waitRelease c upset) := about_command rfl rfl rfl rfl
theorem admitOp (c : Ref) : Statement (.admitOp c) := about_command rfl rfl rfl rfl
theorem contrib (port : Nat) (p : Packet) : Statement (.contrib port p) := about_packet rfl rfl rfl rfl
theorem rakeAccumulate (bed : Nat) (upset : Upset) : Statement (.rakeAccumulate bed upset) := plain rfl rfl rfl
theorem xp (port : Nat) (p : Packet) (upset : Upset) : Statement (.xp port p upset) := about_packet rfl rfl rfl rfl
theorem chunkFinal (job : Nat) (tag : Nat) (chunk : Nat) (upset : Upset) : Statement (.chunkFinal job tag chunk upset) := plain rfl rfl rfl
theorem bucketComplete (job : Nat) (tag : Nat) : Statement (.bucketComplete job tag) := plain rfl rfl rfl
theorem nonrootComplete (job : Nat) (tag : Nat) : Statement (.nonrootComplete job tag) := plain rfl rfl rfl
theorem result (port : Nat) (p : Packet) : Statement (.result port p) := about_packet rfl rfl rfl rfl
theorem ready (port : Nat) (p : Packet) : Statement (.ready port p) := about_packet rfl rfl rfl rfl
theorem ready2 (port : Nat) (p : Packet) : Statement (.ready2 port p) := about_packet rfl rfl rfl rfl
theorem summary (port : Nat) (p : Packet) : Statement (.summary port p) := about_packet rfl rfl rfl rfl
theorem abort (port : Nat) (p : Packet) : Statement (.abort port p) := about_packet rfl rfl rfl rfl
theorem normMax (port : Nat) (c : Checked) : Statement (.normMax port c) := about_packet rfl rfl rfl rfl
theorem normSum (port : Nat) (p : Packet) (upset : Upset) : Statement (.normSum port p upset) := about_packet rfl rfl rfl rfl
theorem pubMax (port : Nat) (p : Packet) : Statement (.pubMax port p) := about_packet rfl rfl rfl rfl
theorem block (port : Nat) (p : Packet) : Statement (.block port p) := about_packet rfl rfl rfl rfl
theorem stats (port : Nat) (p : Packet) : Statement (.stats port p) := about_packet rfl rfl rfl rfl
theorem allgatherData (port : Nat) (p : Packet) : Statement (.allgatherData port p) := about_packet rfl rfl rfl rfl
theorem shiftData (port : Nat) (p : Packet) : Statement (.shiftData port p) := about_packet rfl rfl rfl rfl
theorem permuteCounts (port : Nat) (p : Packet) : Statement (.permuteCounts port p) := about_packet rfl rfl rfl rfl
theorem permuteRows (port : Nat) (p : Packet) : Statement (.permuteRows port p) := about_packet rfl rfl rfl rfl
theorem parkData (port : Nat) (p : Packet) : Statement (.parkData port p) := about_packet rfl rfl rfl rfl
theorem imageData (port : Nat) (p : Packet) : Statement (.imageData port p) := about_packet rfl rfl rfl rfl
theorem packetRoute (inp : Nat) (p : Packet) : Statement (.packetRoute inp p) := about_packet rfl rfl rfl rfl
theorem xpSend (job : Nat) (tag : Nat) (chunk : Nat) (upset : Upset) : Statement (.xpSend job tag chunk upset) := plain rfl rfl rfl
theorem bucketDeadline (job : Nat) (tag : Nat) : Statement (.bucketDeadline job tag) := plain rfl rfl rfl
theorem normDeadline (c : Ref) : Statement (.normDeadline c) := about_command rfl rfl rfl rfl
theorem stepStart (c : Ref) (fault : Option (Nat × Upset)) : Statement (.stepStart c fault) := about_command rfl rfl rfl rfl
theorem publishStart (c : Ref) : Statement (.publishStart c) := about_command rfl rfl rfl rfl
theorem checkpointStart (c : Ref) : Statement (.checkpointStart c) := about_command rfl rfl rfl rfl
theorem commandComplete (c : Ref) : Statement (.commandComplete c) := about_command rfl rfl rfl rfl
theorem irqDelay (ring : Nat) : Statement (.irqDelay ring) := plain rfl rfl rfl
theorem launchMature (c : Ref) : Statement (.launchMature c) := about_command rfl rfl rfl rfl
theorem programStart (c : Ref) (text : Option Bytes) (bufs : List Bytes) : Statement (.programStart c text bufs) := about_command rfl rfl rfl rfl
theorem programDeadline (c : Ref) : Statement (.programDeadline c) := about_command rfl rfl rfl rfl
theorem br (v : VOp) : Statement (.br v) := about_word rfl rfl rfl rfl
theorem jmp (v : VOp) : Statement (.jmp v) := about_word rfl rfl rfl rfl
theorem call (v : VOp) : Statement (.call v) := about_word rfl rfl rfl rfl
theorem ret (v : VOp) : Statement (.ret v) := about_word rfl rfl rfl rfl
theorem halt (v : VOp) : Statement (.halt v) := about_word rfl rfl rfl rfl
theorem barT (v : VOp) : Statement (.barT v) := about_word rfl rfl rfl rfl
theorem barG (v : VOp) : Statement (.barG v) := about_word rfl rfl rfl rfl
theorem syncL (v : VOp) : Statement (.syncL v) := about_word rfl rfl rfl rfl
theorem syncG (v : VOp) : Statement (.syncG v) := about_word rfl rfl rfl rfl
theorem waitx (v : VOp) : Statement (.waitx v) := about_word rfl rfl rfl rfl
theorem add (v : VOp) : Statement (.add v) := about_word rfl rfl rfl rfl
theorem sub (v : VOp) : Statement (.sub v) := about_word rfl rfl rfl rfl
theorem mul (v : VOp) : Statement (.mul v) := about_word rfl rfl rfl rfl
theorem mulh (v : VOp) : Statement (.mulh v) := about_word rfl rfl rfl rfl
theorem mulhu (v : VOp) : Statement (.mulhu v) := about_word rfl rfl rfl rfl
theorem div (v : VOp) : Statement (.div v) := about_word rfl rfl rfl rfl
theorem divu (v : VOp) : Statement (.divu v) := about_word rfl rfl rfl rfl
theorem rem (v : VOp) : Statement (.rem v) := about_word rfl rfl rfl rfl
theorem remu (v : VOp) : Statement (.remu v) := about_word rfl rfl rfl rfl
theorem and (v : VOp) : Statement (.and v) := about_word rfl rfl rfl rfl
theorem or (v : VOp) : Statement (.or v) := about_word rfl rfl rfl rfl
theorem xor (v : VOp) : Statement (.xor v) := about_word rfl rfl rfl rfl
theorem shl (v : VOp) : Statement (.shl v) := about_word rfl rfl rfl rfl
theorem shr (v : VOp) : Statement (.shr v) := about_word rfl rfl rfl rfl
theorem sar (v : VOp) : Statement (.sar v) := about_word rfl rfl rfl rfl
theorem rotl (v : VOp) : Statement (.rotl v) := about_word rfl rfl rfl rfl
theorem min (v : VOp) : Statement (.min v) := about_word rfl rfl rfl rfl
theorem max (v : VOp) : Statement (.max v) := about_word rfl rfl rfl rfl
theorem minu (v : VOp) : Statement (.minu v) := about_word rfl rfl rfl rfl
theorem maxu (v : VOp) : Statement (.maxu v) := about_word rfl rfl rfl rfl
theorem mov (v : VOp) : Statement (.mov v) := about_word rfl rfl rfl rfl
theorem cmpEq (v : VOp) : Statement (.cmpEq v) := about_word rfl rfl rfl rfl
theorem cmpLt (v : VOp) : Statement (.cmpLt v) := about_word rfl rfl rfl rfl
theorem cmpLtu (v : VOp) : Statement (.cmpLtu v) := about_word rfl rfl rfl rfl
theorem fadd (v : VOp) : Statement (.fadd v) := about_word rfl rfl rfl rfl
theorem fsub (v : VOp) : Statement (.fsub v) := about_word rfl rfl rfl rfl
theorem fmul (v : VOp) : Statement (.fmul v) := about_word rfl rfl rfl rfl
theorem fma (v : VOp) : Statement (.fma v) := about_word rfl rfl rfl rfl
theorem fnma (v : VOp) : Statement (.fnma v) := about_word rfl rfl rfl rfl
theorem fdiv (v : VOp) : Statement (.fdiv v) := about_word rfl rfl rfl rfl
theorem fsqrt (v : VOp) : Statement (.fsqrt v) := about_word rfl rfl rfl rfl
theorem fmax (v : VOp) : Statement (.fmax v) := about_word rfl rfl rfl rfl
theorem fmin (v : VOp) : Statement (.fmin v) := about_word rfl rfl rfl rfl
theorem fabs (v : VOp) : Statement (.fabs v) := about_word rfl rfl rfl rfl
theorem fsign (v : VOp) : Statement (.fsign v) := about_word rfl rfl rfl rfl
theorem fsel (v : VOp) : Statement (.fsel v) := about_word rfl rfl rfl rfl
theorem fmov (v : VOp) : Statement (.fmov v) := about_word rfl rfl rfl rfl
theorem fcmpEq (v : VOp) : Statement (.fcmpEq v) := about_word rfl rfl rfl rfl
theorem fcmpLt (v : VOp) : Statement (.fcmpLt v) := about_word rfl rfl rfl rfl
theorem fcmpLe (v : VOp) : Statement (.fcmpLe v) := about_word rfl rfl rfl rfl
theorem dec (v : VOp) : Statement (.dec v) := about_word rfl rfl rfl rfl
theorem enc (v : VOp) : Statement (.enc v) := about_word rfl rfl rfl rfl
theorem wclr (v : VOp) : Statement (.wclr v) := about_word rfl rfl rfl rfl
theorem wacc (v : VOp) : Statement (.wacc v) := about_word rfl rfl rfl rfl
theorem wdot (v : VOp) : Statement (.wdot v) := about_word rfl rfl rfl rfl
theorem wadd (v : VOp) : Statement (.wadd v) := about_word rfl rfl rfl rfl
theorem wread (v : VOp) : Statement (.wread v) := about_word rfl rfl rfl rfl
theorem maxr (v : VOp) : Statement (.maxr v) := about_word rfl rfl rfl rfl
theorem ld (v : VOp) : Statement (.ld v) := about_word rfl rfl rfl rfl
theorem lds (v : VOp) : Statement (.lds v) := about_word rfl rfl rfl rfl
theorem st (v : VOp) : Statement (.st v) := about_word rfl rfl rfl rfl
theorem pld (v : VOp) : Statement (.pld v) := about_word rfl rfl rfl rfl
theorem pst (v : VOp) : Statement (.pst v) := about_word rfl rfl rfl rfl
theorem aadd (v : VOp) : Statement (.aadd v) := about_word rfl rfl rfl rfl
theorem amin (v : VOp) : Statement (.amin v) := about_word rfl rfl rfl rfl
theorem amax (v : VOp) : Statement (.amax v) := about_word rfl rfl rfl rfl
theorem aminu (v : VOp) : Statement (.aminu v) := about_word rfl rfl rfl rfl
theorem amaxu (v : VOp) : Statement (.amaxu v) := about_word rfl rfl rfl rfl
theorem aand (v : VOp) : Statement (.aand v) := about_word rfl rfl rfl rfl
theorem aor (v : VOp) : Statement (.aor v) := about_word rfl rfl rfl rfl
theorem aswp (v : VOp) : Statement (.aswp v) := about_word rfl rfl rfl rfl
theorem acas (v : VOp) : Statement (.acas v) := about_word rfl rfl rfl rfl
theorem sacc (v : VOp) : Statement (.sacc v) := about_word rfl rfl rfl rfl
theorem sld (v : VOp) : Statement (.sld v) := about_word rfl rfl rfl rfl
theorem bxferI (v : VOp) : Statement (.bxferI v) := about_word rfl rfl rfl rfl
theorem bxferO (v : VOp) : Statement (.bxferO v) := about_word rfl rfl rfl rfl
theorem transferComplete (tile : Nat) (tid : Nat) (data : Option Bytes) : Statement (.transferComplete tile tid data) := plain rfl rfl rfl
theorem gets (v : VOp) : Statement (.gets v) := about_word rfl rfl rfl rfl
theorem seed (v : VOp) : Statement (.seed v) := about_word rfl rfl rfl rfl
theorem wqtake (v : VOp) : Statement (.wqtake v) := about_word rfl rfl rfl rfl
theorem doorbell (m : Master) (ring : Nat) (half : Half) (value : Word64) : Statement (.doorbell m ring half value) := plain rfl rfl rfl
theorem ringEnable (m : Master) (ring : Nat) (ctrl : Word32) : Statement (.ringEnable m ring ctrl) := plain rfl rfl rfl
theorem ringDisable (m : Master) (ring : Nat) (ctrl : Word32) : Statement (.ringDisable m ring ctrl) := plain rfl rfl rfl
theorem jobEnable (m : Master) (job : Nat) : Statement (.jobEnable m job) := plain rfl rfl rfl
theorem jobDisable (m : Master) (job : Nat) : Statement (.jobDisable m job) := plain rfl rfl rfl
theorem jobEndComplete (job : Nat) : Statement (.jobEndComplete job) := plain rfl rfl rfl
theorem layoutCommit (m : Master) (value : Word32) : Statement (.layoutCommit m value) := plain rfl rfl rfl
theorem partReset (m : Master) (value : Word32) : Statement (.partReset m value) := plain rfl rfl rfl
theorem initDone (m : Master) : Statement (.initDone m) := plain rfl rfl rfl
theorem expertGateClose (m : Master) : Statement (.expertGateClose m) := plain rfl rfl rfl
theorem surveyGo (m : Master) : Statement (.surveyGo m) := plain rfl rfl rfl
theorem surveyComplete (failed : Bool) : Statement (.surveyComplete failed) := plain rfl rfl rfl
theorem gcLoad (m : Master) (w : HalfWrite) : Statement (.gcLoad m w) := plain rfl rfl rfl
theorem timeCtrl (m : Master) (value : Word32) : Statement (.timeCtrl m value) := plain rfl rfl rfl
theorem tickOutEnable (m : Master) (value : Word32) : Statement (.tickOutEnable m value) := plain rfl rfl rfl
theorem debugClockEnable (m : Master) (value : Word32) : Statement (.debugClockEnable m value) := plain rfl rfl rfl
theorem portEnable (m : Master) (port : Nat) : Statement (.portEnable m port) := plain rfl rfl rfl
theorem portDisable (m : Master) (port : Nat) : Statement (.portDisable m port) := plain rfl rfl rfl
theorem portRetrain (m : Master) (port : Nat) : Statement (.portRetrain m port) := plain rfl rfl rfl
theorem lxCtrl (m : Master) (lane : Nat) (value : Word32) : Statement (.lxCtrl m lane value) := plain rfl rfl rfl
theorem lxPrbsErrRead (m : Master) (lane : Nat) : Statement (.lxPrbsErrRead m lane) := plain rfl rfl rfl
theorem mirrorEnable (m : Master) (session : Nat) (value : Word32) : Statement (.mirrorEnable m session value) := plain rfl rfl rfl
theorem mirrorDisable (m : Master) (session : Nat) (value : Word32) : Statement (.mirrorDisable m session value) := plain rfl rfl rfl
theorem mirHead (m : Master) (session : Nat) (value : Word32) : Statement (.mirHead m session value) := plain rfl rfl rfl
theorem telemetryEnable (m : Master) (value : Word32) : Statement (.telemetryEnable m value) := plain rfl rfl rfl
theorem telemetryInterval : Statement .telemetryInterval := plain rfl rfl rfl
theorem claim (m : Master) (resource : Nat) : Statement (.claim m resource) := plain rfl rfl rfl
theorem release (m : Master) (resource : Nat) : Statement (.release m resource) := plain rfl rfl rfl
theorem hppr (m : Master) (stack : Nat) (value : Word32) : Statement (.hppr m stack value) := plain rfl rfl rfl
theorem sppr (m : Master) (stack : Nat) (value : Word32) : Statement (.sppr m stack value) := plain rfl rfl rfl
theorem pprComplete (stack : Nat) (ok : Bool) (left : Nat) : Statement (.pprComplete stack ok left) := plain rfl rfl rfl
theorem mrSel (m : Master) (stack : Nat) (value : Word32) (data : Nat) : Statement (.mrSel m stack value data) := plain rfl rfl rfl
theorem registerWrite (m : Master) (addr : Nat) (size : Nat) (value : Word64) : Statement (.registerWrite m addr size value) := plain rfl rfl rfl
theorem identity (m : Master) (req : MbxReq) : Statement (.identity m req) := plain rfl rfl rfl
theorem quote (m : Master) (req : MbxReq) : Statement (.quote m req) := plain rfl rfl rfl
theorem logFetch (m : Master) (req : MbxReq) : Statement (.logFetch m req) := plain rfl rfl rfl
theorem logAck (m : Master) (req : MbxReq) : Statement (.logAck m req) := plain rfl rfl rfl
theorem sensors (m : Master) (req : MbxReq) : Statement (.sensors m req) := plain rfl rfl rfl
theorem healthDetail (m : Master) (req : MbxReq) : Statement (.healthDetail m req) := plain rfl rfl rfl
theorem powerCap (m : Master) (req : MbxReq) : Statement (.powerCap m req) := plain rfl rfl rfl
theorem gateChallenge (m : Master) (req : MbxReq) : Statement (.gateChallenge m req) := plain rfl rfl rfl
theorem gateGrant (m : Master) (req : MbxReq) : Statement (.gateGrant m req) := plain rfl rfl rfl
theorem fwBegin (m : Master) (req : MbxReq) : Statement (.fwBegin m req) := plain rfl rfl rfl
theorem fwChunk (m : Master) (req : MbxReq) : Statement (.fwChunk m req) := plain rfl rfl rfl
theorem fwCommit (m : Master) (req : MbxReq) : Statement (.fwCommit m req) := plain rfl rfl rfl
theorem shutdown (m : Master) (req : MbxReq) : Statement (.shutdown m req) := plain rfl rfl rfl
theorem slice (m : Master) (req : MbxReq) : Statement (.slice m req) := plain rfl rfl rfl
theorem repair (m : Master) (req : MbxReq) : Statement (.repair m req) := plain rfl rfl rfl
theorem fuse (m : Master) (req : MbxReq) : Statement (.fuse m req) := plain rfl rfl rfl
theorem lifecycle (m : Master) (req : MbxReq) : Statement (.lifecycle m req) := plain rfl rfl rfl
theorem ownerEnroll (m : Master) (req : MbxReq) : Statement (.ownerEnroll m req) := plain rfl rfl rfl
theorem porAssert : Statement .porAssert := plain rfl rfl rfl
theorem porRelease (railsOk : Bool) : Statement (.porRelease railsOk) := plain rfl rfl rfl
theorem rootPllLock : Statement .rootPllLock := plain rfl rfl rfl
theorem firmwareBoot : Statement .firmwareBoot := plain rfl rfl rfl
theorem wipeComplete : Statement .wipeComplete := plain rfl rfl rfl
theorem seedlingExit : Statement .seedlingExit := plain rfl rfl rfl
theorem clockFailure (cause : Nat) : Statement (.clockFailure cause) := plain rfl rfl rfl
theorem railCollapse (rail : Nat) (millivolts : Nat) : Statement (.railCollapse rail millivolts) := plain rfl rfl rfl
theorem thermalTrip (sensor : Nat) : Statement (.thermalTrip sensor) := plain rfl rfl rfl
theorem standbyPowerLoss : Statement .standbyPowerLoss := plain rfl rfl rfl
theorem taprootLinkDown (loss : TapLoss) : Statement (.taprootLinkDown loss) := plain rfl rfl rfl
theorem taprootLinkUp (card : Nat) (width : Nat) (mode : TapMode) : Statement (.taprootLinkUp card width mode) := plain rfl rfl rfl
theorem detectTest (port : Nat) (lanes : List Nat) : Statement (.detectTest port lanes) := plain rfl rfl rfl
theorem trainComplete (port : Nat) (lanes : List LaneTrained) : Statement (.trainComplete port lanes) := plain rfl rfl rfl
theorem lockComplete (port : Nat) (markers : List Nat) : Statement (.lockComplete port markers) := plain rfl rfl rfl
theorem capTimer (port : Nat) : Statement (.capTimer port) := plain rfl rfl rfl
theorem capFlit (port : Nat) (cap : Bytes) : Statement (.capFlit port cap) := plain rfl rfl rfl
theorem stageTimeout (port : Nat) : Statement (.stageTimeout port) := plain rfl rfl rfl
theorem squelchEnd (port : Nat) : Statement (.squelchEnd port) := plain rfl rfl rfl
theorem cellFlit (place : LaneAt) (fec : Fec) (flit : Bytes) : Statement (.cellFlit place fec flit) := plain rfl rfl rfl
theorem ackTimer (port : Nat) : Statement (.ackTimer port) := plain rfl rfl rfl
theorem farRetrain (port : Nat) : Statement (.farRetrain port) := plain rfl rfl rfl
theorem retrainComplete (port : Nat) : Statement (.retrainComplete port) := plain rfl rfl rfl
theorem linkLost (port : Nat) (replayEcc : Bool) : Statement (.linkLost port replayEcc) := plain rfl rfl rfl
theorem fullRateAdvertise : Statement .fullRateAdvertise := plain rfl rfl rfl
theorem fullRateRetry (port : Nat) : Statement (.fullRateRetry port) := plain rfl rfl rfl
theorem timeExchange : Statement .timeExchange := plain rfl rfl rfl
theorem timeRequest (port : Nat) (flit : Bytes) : Statement (.timeRequest port flit) := plain rfl rfl rfl
theorem timeReply (port : Nat) (flit : Bytes) : Statement (.timeReply port flit) := plain rfl rfl rfl
theorem counterStep : Statement .counterStep := plain rfl rfl rfl
theorem graftSense (volts : List Nat) : Statement (.graftSense volts) := plain rfl rfl rfl
theorem pairFlit (trunk : Nat) (pair : Bytes) : Statement (.pairFlit trunk pair) := plain rfl rfl rfl
theorem pairingTimeout (trunk : Nat) : Statement (.pairingTimeout trunk) := plain rfl rfl rfl
theorem mergeComplete : Statement .mergeComplete := plain rfl rfl rfl
theorem slotBoundary : Statement .slotBoundary := plain rfl rfl rfl
theorem scheduleStart : Statement .scheduleStart := plain rfl rfl rfl
theorem routeSwapAt : Statement .routeSwapAt := plain rfl rfl rfl
theorem routeStageWrite : Statement .routeStageWrite := plain rfl rfl rfl
theorem routeStageTimeout : Statement .routeStageTimeout := plain rfl rfl rfl
theorem poolWaitGrant (die : Nat) (pool : Nat) : Statement (.poolWaitGrant die pool) := plain rfl rfl rfl
theorem watchdogExpiry : Statement .watchdogExpiry := plain rfl rfl rfl
theorem firmwareRestarted : Statement .firmwareRestarted := plain rfl rfl rfl
theorem heartbeat : Statement .heartbeat := plain rfl rfl rfl
theorem evaluationInterval (r : Readings) : Statement (.evaluationInterval r) := plain rfl rfl rfl
theorem scoringInterval : Statement .scoringInterval := plain rfl rfl rfl
theorem grantExpiry : Statement .grantExpiry := plain rfl rfl rfl
theorem periodicSlice (die : Nat) : Statement (.periodicSlice die) := plain rfl rfl rfl
theorem sliceBegin (unit : Nat) : Statement (.sliceBegin unit) := plain rfl rfl rfl
theorem sliceDeferred (unit : Nat) : Statement (.sliceDeferred unit) := plain rfl rfl rfl
theorem sliceEnd (unit : Nat) (passed : Bool) : Statement (.sliceEnd unit passed) := plain rfl rfl rfl
theorem patrolScrub (line : Nat) (found : Nat) : Statement (.patrolScrub line found) := plain rfl rfl rfl
theorem tick : Statement .tick := plain rfl rfl rfl
theorem cellTime : Statement .cellTime := plain rfl rfl rfl
theorem flitSlot (port : Nat) : Statement (.flitSlot port) := plain rfl rfl rfl
theorem fullBistComplete (failed : List Nat) : Statement (.fullBistComplete failed) := plain rfl rfl rfl
theorem shedSramUncorrectable (addr : Nat) : Statement (.shedSramUncorrectable addr) := plain rfl rfl rfl
theorem standbyPowerApplied : Statement .standbyPowerApplied := plain rfl rfl rfl
theorem stackTraining (stack : Nat) (ok : Bool) (retries : Nat) : Statement (.stackTraining stack ok retries) := plain rfl rfl rfl

end Sys2Proof.Laws.WellFormedFields
end

