-- ==== Sys2Proof/Laws/Words.lean ====
section
/-! SUPPORT. What an instruction of a program does, in one law for each way that it can go. -/
namespace Sys2Proof.Machine
open Sys2Proof.Safety

/-- An instruction that may issue answers past the checks of the issue. -/
theorem State.vyIssue_issues {s : State} {r : VyRow} {p : VyProg} {t : VyThread} {v : VyIns} {f} (h : AtRow s r p t v) :
    s.vyIssue r.op r.cls r.place r.use f =
      if t.qget v.guard == v.gneg then leaves s v p (past v t)
      else .next (match f s v p (past v t) with
        | .done p' t'' => s.vySettle (p'.setThread v.tile v.tid t'')
        | .fault k a tile => s.vyFault p v t.pc k (if k = vkBadOpcode then (p.text.getD t.pc 0).toNat else a) tile
        | .wait => s) := by
  have h0 : 0 < opWords v := by unfold opWords; split <;> omega
  have h1 : ¬ p.text.length ≤ t.pc := by have := h.text; omega
  have h2 : ¬ p.text.length < t.pc + opWords v := by have := h.text; omega
  have hg : (decide (r.op.tile < p.ntiles) && decide (r.op.tid < p.threads) && t.stat == .run && p.lib == 0
      && (false || s.vyTakes p t.pc r.cls r.place)) = true := by
    simp [h.tile, h.tid, h.runs, h.own, State.vyTakes, h.names]
  have hc : (r.op.upset != .clean) = false := by simp [h.clean]
  have hn : (s.vyDecode p t.pc).isNone = false := by simp [h.names]
  unfold State.vyIssue
  rw [h.prog]
  simp only [h.thread, h.word, State.act, h.clocks, hg, hc, hn, h.good, if_neg h1, if_neg h2, past, leaves, Bool.true_and, if_true,
    Bool.false_eq_true, if_false]
  by_cases hq : (t.qget v.guard == v.gneg) = true
  · simp only [hq, if_true]
  · simp only [hq, if_false, Bool.false_eq_true] <;> cases f s v p (past v t) <;> rfl

/-- An instruction that runs answers by its own effect. -/
theorem State.vyIssue_runs {s : State} {r : VyRow} {p : VyProg} {t : VyThread} {v : VyIns} {f} (h : AtRow s r p t v) (hg : guarded v t) :
    s.vyIssue r.op r.cls r.place r.use f = .next (match f s v p (past v t) with
      | .done p' t'' => s.vySettle (p'.setThread v.tile v.tid t'')
      | .fault k a tile => s.vyFault p v t.pc k (if k = vkBadOpcode then (p.text.getD t.pc 0).toNat else a) tile
      | .wait => s) := by
  rw [State.vyIssue_issues h, hg]
  cases f s v p (past v t) <;> rfl

@[simp] theorem gget_past (v : VyIns) (t : VyThread) (r : Nat) : (past v t).gget r = t.gget r := rfl
@[simp] theorem wget_past (v : VyIns) (t : VyThread) (r : Nat) : (past v t).wget r = t.wget r := rfl
@[simp] theorem qget_past (v : VyIns) (t : VyThread) (r : Nat) : (past v t).qget r = t.qget r := rfl
@[simp] theorem stack_past (v : VyIns) (t : VyThread) : (past v t).stack = t.stack := rfl
@[simp] theorem opB_past (v w : VyIns) (t : VyThread) : opB w (past v t) = opB w t := rfl
@[simp] theorem memAddr_past (v w : VyIns) (t : VyThread) : memAddr w (past v t) = memAddr w t := rfl

end Sys2Proof.Machine
end

