-- ==== Sys2Proof/Tests/Slice0.lean ====
section
/-! SUPPORT. Tests: well-formedness, worked examples of the spec, and witnesses of the hypotheses of the statements. -/
namespace Sys2Proof.Tests
set_option Elab.async false
open Sys2Proof.Machine Sys2Proof.Safety

/-! ## Ill-formed commands, one for each check -/

def word : VOp := ⟨0, 0, .clean⟩
def packet : Packet := ⟨0, 0, [], false, false⟩
def reading : Readings := ⟨List.replicate 72 (some 200), List.replicate 24 none, some 160, List.replicate 9 ⟨750, 100, 740, 760⟩⟩

/-- Terms that the checks refuse: places of rings, jobs, tags, stacks, sessions, units, lanes, trunks, resources, beds, tiles, threads,
pools, dies, links, inputs, sensors, lines, rails, causes, sizes, addresses and flits. -/
theorem test_ill_formed_places :
    (Instr.nop ⟨16384, 0⟩).wf = false ∧ (Instr.nop ⟨0, 2 ^ 32⟩).wf = false ∧ (Instr.jobEnable .host0 4096).wf = false
    ∧ (Instr.bucketComplete 0 1024).wf = false ∧ (Instr.stackTraining 24 true 0).wf = false ∧ (Instr.mirrorEnable .host0 8 0).wf = false
    ∧ (Instr.sliceBegin 1720).wf = false ∧ (Instr.lxPrbsErrRead .host0 656).wf = false ∧ (Instr.pairingTimeout 4).wf = false
    ∧ (Instr.claim .host0 8192).wf = false ∧ (Instr.rakeAccumulate 272 .clean).wf = false ∧ (Instr.add { word with tile := 256 }).wf = false
    ∧ (Instr.add { word with tid := 512 }).wf = false ∧ (Instr.poolWaitGrant 0 6).wf = false ∧ (Instr.poolWaitGrant 4 0).wf = false
    ∧ (Instr.periodicSlice 8).wf = false ∧ (Instr.flitSlot 133).wf = false ∧ (Instr.contrib 258 packet).wf = false
    ∧ (Instr.thermalTrip 96).wf = false ∧ (Instr.patrolScrub (24 * 2 ^ 26) 0).wf = false ∧ (Instr.patrolScrub 0 3).wf = false
    ∧ (Instr.railCollapse 10 0).wf = false ∧ (Instr.clockFailure 2).wf = false ∧ (Instr.registerWrite .host0 0 9 0).wf = false
    ∧ (Instr.registerWrite .host0 (2 ^ 26 + 2 ^ 16) 4 0).wf = false := by decide +kernel

/-- Terms that the checks of compound operands refuse: packets, FEC reports, readings, payloads, voltages and failed units. -/
theorem test_ill_formed_operands :
    (Instr.contrib 0 { packet with cls := 4 }).wf = false ∧ (Instr.cellFlit ⟨0, 32⟩ ⟨[], [], false, []⟩ (List.replicate 272 0)).wf = false
    ∧ (Instr.cellFlit ⟨0, 0⟩ ⟨[], [512], false, []⟩ (List.replicate 272 0)).wf = false ∧ (Instr.cellFlit ⟨0, 0⟩ ⟨[(512, 0, 0)], [], false, []⟩ (List.replicate 272 0)).wf = false
    ∧ (Instr.cellFlit ⟨0, 0⟩ ⟨[], [], false, [(0, 24, 0, false)]⟩ (List.replicate 272 0)).wf = false
    ∧ (Instr.cellFlit ⟨0, 0⟩ ⟨[], [], false, []⟩ (List.replicate 271 0)).wf = false ∧ (Instr.capFlit 0 []).wf = false
    ∧ (Instr.graftSense [0]).wf = false ∧ (Instr.evaluationInterval { reading with temp := [] }).wf = false
    ∧ (Instr.evaluationInterval { reading with coolant := some 2048 }).wf = false ∧ (Instr.taprootLinkDown ⟨2, false⟩).wf = false
    ∧ (Instr.detectTest 0 (List.replicate 17 0)).wf = false ∧ (Instr.fullBistComplete [1720]).wf = false := by decide +kernel

theorem test_well_formed :
    (Instr.add word).wf = true ∧ (Instr.contrib 5 packet).wf = true ∧ (Instr.evaluationInterval reading).wf = true
    ∧ (Instr.registerWrite .host1 0x20C 4 7).wf = true := by decide +kernel

/-! ## Worked examples of the spec -/

/-- The four vectors of R101. -/
theorem test_seedline :
    seedState 0 0 0 0 = (0x4F4C54C0#32, 0xF24BA268#32, 0xC23AFF5E#32, 0x8ED90ED6#32)
    ∧ seedState 0x0123456789ABCDEF 1 0 0 = (0x86C9C821#32, 0x32809AC2#32, 0xE5BEF2A5#32, 0xA44DDEBB#32)
    ∧ seedState 0x0123456789ABCDEF 1 7 1 = (0x5F51ED8F#32, 0xD301FAA8#32, 0xFA23211E#32, 0xB163C12B#32)
    ∧ seedState 0x0123456789ABCDEF 0x100000003 0 0 = (0x4A2BAD17#32, 0xC674BF74#32, 0xE9530EA0#32, 0x58155AC6#32) := by decide +kernel

/-- The master weight of job "hollowmere": the draw of vector 2 rounds it up, the draw of vector 1 does not (R99). -/
theorem test_stochastic_rounding :
    (encodeNum 0x1 2 false 0x86C9C8 (f32 0x3F80A000)).1 = 0x3F81 ∧ (encodeNum 0x1 2 false 0x4F4C54 (f32 0x3F80A000)).1 = 0x3F80 := by
  decide +kernel

/-- The MXFP8 block: scale byte 0x80, elements 0x7E, 0xBC, 0x03 and zeros, and one clamp. -/
theorem test_mx_block :
    encodeBlock 0x8 0 true (([f32 0x447A0000, f32 0xC0400000, Num.fin false (1 / 100)] ++ List.replicate 29 (Num.fin false 0)).map (·, 0))
      = ([0x80, 0x7E, 0xBC, 0x03] ++ List.replicate 29 0, { mx := 1 }) := by decide +kernel

/-- The slots of the last stripe of the bucket of job "quillmere". -/
def stripe256 : XpRec :=
  { stripe := 256, anchor := -4, nelem := 16, res := 0x2A, ncontrib := 64, firstFlag := 0xFFFFF, maxrec := 0xFEE00000#32, cnt := ⟨0, 0, 0, 0⟩,
    slots := ([3 * 2 ^ 108, -(2 ^ 107), 2 ^ 102, 3 * 2 ^ 50] ++ List.replicate 12 (0 : Int)).map (fun n => ⟨BitVec.ofInt 128 n, 0⟩) }

/-- Its record: 168 B, the header words, and the first words of its group (R139 to R143). -/
theorem test_xp_record :
    (xpBytes stripe256).length = 168
    ∧ (List.range 8).map (fun i => numAt (xpBytes stripe256) (8 * i) 8)
      = [0x02A820CBFC000100, 0x000001FFFFE00040, 0x00000000FEE00000, 0, 0, 0x43, 0xE000000000000006, 0xC020000000000001]
    ∧ residue (stripe256.slots.map (·.n.toInt)) = 0x2A ∧ xpParse (xpBytes stripe256) = stripe256 := by decide +kernel

/-- MAXREC of 0.046875 is 0xFEE0_0000, and of 0.75 it is 0xFFE0_0000 (R102). -/
theorem test_maxrec : maxrecOf (3 / 64) = 0xFEE00000#32 ∧ maxrecOf (3 / 4) = 0xFFE00000#32 := by decide +kernel

/-- The four contributions of job "brackenfold", in both orders: 2 × 2^82 grid steps, and 0x3400 as BF16. -/
def brackenfold (l : List Nat) : Slot := l.foldl (fun x v => (accumulate slotLimit 1 x (f32 (v * 2 ^ 16))).1) Slot.empty

theorem test_four_contributions :
    (brackenfold [0x3F80, 0x3380, 0x3380, 0xBF80]).n.toInt = 2 * 2 ^ 82 ∧ (brackenfold [0xBF80, 0x3380, 0x3380, 0x3F80]).n.toInt = 2 * 2 ^ 82
    ∧ (encodeNum 0x1 0 false 0 (readSlot 1 (brackenfold [0x3F80, 0x3380, 0x3380, 0xBF80]))).1 = 0x3400 := by decide +kernel

/-- The eight keys of job "sorrelby", sorted both ways: the order of their indices (R332). -/
def keys : List (Nat × Machine.Num) := ([0x3C00, 0x8000, 0x7E00, 0, 0x3C00, 0xFC00, 0x7D01, 0xC000].map (decodeNum 0x2)).mapIdx (fun i x => (i, x))

theorem test_sort : (sortKeys false keys).map (·.1) = [5, 7, 1, 3, 0, 4, 2, 6] ∧ (sortKeys true keys).map (·.1) = [2, 6, 0, 4, 3, 1, 7, 5] := by
  decide +kernel

/-- The check value of CRC-32C over "123456789", and SHAKE256 of nothing. -/
theorem test_crc_and_shake :
    crc32c [0x31, 0x32, 0x33, 0x34, 0x35, 0x36, 0x37, 0x38, 0x39] = 0xE3069283#32
    ∧ shake256 [] 8 = [0x46, 0xB9, 0xDD, 0x2B, 0x0B, 0xA8, 0x8D, 0x13] := by decide +kernel

/-! ## Single steps -/

/-- A package whose clocks run. -/
def on : State := { State.reset with pwr := { State.reset.pwr with locked := true } }

/-- The state that an outcome leaves. -/
def after (s : State) : Host.Outcome State Fault Refusal → State
  | .next t => t
  | _ => s


/-- JOB[7] and JOB[9] of the example: the map reads 0xFFF7_4000 once the claims of the tick have been applied. -/
theorem test_owner_map :
    let s := (rangeFrom 8 8).foldl (fun s j => s.setOwner j 3) { on with host := { on.host with claims := [⟨.host0, 7, true⟩, ⟨.host1, 7, false⟩] } }
    (after on (exec .tick (s.setOwner 9 1))).rget (Reg.ownerMap 0) = 0xFFF74000 := by decide +kernel

/-- Bed 137 of job "fernbank": 30 points on a score of 12 give SCORE 41 with WATCH; BAND 6 stands in bits 10 to 8. -/
theorem test_bed_score :
    let s : State := { on with shed := { on.shed with scores := [(137, 12 + 6 * 2 ^ 8)], points := [(137, 30)] } }
    tget 0 (s.scoreUnit 137).shed.scores 137 % 2 ^ 14 = 0x2629 := by decide +kernel
/-- R644 and the example after it: a failed bed reads STATE 2 with SCORE 255, SLICE_FAIL and ALERT. -/
theorem test_failed_bed :
    let v := tget 0 (on.failBed 793 2).shed.scores 793
    (nbits v 0 8, nbits v 11 2, nbits v 14 1, nbits v 15 1) = (255, 2, 1, 1) := by decide +kernel
/-- R695: an inlet reading outside 0 °C to 80 °C has VALID at 0, and R606 then holds the depth at 8. -/
theorem test_inlet_out_of_range :
    let s (x : Int) := on.evaluate { reading with coolant := some x }
    ((s (-1)).flag Reg.coolantIn F.coolantIn_valid, (s 641).flag Reg.coolantIn F.coolantIn_valid, (s 641).throttle,
      (s 160).flag Reg.coolantIn F.coolantIn_valid) = (false, false, 8, true) := by decide +kernel

/-- Part P3 of the "quillmere" fabric: its exchange gives an offset of 13.5 ticks, in sixteenths here, and a delay of 50 ticks. -/
theorem test_time_sample :
    let o : Int := ((16000508 - 16000000) - (16000960 - 16000668) : Int)
    let d : Int := ((16000960 - 16000000) - (16000668 - 16000508) : Int)
    o = 216 ∧ eighthsOf (2 * o) = 108 ∧ d = 2 * 400 := by decide +kernel

/-! ## States for the witnesses -/

/-- A package in service: Taproot is up, Shed runs, the store is ready, and job 0 is ACTIVE with budgets. -/
def rd : State :=
  let s := ((on.fset Reg.tapStatus F.tapStatus_linkUp 1).fset Reg.shedStatus F.shedStatus_bootState bsRunning).fset Reg.service
    F.service_storeReady 1
  ((s.fset Reg.service F.service_seedling 0).fset (Reg.ringStatus 0) F.ringStatus_state ringRunning).modJob 0 (fun b =>
    ((((b.put J.state jobActive).put J.slotBudget 1000).put J.storeBudget 1000).put J.coldBudget 1000).put J.eventCount 16)

/-- A command of ring 0 with its parameters. -/
def cx (op par : Nat) (ph : Phase) : Ctx := ⟨0, 0, BitVec.ofNat 512 (op + par * 2 ^ 192), ph, false, 0, 0, none, 0, false, none, false, none, [], 0, 0, 0⟩
def wc (op par : Nat) (ph : Phase) : State := { rd with host := { rd.host with ctxs := [cx op par ph] } }

/-- The command of ring 0 is free of its waits. -/
theorem free_wc (op par : Nat) (h : (cx op par .free).opcode = op) (hc : rd.clocked = true) : Free (wc op par .free) ⟨0, 0⟩ op (cx op par .free) :=
  ⟨hc, rfl, rfl, h⟩

theorem test_rd : rd.clocked = true ∧ rd.seedling = false ∧ rd.linkUp 0 = true ∧ rd.jobIs 0 jobActive = true ∧ rd.ringJob 0 = 0 := by decide +kernel

/-- An operation of job 0 under tag 0 with port 0 as its one local member. -/
def op (opcode par : Nat) : Op :=
  { ring := 0, idx := 0, opcode := opcode, job := 0, tag := 0, epoch := 0, par := BitVec.ofNat 320 par, admTick := 0, deadline := some 0, anchor := 0,
    tIn := 0, members := 2, src := [0], dst := [], parts := [], stage := .accepting, live := true, unopened := false, place := [0], stripes := [],
    accepted := [], valuesIn := 0, stale := 0, foreign := 0, parentReady := true, finalChunks := [], sentChunks := [], delivered := 0, lasts := 0,
    out := ⟨0, 0, 0, 0⟩, maxrec := maxrecNone, summary := none, fenced := [], missing := 0, portsShort := 0, childrenShort := 0, fencedOwing := 0,
    originStatus := 0, originCoord := 0, gather := [], gone := 0, counts := [], countGot := [], ready2 := true, ready2From := [], dropped := 0 }
/-- A bucket of `n` FP32 elements, each contributed once, with `k` children, at its root where `r` is 1. -/
def bucket (n k r : Nat) : Op := op 0x03 (n * 2 ^ 84 + 2 ^ 155 + k * 2 ^ 165 + r * 2 ^ 189 + 2 ^ 190)
def wo (o : Op) : State :=
  { rd.modJob 0 (fun b => { b with layouts := [(0, [⟨0, 2, 0, 0⟩])] }) with ops := [o] }
/-- A packet of job 0 and tag 0, its type, its further header bits and its payload. -/
def pk (type hdr : Nat) (b : Bytes) : Packet := ⟨BitVec.ofNat 192 (type + hdr), 0, b, false, false⟩

/-! ## Words of a program -/

def th : VyThread := ⟨[], [], 0, 0, [], .run, 0⟩
/-- A program of one tile and one thread with a buffer of 64 B and one scratch stripe. -/
def pr (bal : Bool) (text : List Word32) (t : VyThread) : VyProg :=
  ⟨0, 0, 0, 0, [], bal, 0, 1, 0, [0], [0], 0, some 0, 0, 1, 1, 0, text, [], [⟨1, true, 0, 0, 64, 0, 0, 0⟩], [(0, t)], [], [], [], [], [], 0, [], [],
    [], [], [], 0, ⟨0, 0, 0, 0⟩, 0, 0⟩
def vs (p : VyProg) : State := { rd with vy := some p }

/-- A word, and its immediate, by the fields of R292: CLASS, OP, D, A, B, PRED 7, PNEG and MOD. -/
def coded (cls op d a b : Nat) (neg : Bool) (m : Nat) (i : Option Nat) : List Word32 :=
  BitVec.ofNat 32 (2 ^ 28 * cls + 2 ^ 22 * op + 2 ^ 17 * d + 2 ^ 12 * a + 2 ^ 7 * b + 16 * 7 + (if neg then 8 else 0)
    + (if i.isSome then 4 else 0) + m) :: (i.map (BitVec.ofNat 32)).toList

/-- The word of a row at the top of its field ranges, with an immediate where it takes one beside B. -/
def atTop (r : VyRow) (neg : Bool) (i : Nat) : List Word32 :=
  coded r.cls r.place (r.use.d - 1) (r.use.a - 1) (r.use.b - 1) neg (r.use.mods - 1) (if 2 ≤ r.use.ext then some i else none)

/-- The checks of `AtRow` and of the guard for the first word of a program. -/
def fits (s : State) (p : VyProg) (r : VyRow) : Bool :=
  let t := p.thread 0 0
  let v := p.fields 0 0 t.pc
  s.clocked && p.lib == 0 && decide (r.op.tile = 0 ∧ r.op.tid = 0 ∧ 0 < p.ntiles ∧ 0 < p.threads) && t.stat == .run && r.op.upset == .clean
    && s.vyDecode p t.pc == some (r.cls, r.place) && decide (t.pc + opWords v ≤ p.text.length) && !r.use.bad v (r.cls == 7)

theorem issues_of {i : Instr} {r : VyRow} {p : VyProg} (hi : rowOf i = some r) (h : fits (vs p) p r = true) :
    Issues (vs p) i p (p.thread 0 0) (p.fields 0 0 (p.thread 0 0).pc) := by
  simp only [fits, Bool.and_eq_true, decide_eq_true_eq, beq_iff_eq, Bool.not_eq_true'] at h
  obtain ⟨⟨⟨⟨⟨⟨⟨hc, hl⟩, h1, h2, h3, h4⟩, hs⟩, hu⟩, hd⟩, ht⟩, hb⟩ := h
  simp only [Issues, hi]
  exact ⟨hc, rfl, hl, by omega, by omega, by rw [h1, h2], hs, hu, by rw [h1, h2], hd, ht, hb⟩

/-- Every operation of a program. -/
def operations : List Instr :=
  [Instr.br, .jmp, .call, .ret, .halt, .barT, .barG, .syncL, .syncG, .waitx, .add, .sub, .mul, .mulh, .mulhu, .div, .divu, .rem, .remu, .and, .or,
   .xor, .shl, .shr, .sar, .rotl, .min, .max, .minu, .maxu, .mov, .cmpEq, .cmpLt, .cmpLtu, .fadd, .fsub, .fmul, .fma, .fnma, .fdiv, .fsqrt, .fmax,
   .fmin, .fabs, .fsign, .fsel, .fmov, .fcmpEq, .fcmpLt, .fcmpLe, .dec, .enc, .wclr, .wacc, .wdot, .wadd, .wread, .maxr, .ld, .lds, .st, .pld,
   .pst, .aadd, .amin, .amax, .aminu, .amaxu, .aand, .aor, .aswp, .acas, .sacc, .sld, .bxferI, .bxferO, .gets, .seed, .wqtake].map (· word)

/-- The program of one word of a row, and one whose thread holds 40 in G31. -/
def one (bal neg : Bool) (i : Nat) (r : VyRow) : VyProg := pr bal (atTop r neg i) th
def th40 : VyThread := { th with g := [(31, 40)] }

/-- In both modes every operation issues, at the top of its field ranges, with its guard at 1, and with its guard at 0. -/
theorem test_witness_words (bal neg : Bool) : ∀ i ∈ operations, ∃ r p, rowOf i = some r ∧ p = one bal neg (2 ^ 21) r
    ∧ Issues (vs p) i p (p.thread 0 0) (p.fields 0 0 0) ∧ ((p.thread 0 0).qget (p.fields 0 0 0).guard == (p.fields 0 0 0).gneg) = !neg := by
  intro i hi
  have h : operations.all (fun i => (rowOf i).any (fun r => fits (vs (one bal neg (2 ^ 21) r)) (one bal neg (2 ^ 21) r) r
      && (((one bal neg (2 ^ 21) r).thread 0 0).qget ((one bal neg (2 ^ 21) r).fields 0 0 0).guard == ((one bal neg (2 ^ 21) r).fields 0 0 0).gneg)
        == !neg)) = true := by cases bal <;> cases neg <;> decide +kernel
  have h := List.all_eq_true.mp h i hi
  cases hr : rowOf i with
  | none => simp [hr] at h
  | some r =>
    simp only [hr, Option.any_some, Bool.and_eq_true, beq_iff_eq] at h
    exact ⟨r, _, rfl, rfl, issues_of hr h.1, h.2⟩

/-- The fields of the one word of a program. -/
def fieldsOf (bal : Bool) (cls place : Nat) (u : VyUse) (i : Nat) : VyIns := (one bal true i ⟨word, cls, place, u⟩).fields 0 0 0

/-- The further conditions of the words of those programs: bounds of accesses in both modes and of the write log, limits of the exact unit,
and transfers. -/
theorem test_witness_word_conditions :
    (let v (bal : Bool) := fieldsOf bal 5 0 useLoad 8
     memPlace (pr false [] th) (v false) false (memAddr (v false) th) = .inl (0, 8) ∧ memPlace (pr true [] th) (v true) true (memAddr (v true) th) = .inl (0, 8))
    ∧ (let v := fieldsOf true 5 2 useStore (2 ^ 21)
       memPlace (pr true [] th) v false (memAddr v th) = .inr vkWindow)
    ∧ (let v := fieldsOf true 7 0 useAtomic 8
       memPlace (pr true [] th) v v.peer (memAddr v th) = .inl (0, 8))
    ∧ (let v := fieldsOf true 7 32 useAtomic 8
       v.peer = true ∧ memPlace (pr true [] th) v v.peer (memAddr v th) = .inl (0, 8))
    ∧ (let v := fieldsOf true 7 0 useAtomic 1
       memPlace (pr true [] th) v v.peer (memAddr v th) = .inr vkMisaligned)
    ∧ tget 0 (pr false [] th).logCount 0 < 8192 ∧ 8192 ≤ tget 0 { pr false [] th with logCount := [(0, 8192)] }.logCount 0
    ∧ badControl (opB (fieldsOf true 3 0 useDAB 0) th) = false
    ∧ (th.wget 3).count + 1 ≤ 2 ^ (th.wget 3).head ∧ (th.wget 3).anchor = (th.wget 3).anchor
    ∧ (th.gget 31).toNat < 256 * (pr true [] th).stripes ∧ tget 0 (pr true [] th).reqs 0 + 1 ≤ 1048576
    ∧ (let v := fieldsOf true 4 0 ⟨4, 32, 32, 1, 1⟩ 0
       20 ≤ (opB v th40).toNat ∧ (opB v th40).toNat ≤ 40)
    ∧ (let p := pr true (atTop ⟨word, 4, 0, ⟨4, 32, 32, 1, 1⟩⟩ true 0) th40
       fits (vs p) p ⟨word, 4, 0, ⟨4, 32, 32, 1, 1⟩⟩ = true)
    ∧ ((pr true [] th).buf 0).writable = true ∧ ((pr true [] th).buf 0).kind ≠ 3 ∧ 64 ≤ ((pr true [] th).buf 0).length
    ∧ nbits (2 ^ 21) 0 21 = 0 ∧ nbits (2 ^ 21) 21 11 = 1 ∧ (fieldsOf true 9 0 useXfer (2 ^ 21)).imm = some 0x200000
    ∧ (th.gget 31).toNat % 32 < (pr true [] th).bufs.length ∧ (th.gget 31).toNat % 64 = 0 := by decide +kernel

/-- A transfer that is outstanding, into the window and out of it, whose buffer is in the part, and one from host memory that cannot be read. -/
def moving (out : Bool) (kind : Nat) : VyProg :=
  { pr true [] th with xfers := [⟨0, 0, out, 0, 0, 0, 64, [], false⟩], bufs := [⟨kind, true, 0, 0, 64, 0, 0, 0⟩] }
theorem test_witness_transfers :
    (∀ out, (moving out 1).xfers.find? (fun x => x.tile == 0 && x.tid == 0 && !x.done) = some ⟨0, 0, out, 0, 0, 0, 64, [], false⟩)
    ∧ ((moving true 1).buf 0).kind ≠ 0 ∧ rd.linkUp (rd.ringCard 0) = true
    ∧ (vs (moving false 1)).xferData (moving false 1) ⟨0, 0, false, 0, 0, 0, 64, [], false⟩ none = .inl (List.replicate 64 0)
    ∧ (vs (moving true 1)).xferData (moving true 1) ⟨0, 0, true, 0, 0, 0, 64, [], false⟩ none = .inl []
    ∧ (vs (moving false 0)).xferData (moving false 0) ⟨0, 0, false, 0, 0, 0, 64, [], false⟩ none = .inr stHostFault := by decide +kernel

/-- Words that fault: at the end of the text, with a reserved code, with no immediate word, with a bad field, at the limits of the log, an
accumulator, a slot and the return stack. -/
theorem test_witness_faults :
    ((pr true [] th).thread 0 0).stat = .run ∧ (vs (pr true [] th)).clocked = true
    ∧ (vs (pr true [0xF0000000] th)).vyDecode (pr true [0xF0000000] th) 0 = none
    ∧ (let p := pr true (coded 5 0 0 0 0 true 0 (some 0)).dropLast th
       (vs p).vyDecode p 0 = some (5, 0) ∧ p.text.length < 0 + opWords (p.fields 0 0 0))
    ∧ (let p := pr true (coded 0 1 1 0 0 true 0 none) th
       (vs p).vyDecode p 0 = some (0, 1) ∧ 0 + opWords (p.fields 0 0 0) ≤ p.text.length ∧ useB.bad (p.fields 0 0 0) false = true)
    ∧ 2 ^ ({ th with w := [(0, ⟨⟨0, 0⟩, 0, 20, 2 ^ 20⟩)] }.wget 0).head < ({ th with w := [(0, ⟨⟨0, 0⟩, 0, 20, 2 ^ 20⟩)] }.wget 0).count + 1
    ∧ ({ th with w := [(0, ⟨⟨0, 0⟩, 5, 20, 0⟩)] }.wget 0).anchor ≠ ({ th with w := [(0, ⟨⟨0, 0⟩, 5, 20, 0⟩)] }.wget 1).anchor
    ∧ 256 * (pr true [] th).stripes ≤ 256 ∧ 1048576 ≤ tget 0 { pr true [] th with reqs := [(0, 1048576)] }.reqs 0
    ∧ 16 ≤ { th with stack := List.replicate 16 0 }.stack.length ∧ th.stack = [] := by decide +kernel


/-! ## Rings, operations and exchanges -/

/-- Tagged commands: a SHIFT of job 0 keeps its checks, one of another epoch does not, and reductions and PERMUTE have their witnesses. -/
theorem test_witness_tagged :
    (cx 0x06 0 .free).opcode = 0x06 ∧ rd.dataCheck (cx 0x06 0 .free) none = none ∧ rd.dataCheck (cx 0x06 (2 ^ 10) .free) none = some stStaleEpoch
    ∧ rd.redCheck (cx 0x03 (256 * 2 ^ 84 + 2 ^ 155 + 2 ^ 190) .free) = none ∧ (cx 0x03 (256 * 2 ^ 84 + 2 ^ 155 + 2 ^ 190) .free).opcode = 0x03
    ∧ rd.redCheck (cx 0x04 0 .free) = some stBadField
    ∧ rd.dataCheck (cx 0x07 (2 ^ 20 + 2 ^ 36) .free) none = none ∧ (cx 0x05 (2 ^ 84 + 15 * 2 ^ 124) .free).p 84 40 ≠ 0
    ∧ (cx 0x05 (2 ^ 84 + 15 * 2 ^ 124) .free).p 124 4 = 0xF ∧ (cx 0x05 0 .free).opcode = 0x05 ∧ (cx 0x01 0 .free).opcode = 0x01 := by
  decide +kernel

theorem placement_zero (s : State) : s.placement 0 = some [] := by simp [State.placement, ceilDiv, placeFrom]
/-- An admission: a queued SHIFT is eligible and first, and its stripes, none, have a place. -/
theorem test_witness_admission :
    let s := (wc 0x06 0 .queued).stampEligible
    let x : Ctx := { cx 0x06 0 .queued with eligTick := some 0 }
    s.ctx ⟨0, 0⟩ = some x ∧ isTagged x.opcode = true ∧ s.judgeAgain x = none ∧ s.eligible x = true ∧ s.firstEligible x = true
    ∧ s.makeRoom x.stripes = some s ∧ s.placement x.stripes = some [] := by
  have e : ({ cx 0x06 0 .queued with eligTick := some 0 } : Ctx).stripes = 0 := by decide +kernel
  have hh : ((wc 0x06 0 .queued).stampEligible).held = [] := rfl
  refine ⟨by decide +kernel, by decide +kernel, by decide +kernel, by decide +kernel, by decide +kernel, ?_, ?_⟩ <;> simp only [e]
  · simp [State.makeRoom, hh, State.spillUntil, placement_zero]
  · exact placement_zero _

/-- A package with one active bed, on which a SIEVE_RUN with one scratch stripe is admitted, and a queued SHIFT of a past epoch. -/
def lone : State :=
  ((List.range 15).foldl (fun s k => s.rset (Reg.bedMapLo (k + 1)) 0xFFFFFFFF) (rd.rset (Reg.bedMapLo 0) 0xFFFFFFFC)).rset Reg.bedMapSpare 0xFFFFFFFF
def scratch : State := { lone with host := { lone.host with ctxs := [cx 0x0F (2 ^ 186) .queued] }, sieves := [⟨0, 0, [], none, []⟩] }
theorem placement_lone {s : State} (h : s.bedsIn = [0]) (hg : s.grafted = false) (hl : s.bedLoad 0 = 0) : s.placement 1 = some [0] := by
  simp [State.placement, State.packages, h, hg, hl, rotate, Nat.mod_one, placeFrom, placeChunk, pickBed, ceilDiv, tget, tset, tdel, bedStripes]
theorem test_witness_scratch :
    let t := scratch.stampEligible
    let x : Ctx := { cx 0x0F (2 ^ 186) .queued with eligTick := some 0 }
    (t.ctx ⟨0, 0⟩ = some x ∧ x.opcode = 0x0F ∧ t.judgeAgain x = none ∧ t.sieveEligible x = true ∧ t.firstEligible x = true)
    ∧ t.makeRoom x.stripes = some t ∧ t.placement x.stripes = some [0]
    ∧ (let u := (wc 0x06 (2 ^ 10) .queued).stampEligible
       epochCase (u.job (u.ringJob 0)) (cx 0x06 (2 ^ 10) .queued) = .stale) := by
  have e : ({ cx 0x0F (2 ^ 186) .queued with eligTick := some 0 } : Ctx).stripes = 1 := by decide +kernel
  have b : scratch.stampEligible.bedsIn = [0] := by decide +kernel
  have l : scratch.stampEligible.bedLoad 0 = 0 := by decide +kernel
  have q := placement_lone b (by decide +kernel) l
  have hh : scratch.stampEligible.held = [] := rfl
  refine ⟨by decide +kernel, ?_, ?_, by decide +kernel⟩ <;> simp only [e]
  · simp [State.makeRoom, hh, State.spillUntil, q]
  · exact q

/-- NOP on the last event of a job, LAUNCH_AT now and late, and its maturity. -/
theorem test_witness_events :
    (cx 0x00 (1 + 15 * 4 + 2 ^ 18) .free).p 0 2 = 1 ∧ (cx 0x00 (1 + 15 * 4 + 2 ^ 18) .free).p 18 17 = 1
    ∧ (rd.job 0).hasEvent ((cx 0x00 (1 + 15 * 4 + 2 ^ 18) .free).p 2 16) = true ∧ 1 < (cx 0x00 2 .free).p 0 2
    ∧ (cx 0x00 1 .ended).p 0 2 = 1 ∧ (cx 0x00 1 .ended).rejected = false ∧ (cx 0x00 1 .ended).status = stOk ∧ (cx 0x00 0 .free).p 0 2 = 0
    ∧ (cx 0x12 0 .free).freeTick ≤ (cx 0x12 0 .free).p 0 64 ∧ (cx 0x12 0 .free).p 66 1 = 0 ∧ (cx 0x12 0 .free).p 65 1 = 0
    ∧ (cx 0x12 5 .free).p 0 64 < { cx 0x12 5 .free with freeTick := 6 }.freeTick ∧ (cx 0x12 (2 ^ 64) .free).p 64 1 = 1
    ∧ (cx 0x12 (2 ^ 65) .run).p 65 1 = 1 ∧ rd.locked = false ∧ (cx 0x12 (2 ^ 65) .run).p 0 64 ≤ rd.now := by decide +kernel

theorem test_witness_fence :
    (cx 0x10 0 .free).opcode = 0x10 ∧ rd.ownPort ((cx 0x10 0 .free).p 0 23) = true ∧ rd.ownPort ((cx 0x10 1 .free).p 0 23) = false ∧ rd.fenced 0 (rd.ringJob 0) = false ∧ rd.fences.length < 8192
    ∧ ({ rd with fences := [⟨0, 0⟩] } : State).fenced 0 0 = true ∧ (cx 0x11 0 .free).opcode = 0x11
    ∧ (wo (bucket 1 0 1)).ops.find? (fun o => o.live && Op.named 0 0 o && (!(o.isRed || o.opcode == 0x05) || o.gen == 0)) = some (bucket 1 0 1)
    ∧ rd.held.find? (fun h => h.job == 0 && h.tensor == 0 && h.gen == 0 && h.tseq == 0) = none ∧ (cx 0x02 (2 ^ 98) .free).p 98 1 = 1 := by
  decide +kernel

theorem test_witness_fences (n : Nat) :
    ({ rd with fences := List.replicate n ⟨1, 0⟩ } : State).fenced 0 0 = false
    ∧ n ≤ ({ rd with fences := List.replicate n ⟨1, 0⟩ } : State).fences.length := by
  simp [State.fenced, List.mem_replicate]

def bankOf (c : Bool) : SchedBank := ⟨0, 0, 6, 1, c, []⟩
theorem test_witness_schedules :
    rd.flag Reg.schedStatus F.schedStatus_pending = false ∧ rd.ownerOf (rd.ringJob 0) = rd.ownerOf resFabric
    ∧ (let x := cx 0x13 (512 * 2 ^ 64 + 6 * 2 ^ 152 + 2 ^ 157) .free
       x.p 170 1 = 0 ∧ x.p 0 64 % 64 = 0 ∧ 6 ≤ x.p 152 5 ∧ x.p 152 5 ≤ 20 ∧ 1 ≤ x.p 157 13 ∧ x.p 157 13 ≤ 4096 ∧ x.p 64 24 = 512 * x.p 157 13)
    ∧ (ownersOf false 1 (List.replicate 512 0xFF)).1 = true ∧ (cx 0x13 (2 ^ 170) .free).p 170 1 = 1
    ∧ rd.linkUp (rd.ringCard 0) = true ∧ on.linkUp (on.ringCard 0) = false
    ∧ (let s : State := { rd.fset Reg.schedStatus F.schedStatus_pending 1 with xb := { rd.xb with bank0 := some (bankOf false) } }
       s.waitingBank = some (bankOf false) ∧ (bankOf false).force ≤ s.now)
    ∧ (let s : State := { rd.fset Reg.schedStatus F.schedStatus_inForce 1 with xb := { rd.xb with bank0 := some (bankOf false) } }
       s.bank = some (bankOf false)) := by decide +kernel

theorem test_witness_routes :
    (wc 0x14 0 .free).routeTurn ⟨0, 0⟩ = true ∧ (cx 0x14 0 .free).p 0 64 % 64 = 0
    ∧ (parseSections 0 (bytesAt [] 0 0)) = some []
    ∧ ([] : List RouteSection).all (rd.sectionOk (rd.stagedRoutes true [])) = true
    ∧ rd.holdsIdle = false ∧ rd.now ≤ (⟨0, 0, true, [], 0⟩ : RouteStage).since + 2 ^ 20
    ∧ (⟨0, 0, true, [], 0⟩ : RouteStage).since + 2 ^ 20 ≤ (rd.rset Reg.gcValue (2 ^ 20)).now
    ∧ (cx 0x15 (2 ^ 64) .free).p 64 1 ≠ rd.activeEpoch ∧ (rd.fset Reg.routeStatus F.routeStatus_staged 1).flag Reg.routeStatus F.routeStatus_staged = true
    ∧ (cx 0x15 (2 ^ 64) .free).p 0 64 = 0 ∧ (0 < (cx 0x15 1 .free).p 0 64 ∧ (cx 0x15 1 .free).p 0 64 < (rd.rset Reg.gcValue 2).now)
    ∧ rd.now < (cx 0x15 9 .free).p 0 64
    ∧ (wc 0x15 0 .run).host.ctxs.find? (fun x => x.opcode == 0x15 && x.phase == .run) = some (cx 0x15 0 .run) ∧ (cx 0x15 0 .run).p 0 64 ≤ rd.now := by decide +kernel

theorem test_witness_surveys :
    surveyBytes ≤ (cx 0x16 ((2 ^ 40 - 1) * 2 ^ 64) .free).p 64 40 ∧ (cx 0x16 0 .free).p 0 64 % 4096 = 0 ∧ rd.host.survey = none
    ∧ (cx 0x16 0 .free).p 64 40 < surveyBytes
    ∧ surveyBytes ≤ (rd.fset Reg.surveyLen F.surveyLen_len (2 ^ 32 - 1)).fget Reg.surveyLen F.surveyLen_len
    ∧ (let s : State := { rd with host := { rd.host with survey := some ⟨none, 0, 0, 0, some []⟩ } }
       s.host.survey = some ⟨none, 0, 0, 0, some []⟩ ∧ s.host.survey ≠ none ∧ s.linkUp 0 = true) := by decide +kernel

/-- A running ring with one descriptor written, and one that holds its descriptor. -/
def ringOne : State := ((rd.fset (Reg.doorbell 0) F.doorbell_cmdTail 1).fset (Reg.ringCtrl 0) F.ringCtrl_enable 1)
theorem test_witness_rings :
    ringOne.nextRing = some 0 ∧ (ringOne.ringX 0).heldDesc = none
    ∧ (ringOne.setRingX 0 ⟨some 0, 0, none⟩).nextRing = some 0 ∧ ((ringOne.setRingX 0 ⟨some 0, 0, none⟩).ringX 0).heldDesc = some 0
    ∧ (wc 0 0 .waits).waitsSet (cx 0 0 .waits) = true ∧ (wc 0 0 .waits).time.stepNow = false
    ∧ (wc 0 0 .ended).ctx ⟨0, 0⟩ = some (cx 0 0 .ended) ∧ ((wc 0 0 .ended).opOf ⟨0, 0⟩).all (wc 0 0 .ended).packetsOut = true
    ∧ (let s := (rd.setRingX 0 ⟨none, 1, some 0⟩).rset (Reg.ringIrq 0) (bset F.ringIrq_irqEn (bset F.ringIrq_delay (0 : Word64) 1) 1)
       s.flag (Reg.ringIrq 0) F.ringIrq_irqEn = true ∧ 0 < s.fget (Reg.ringIrq 0) F.ringIrq_delay
       ∧ 0 + 1024 * s.fget (Reg.ringIrq 0) F.ringIrq_delay ≤ (s.rset Reg.gcValue 1024).now)
    ∧ rd.owns .host0 (rd.ringJob 0) = true ∧ rd.ringState 0 = ringRunning ∧ on.ringState 16383 = ringIdle ∧ rd.accepted 0 = 0
    ∧ on.linkUp 0 = false ∧ on.hasCard 0 = true ∧ rd.hasCard 0 = true := by decide +kernel

/-- An ended operation and an ended PUBLISH whose packets have left, and each with a packet that waits for Trellis. -/
theorem test_witness_completions :
    let o := { bucket 8 0 1 with live := false }
    let x := { cx 0x0A (2 ^ 24) .ended with begun := true }
    let r : Packet := pk ptResult (65535 * 2 ^ 168) []
    let s (l : List (Packet × Nat)) : State := { wo o with host := { rd.host with ctxs := [cx 0x03 0 .ended] }, xb := { rd.xb with fromEngines := l } }
    let t (l : List (Packet × Nat)) : State := { rd with host := { rd.host with ctxs := [x] }, xb := { rd.xb with fromEngines := l } }
    (s []).opOf ⟨0, 0⟩ = some o ∧ (s []).packetsOut o = true ∧ (s [(pk ptXp 0 [], 1)]).packetsOut o = false
    ∧ (t []).pubOut x = true ∧ pget r Ph.tseq = 65535 ∧ (t [(r, 1)]).pubOut x = false
    ∧ ((s []).writeCpl ⟨1, 0, none⟩).ops = [o] := by decide +kernel

/-- Ring 0 as its owner may enable it, as it may not, and running with a command. -/
theorem test_witness_ring_control :
    (let s := rd.fset (Reg.ringStatus 0) F.ringStatus_state ringIdle
     let on := (s.ringConfig 0 (BitVec.ofNat 32 (bset F.ringCtrl_log2Size (0 : Word64) 4).toNat)).fset (Reg.ringCtrl 0) F.ringCtrl_enable 1
     s.ringState 0 = ringIdle ∧ (on.modJob 0 (fun b => b.put J.ringBudget 1)).ringMayRun .host0 0 = true ∧ on.ringMayRun .host1 0 = false)
    ∧ rd.ringState 0 = ringRunning ∧ 0 < (rd.fset (Reg.accepted 0) F.accepted_count 1).accepted 0 := by decide +kernel

theorem test_witness_contributions :
    let s := wo (bucket 8 0 1)
    let p := pk ptContrib 0 (List.replicate 32 0)
    pget p Ph.type = ptContrib ∧ s.jobIs (pget p Ph.job) jobActive = true ∧ (s.taken p).findOp (pget p Ph.job) (pget p Ph.tag) = some (bucket 8 0 1)
    ∧ s.spoiled p = false ∧ s.spoiled { p with bad := true } = true
    ∧ (bucket 8 0 1).epoch = pget p Ph.epoch ∧ (bucket 8 0 1).live = true ∧ (bucket 8 0 1).isRed = true ∧ s.entryBit 0 p = 0
    ∧ (bucket 8 0 1).src.contains 0 = true ∧ s.bitMember ((s.job 0).layout 0) 0 = some (pget p Ph.member) ∧ (bucket 8 0 1).src.contains 2 = false
    ∧ (bucket 8 0 1).portSent 0 + (contribSplit 0 8 0 (elemCount 0 p.payload)).1 = (bucket 8 0 1).owed
    ∧ ({ bucket 8 0 1 with accepted := [(0, 1)] }).owed < ({ bucket 8 0 1 with accepted := [(0, 1)] }).portSent 0 + 8
    ∧ (bucket 8 0 1).epoch ≠ pget (pk ptContrib (2 ^ 88) []) Ph.epoch
    ∧ (rd.taken p).findOp 0 0 = none := by decide +kernel

def value : BedVal := ⟨0, 0, 0, 0, 0, f32 0x3F800000⟩
/-- Values for a bed with room; and a packet of the buffer whose values wait for a bed. -/
theorem test_witness_bed_queues :
    ([value].any (fun v => rd.bedFull v.bed) = false ∧ rd.inBuffer (pk ptContrib 0 []) = none)
    ∧ ({ rd with bedQ := List.replicate (max 1 Config.bedQueue) value } : State).bedFull 0 = true := by
  have room : rd.bedFull 0 = false := by
    simp only [State.bedFull, show rd.bedQ = [] from rfl, List.filter_nil, List.length_nil]
    exact decide_eq_false (by omega)
  refine ⟨⟨by simp [value, room], by decide +kernel⟩, ?_⟩
  simp [State.bedFull, value]

/-- A value that leaves its stripe open, and one that ends it, of a bucket with the right total and with another. -/
theorem test_witness_rake :
    let s : State := { wo (bucket 8 0 1) with bedQ := [value] }
    s.bedQ.find? (fun v => v.bed == 0) = some value ∧ ({ s with bedQ := s.bedQ.erase value } : State).findOp 0 0 = some (bucket 8 0 1)
    ∧ (bucket 8 0 1).live = true ∧ ((bucket 8 0 1).rake value).stripeFinal 0 = false ∧ ((bucket 1 0 0).rake value).root = false
    ∧ (let o := (bucket 1 0 1).rake value
       o.root = true ∧ o.stripeFinal 0 = true ∧ o.covered 0 = o.total)
    ∧ (let o := ({ bucket 1 0 1 with par := (bucket 1 0 1).par + BitVec.ofNat 320 (2 ^ 190) } : Op).rake value
       o.root = true ∧ o.stripeFinal 0 = true ∧ o.covered 0 ≠ o.total) := by decide +kernel

/-- A record of stripe 0 of 16 elements, from the one child of a bucket. -/
def child (a : Int) : XpRec := { stripe256 with stripe := 0, anchor := a }
theorem test_witness_xp :
    let o := bucket 16 1 1
    let s := wo o
    let p := pk ptXp 0 (xpBytes (child 0))
    let r := xpParse p.payload
    (s.taken p).findOp (pget p Ph.job) (pget p Ph.tag) = some o ∧ o.matchesNotice p = true ∧ r.stripe < o.nstripes
    ∧ r.nelem = o.stripeLen r.stripe ∧ xpResOk r = true ∧ r.anchor = o.anchor ∧ (o.stripe r.stripe).records < o.children
    ∧ o.covered r.stripe + r.ncontrib ≤ 1048576 ∧ (xpParse (xpBytes (child 1))).anchor ≠ o.anchor
    ∧ o.nstripes ≤ (xpParse (xpBytes stripe256)).stripe ∧ s.spoiled p = false ∧ p.aborted = false
    ∧ (rd.taken p).findOp 0 0 = none ∧ o.live = true ∧ o.isRed = true ∧ o.epoch = pget p Ph.epoch
    ∧ (let q := pk ptXp (2 ^ 96) (xpBytes (child 0))
       o.epoch = pget q Ph.epoch ∧ o.matchesNotice q = false ∧ (s.taken q).findOp (pget q Ph.job) (pget q Ph.tag) = some o)
    ∧ xpResOk (xpParse (xpBytes { child 0 with res := 1 })) = false
    ∧ (let f := o.setStripe 0 { Stripe.fresh with records := 1 }
       f.children ≤ (f.stripe 0).records) := by decide +kernel

/-- A chunk whose one stripe has all its values: at the root with the right total, with a wrong one, and below it. -/
def full (r : Nat) : Op := (bucket 1 0 r).setStripe 0 { Stripe.fresh with added := 1 }
theorem test_witness_chunks :
    (wo (full 1)).findOp 0 0 = some (full 1) ∧ 0 < (full 1).nchunks ∧ (full 1).chunkFinal 0 = true ∧ (full 1).finalChunks.contains 0 = false ∧ (full 1).root = true ∧ (full 1).isRed = true ∧ (full 1).live = true
    ∧ ((full 1).chunkStripes 0).any (fun k => (full 1).covered k != (full 1).total) = false ∧ (full 1).unopened = false
    ∧ (let o : Op := { full 1 with par := (full 1).par + BitVec.ofNat 320 (2 ^ 190) }
       (o.chunkStripes 0).any (fun k => o.covered k != o.total) = true ∧ o.root = true ∧ o.chunkFinal 0 = true)
    ∧ ({ full 1 with unopened := true } : Op).chunkFinal 0 = true ∧ ((wo (full 1)).readout (full 1) 0).findOp 0 0 ≠ none
    ∧ (full 0).root = false ∧ (full 0).chunkFinal 0 = true ∧ ({ full 0 with finalChunks := [0] }).maySend 0 = true := by decide +kernel

theorem test_witness_ends :
    (bucket 1 0 1).root = true ∧ ({ bucket 1 0 1 with finalChunks := [0] }).finalChunks.length = (bucket 1 0 1).nchunks
    ∧ (bucket 1 0 0).root = false ∧ ({ bucket 1 0 0 with sentChunks := [0] }).sentChunks.length = (bucket 1 0 0).nchunks
    ∧ (let s := wo { bucket 1 0 0 with sentChunks := [0] }
       (s.resultsOwed { bucket 1 0 0 with sentChunks := [0] }).1 ≤ 0 ∧ (s.resultsOwed { bucket 1 0 0 with sentChunks := [0] }).2 ≤ 0)
    ∧ (bucket 1 0 1).deadline = some 0 ∧ 0 ≤ rd.now ∧ (wo (bucket 1 0 1)).isOwed (bucket 1 0 1) = true
    ∧ (let o : Op := { bucket 1 0 0 with sentChunks := [0], dst := [0] }
       ¬((wo o).resultsOwed o).1 ≤ o.delivered) := by decide +kernel

theorem test_witness_notices :
    let o := bucket 1 0 0
    let s := wo o
    let p := pk ptResult (2 ^ 5) (List.replicate 32 0)
    let c (k : Nat) := pk ptControl (k * 2 ^ 184) (List.replicate 32 0)
    pget p Ph.type = ptResult ∧ (s.taken p).matchOp p = some o ∧ pget p Ph.mcast = 1 ∧ pget (c 3) Ph.type = ptControl ∧ pget (c 3) Ph.subtype = 3
    ∧ (s.taken (c 0)).matchOp (c 0) = some o ∧ pkgOf (c 0) = o.parent ∧ o.isRed = true ∧ pget (c 2) Ph.subtype = 2
    ∧ (s.taken (c 2)).resultOp (c 2) = some o ∧ o.matchesNotice (c 2) = true ∧ (rd.taken (c 2)).resultOp (c 2) = none
    ∧ ((s.taken (c 2)).job 0).record (pget (c 2) Ph.tensor) = none ∧ (rd.taken (c 3)).matchOp (c 3) = none
    ∧ (s.taken (c 3)).matchOp (c 3) = some o ∧ s.spoiled p = false ∧ p.aborted = false
    ∧ (s.taken p).destIsDst { o with dst := [0] } p = true ∧ s.spoiled { p with bad := true } = true := by decide +kernel

/-- Every row that brings a packet to an engine, with a packet of its kind. -/
theorem test_witness_arrivals :
    ([pk ptXp 0 [], pk ptResult 0 []] ++ (List.range 9).map (fun k => pk ptControl (k * 2 ^ 184) [])
      ++ [pk ptData (dsPark * 2 ^ 156) [], pk ptData (dsImage * 2 ^ 156) []]).zipIdx.all
      (fun x => ((arrivals rd 0 x.1).getD x.2 (.tick, false)).2) = true := by decide +kernel

def gather : Op := op 0x05 (2 * 2 ^ 84)
def shift8 : Op := op 0x06 (8 * 2 ^ 20)
/-- PERMUTE of one expert with rows of 4 B whose sender 0 counts one row, over two members; `got` bytes of counts have come from each. -/
def rows (src : List Nat) (got : Nat) : Op :=
  { op 0x07 (2 ^ 20 + 4 * 2 ^ 36 + 2 ^ 52) with
    src := src, counts := [(0, [1, 0, 0, 0]), (1, [0, 0, 0, 0])], countGot := if got = 0 then [] else [(0, got), (1, got)] }
theorem test_witness_data :
    let p := pk ptData (dsShift * 2 ^ 156) (List.replicate 8 0)
    let g := pk ptData (dsAllgather * 2 ^ 156) (List.replicate 4 0)
    isData p dsShift = true ∧ ((wo shift8).taken p).findOp 0 0 = some shift8 ∧ shift8.epoch = pget p Ph.epoch ∧ shift8.live = true
    ∧ (wo shift8).spoiled p = false
    ∧ ((wo shift8).taken p).fromSender shift8 0 p = true ∧ ((wo shift8).taken p).fromSender shift8 1 p = false
    ∧ ((wo shift8).taken p).entryBit 0 p = 0 ∧ shift8.portSent 0 + p.payload.length ≤ ((wo shift8).taken p).portOwes shift8 0
    ∧ shift8.unopened = false ∧ (shift8.shiftTarget 0).bind (layoutCoord (((wo shift8).job 0).layout 0)) = some 0
    ∧ (let o := { op 0x06 (8 * 2 ^ 20 + 2 ^ 61) with members := 2 }
       (o.shiftTarget 0).bind (layoutCoord (((wo o).job 0).layout 0)) = none)
    ∧ (let o : Op := { shift8 with accepted := [(0, 1)] }
       ((wo o).taken p).portOwes o 0 < o.portSent 0 + p.payload.length)
    ∧ isData g dsAllgather = true ∧ ((wo gather).taken g).fromSender gather 0 g = true ∧ gather.opcode = 0x05
    ∧ (let n := contribSplit (gather.p 124 4) (shareOf 2 2 0).2 0 (elemCount 0 g.payload)
       n.2 = 0 ∧ gather.portSent 0 + n.1 ≤ ((wo gather).taken g).portOwes gather 0
       ∧ ((wo gather).taken g).portOwes gather 0 < ({ gather with accepted := [(0, 1)] }).portSent 0 + n.1)
    ∧ (contribSplit 0 (shareOf 2 2 0).2 0 (elemCount 0 (List.replicate 8 0))).2 ≠ 0
    ∧ ((wo gather).taken g).fromSender gather 1 g = false := by decide +kernel

theorem test_witness_permute :
    let p (k : Nat) := pk ptData (k * 2 ^ 156) (List.replicate 4 0)
    let c := pk ptControl (2 ^ 184) []
    isData (p dsCounts) dsCounts = true ∧ isData (p dsRows) dsRows = true
    ∧ ((wo (rows [] 0)).taken (p dsCounts)).findOp 0 0 = some (rows [] 0) ∧ (rows [] 0).src.contains 0 = false
    ∧ pget (p dsCounts) Ph.sender < (rows [] 0).members ∧ (rows [0] 0).src.contains 0 = true
    ∧ ((wo (rows [0] 0)).taken (p dsCounts)).fromSender (rows [0] 0) 0 (p dsCounts) = true
    ∧ (let q := pk ptData (dsRows * 2 ^ 156 + 5 * 2 ^ 32) (List.replicate 4 0)
       let s := wo { rows [] 4 with ready2 := false }
       (s.taken q).fromSender (rows [] 4) 5 q = false ∧ (s.taken q).fromPart 5 q = true ∧ s.rowsWait 5 q = true
       ∧ (wo (rows [] 4)).rowsWait 5 q = false)
    ∧ ((wo (rows [0] 4)).taken (p dsRows)).entryBit 0 (p dsRows) = 0 ∧ (wo (rows [0] 4)).rowsWait 0 (p dsRows) = false
    ∧ ((wo (rows [] 0)).taken (p dsCounts)).fromPart 0 (p dsCounts) = false
    ∧ (rows [0] 4).ready2 = true ∧ ({ rows [0] 4 with ready2 := false } : Op).ready2 = false ∧ (rows [0] 4).unopened = false
    ∧ (rows [0] 4).portSent 0 + 4 ≤ ((wo (rows [0] 4)).taken (p dsRows)).portOwes (rows [0] 4) 0
    ∧ (let o : Op := { rows [0] 4 with accepted := [(0, 5)] }
       ((wo o).taken (p dsRows)).portOwes o 0 < o.portSent 0 + 4)
    ∧ (rows [] 4).countBytes < tget 0 (rows [] 4).countGot 0 + (p dsCounts).payload.length
    ∧ isControl c 1 = true ∧ ((wo (rows [] 0)).taken c).matchOp c = some (rows [] 0) ∧ rd.spoiled c = false ∧ c.aborted = false := by
  decide +kernel

/-! ## NORM, STEP, PUBLISH, cold frames, images and programs -/

/-- A weight tensor 0 with a shard of 8 elements, and its gradients of generation 0. -/
def rec8 : Rec := bset T.covered (bset T.shardLen (0 : Rec) 8) 8
def grads : Held := ⟨0, 0, 0, 8, 0, 0, false, 0, [], [], none, 0, false⟩
def wr (r : Rec) (l : List NormRes) : State :=
  { rd.modJob 0 (fun b => { b with records := [(0, r)], norms := l, maxima := [⟨0, 0, 0, [0], some 0, false, true⟩] }) with held := [grads] }
def nm (flags : BitVec 8) : NormRes := ⟨0, 1, 0, 0, 0, flags, 8, 0, none⟩
def nrun : NormRun := ⟨0, 0, 0, 0, 1, 0, [1], 2, 0, some 0, 8, 0, true, 0, Slot.empty, 8, 0⟩
def oneRec : Bytes := xpBytes { stripe256 with stripe := 0, nelem := 1, slots := [Slot.empty], firstFlag := 0, res := 0 }
theorem test_witness_norms :
    let x := cx 0x08 (2 ^ 24) .free
    let s := wr rec8 []
    x.opcode = 0x08 ∧ s.ringJob 0 = 0 ∧ s.normCheck 0 (x.p 0 24) (x.p 24 24) (x.p 48 48) = none
    ∧ (s.gradsOf 0 (x.p 48 48) ((s.job 0).working (x.p 0 24) (x.p 24 24))).all (fun h => !s.lostGrad h) = true
    ∧ (rd.fset Reg.service F.service_seedling 1).normCheck 0 0 1 0 = some stSeedling
    ∧ (let p (k : Nat) := pk ptControl (k * 2 ^ 184) oneRec
       pget (p 4) Ph.subtype = 4 ∧ pget (p 5) Ph.subtype = 5 ∧ pget (p 4) Ph.type = ptControl ∧ (xpParse (p 5).payload).stripe = 0
       ∧ (xpParse (p 5).payload).nelem = 1 ∧ xpResOk (xpParse (p 5).payload) = true)
    ∧ (let p := pk ptControl (4 * 2 ^ 184) (List.replicate 16 0)
       let u : State := { rd with norms := [{ nrun with peers := [0], second := false }] }
       let m : NormMsg := ⟨0, 0, 0, false, 0, 0, 0, Slot.empty⟩
       let t := (u.taken p).normTake p m
       let began (s : State) := ((s.taken p).normRuns p).filter
         (fun x => !x.second && !(((s.taken p).normTake p m).norms.any (fun y => y.ring == x.ring && y.idx == x.idx && !y.second)))
       t.norms.length = 1 ∧ began rd = [] ∧ (began u).length = 1 ∧ rd.spoiled p = false ∧ p.aborted = false
       ∧ isControl p 4 = true ∧ isControl (pk ptControl (5 * 2 ^ 184) oneRec) 5 = true
       ∧ xpResOk (xpParse (xpBytes { stripe256 with stripe := 0, nelem := 1, slots := [Slot.empty], firstFlag := 0, res := 1 })) = false
       ∧ (xpParse (xpBytes { stripe256 with stripe := 0, nelem := 1, slots := [Slot.empty], firstFlag := 0, res := 1 })).stripe = 0
       ∧ (xpParse (xpBytes { stripe256 with stripe := 0, nelem := 1, slots := [Slot.empty], firstFlag := 0, res := 1 })).nelem = 1)
    ∧ (nrun.msgs (({ rd with norms := [nrun] } : State).job 0) false).length < nrun.owners - 1 ∧ 0 ≤ rd.now := by decide +kernel

/-- A factored tensor of 4 rows and 4 columns over two owners, of which the part holds the first two rows. -/
def recF : Rec :=
  [(T.nelem, 16), (T.cols, 4), (T.owners, 2), (T.shardLen, 8), (T.covered, 8), (T.genStep, 1)].foldl (fun r e => bset e.1 r e.2) (0 : Rec)
def wf2 : State := (wr recF [nm 0]).modJob 0 (fun b => { b with groups := [(0, bset G.prog (0 : BitVec 1024) 3)] })
theorem test_witness_steps :
    let x := cx 0x09 (2 ^ 24) .free
    let s (f : BitVec 8) := wr (bset T.genStep rec8 1) [nm f]
    (wr rec8 []).shardBusy x = false ∧ (cx 0x09 0 .run).phase = .run
    ∧ (wr rec8 []).stepCheck x = some stNoNorm
    ∧ (s 0).stepCheck x = none ∧ ((s 0).job 0).normFor (x.p 48 48) (((s 0).job 0).withShard (x.p 0 24) (x.p 24 24)) = some (nm 0)
    ∧ ((nm 1).flags &&& 0x1F ≠ 0 ∧ (cx 0x09 (2 ^ 24 + 2 ^ 193) .free).p 192 2 = 2 ∧ x.p 192 2 = 0)
    ∧ (s 1).stepReady 0 0 (((s 1).job 0).toStep 0 1 0) = true ∧ (s 0).stepReady 0 0 (((s 0).job 0).toStep 0 1 0) = true
    ∧ ((s 1).modJob 0 (fun b => { b with maxima := [] })).stepCheck x = none
    ∧ ((s 1).modJob 0 (fun b => { b with maxima := [] })).stepReady 0 0 (((s 1).job 0).toStep 0 1 0) = false
    ∧ ((nm 0).flags &&& 0x1F = 0
      ∧ (((s 0).job 0).toStep 0 1 0).filter (fun e => (((s 0).job 0).keeps e.2).2.2 && decide (1 < bget T.owners e.2)) = [])
    ∧ wf2.stepCheck x = none ∧ wf2.stepReady 0 0 ((wf2.job 0).toStep 0 1 0) = true
    ∧ (let u := wf2.modCtx x.ref (Ctx.start wf2.now)
       let crossing := ((wf2.job 0).toStep 0 1 0).filter (fun e => ((wf2.job 0).keeps e.2).2.2 && decide (1 < bget T.owners e.2))
       let v := u.each crossing (State.sendStats x (nm 0))
       let w := v.each (crossing.filter (fun e => !v.needsStats 0 0 e)) (State.sendRows x (nm 0))
       crossing.length = 1 ∧ crossing.any (fun e => w.needsStats 0 0 e || w.needsRows 0 0 e) = true)
    ∧ (let p (k : Nat) (b : Bytes) := pk ptControl (8 * 2 ^ 184 + k * 2 ^ 168) b
       isControl (p 0 []) 8 = true ∧ pget (p 2 []) Ph.tseq = 2 ∧ pget (p 0 []) Ph.tseq ≠ 2 ∧ rd.spoiled (p 0 []) = false ∧ (p 0 []).aborted = false
       ∧ xpResOk (xpParse (p 0 oneRec).payload) = true ∧ xpResOk (xpParse (p 0 (List.replicate 2000 255)).payload) = false) := by decide +kernel

theorem test_witness_publishing :
    let x := cx 0x0A (2 ^ 24 + 2 ^ 108) .free
    let s := wr rec8 []
    x.p 108 4 ≠ 0xF ∧ (cx 0x0A (15 * 2 ^ 108) .free).p 108 4 = 0xF
    ∧ ¬(x.p 112 1 = 0 ∧ badTarget (x.p 108 4) = true) ∧ x.p 113 2 ≠ 3 ∧ s.seedling = false ∧ s.shardBusy x = false
    ∧ ((s.job 0).published x).any (fun e => badTarget (pubTarget x e.2)) = false ∧ ((s.job 0).published x).any (fun e => stepBelow e.2 5) = true ∧ (s.job 0).published x ≠ []
    ∧ (cx 0x0A 0 .run).phase = .run ∧ (cx 0x0A 0 .run).begun = false
    ∧ (rd.fset Reg.service F.service_seedling 1).seedling = true
    ∧ (let p (k : Nat) := pk ptControl (k * 2 ^ 184) (List.replicate 9 0)
       isControl (p 6) 6 = true ∧ isControl (p 7) 7 = true ∧ (rd.job 0).record (pget (p 7) Ph.tensor) = none ∧ (s.job 0).record (pget (p 7) Ph.tensor) = some rec8
       ∧ bflag T.scaleOnly rec8 = false ∧ bget T.shardBase rec8 ≤ nbits (numAt (p 7).payload 0 7) 0 40 / 32 * 32
       ∧ nbits (numAt (p 7).payload 0 7) 0 40 / 32 * 32 < bget T.shardBase rec8 + bget T.shardLen rec8) := by decide +kernel

/-- A parked buffer of two FP32 elements of a PARK of a ring. -/
def park8 (ring got : Nat) (done : Bool) : Handle := ⟨0, ring, 0, 0, 0, 2, 8, 1, 0, [], got, done, done⟩
def ch (op : Nat) (h : Handle) : State := (wc op 0 .free).modJob 0 (fun b => { b with handles := [h] })
theorem test_witness_park :
    let x := cx 0x0B (2 ^ 32) .free
    ¬(x.p 95 4 = 0xF ∨ x.p 99 4 = 0xF ∨ x.p 103 2 = 3) ∧ rd.seedling = false ∧ (cx 0x0B (15 * 2 ^ 95) .free).p 95 4 = 0xF
    ∧ (rd.job 0).handle (x.p 0 32) = none ∧ (((ch 0x0B (park8 0 8 true)).job 0).handle (x.p 0 32)).isSome = true
    ∧ x.p 32 40 ≠ 0 ∧ (cx 0x0B 0 .free).p 32 40 = 0 ∧ rd.parkPages (rd.job 0) (max (parkBytes x) (x.p 32 40)) = some (1, 0)
    ∧ rd.parkPages { rd.job 0 with entry := 0 } (max (parkBytes x) (x.p 32 40)) = none
    ∧ (let p := pk ptData (dsPark * 2 ^ 156) [1, 2, 3, 4]
       isData p dsPark = true ∧ rd.spoiled p = false ∧ p.aborted = false
       ∧ ((ch 0x0B (park8 0 4 false)).job 0).handles.find? (fun h => !h.done && h.source == pget p Ph.src && decide (0 + 4 ≤ h.bytes))
         = some (park8 0 4 false)
       ∧ ((ch 0x0B (park8 0 4 false)).taken p).ctx ⟨0, 0⟩ = some (cx 0x0B 0 .free)
       ∧ (park8 0 4 false).bytes ≤ (park8 0 4 false).got + 4 ∧ ¬(park8 0 0 false).bytes ≤ (park8 0 0 false).got + 4) := by decide +kernel

theorem test_witness_fetch :
    let y := cx 0x0C (2 ^ 72) .free
    ¬(y.p 135 4 = 0xF ∨ y.p 139 2 = 3) ∧ (cx 0x0C (3 * 2 ^ 139) .free).p 139 2 = 3 ∧ y.p 142 1 = 0
    ∧ ¬(y.p 143 1 = 1 ∧ rd.handleInRun 0 (y.p 0 32) = true) ∧ (cx 0x0C (2 ^ 143) .free).p 143 1 = 1 ∧ (vs (pr true [] th)).handleInRun 0 0 = true
    ∧ rd.handleThere 0 (y.p 0 32) = none ∧ (ch 0x0C (park8 1 8 true)).handleThere 0 (y.p 0 32) = some (park8 1 8 true)
    ∧ y.p 32 40 < (park8 1 8 true).elems ∧ y.p 32 40 + 1 ≤ (park8 1 8 true).elems ∧ y.p 72 40 = 1
    ∧ (park8 1 8 true).elems ≤ (cx 0x0C (2 ^ 33) .free).p 32 40 ∧ (rangeFrom 0 1).any (fun i => rd.lostElem 6 0 0 i) = false := by decide +kernel

/-- Every element of one sector is lost: the sector in which the model's free placement puts the element. -/
theorem test_witness_lost (a : Nat) :
    ({ rd with shed := { rd.shed with lost := [(Config.sectorOf 6 0 a 0 / 8, 255)] } } : State).lostElem 6 0 a 0 = true := by
  have h : ∀ k < 8, 255 / 2 ^ k % 2 = 1 := by decide
  have hk := h (Config.sectorOf 6 0 a 0 % 8) (Nat.mod_lt _ (by decide))
  simp [State.lostElem, State.anyLost, State.lostSector, tget, hk]

def run8 (got : Nat) : RestoreRun := ⟨0, 0, 0, 0, 0, 8, [], got⟩
theorem test_witness_images :
    (cx 0x0D 0 .free).p 48 2 ≠ 3 ∧ rd.shardBusy (cx 0x0D 0 .free) = false ∧ (cx 0x0D 0 .free).p 50 1 = 0 ∧ (cx 0x0D (2 ^ 50) .free).p 50 1 = 1 ∧ (cx 0x0D 0 .run).opcode = 0x0D
    ∧ rd.linkUp (rd.ringCard 0) = true ∧ on.linkUp (on.ringCard 0) = false ∧ (cx 0x0E (2 ^ 51) .free).p 139 40 = 0 ∧ (cx 0x0E (2 ^ 51 + 2 ^ 139) .free).p 139 40 ≠ 0
    ∧ (cx 0x0E 0 .free).p 51 1 = 0 ∧ (cx 0x0E (2 ^ 51) .free).p 51 1 = 1 ∧ (cx 0x0E 0 .free).p 48 2 ≠ 3 ∧ rd.shardBusy (cx 0x0E 0 .free) = false
    ∧ (let p := pk ptData (dsImage * 2 ^ 156) [1, 2, 3, 4]
       let s (got : Nat) : State := { wc 0x0E 0 .run with restores := [run8 got] }
       isData p dsImage = true ∧ (∀ got, got = 0 ∨ got = 4 →
         (s got).restores.find? (fun r => r.job == pget p Ph.job && r.coord == pget p Ph.src && decide (r.base ≤ 0 ∧ 0 + 4 ≤ r.base + r.len)) = some (run8 got)
         ∧ (s got).ctx ⟨0, 0⟩ = some (cx 0x0E 0 .run)) ∧ (run8 0).got + 4 < (run8 0).len ∧ (run8 4).len ≤ (run8 4).got + 4) := by
  repeat' apply And.intro
  all_goals first
    | decide +kernel
    | (intro got h; rcases h with rfl | rfl <;> decide +kernel)

/-- A block of an own program of 4 B and one thread, for any number of beds, and its command of 2 units. -/
def block : Bytes := leBytes 64 (1 + 2 ^ 32 + 4 * 2 ^ 128) ++ List.replicate 64 0
def sieveCx (ph : Phase) : Ctx := cx 0x0F (2 * 2 ^ 128 + 2 ^ 137) ph
theorem test_witness_sieve_checks :
    (sieveCx .free).opcode = 0x0F ∧ (sieveCx .free).p 128 5 = 2 ∧ (sieveCx .free).p 137 1 = 1 ∧ rd.sieveCheck (sieveCx .free) block = none
    ∧ rd.sieveCheck (sieveCx .free) (List.replicate 128 0) = some stBadField := by decide +kernel

/-- A balanced and a deterministic run in the queue, the latter on a package of too few beds, and a library program. -/
def queued (s : State) (par : Nat) : State :=
  { s with host := { s.host with ctxs := [cx 0x0F par .queued] }, sieves := [⟨0, 0, block, some 0, []⟩] }
theorem test_witness_programs :
    let req : SieveReq := ⟨0, 0, block, some 0, []⟩
    (let s := queued rd (2 * 2 ^ 128 + 2 ^ 137)
     let x := sieveCx .queued
     s.ctx ⟨0, 0⟩ = some x ∧ s.sieveOf ⟨0, 0⟩ = some req ∧ s.vy = none ∧ s.firstSieve x req = true ∧ x.p 137 1 = 1
     ∧ s.linkUp (s.ringCard 0) = true ∧ s.sieveBlocked x (pbBufs block) = false)
    ∧ (let s := queued rd (2 * 2 ^ 128)
       let x := cx 0x0F (2 * 2 ^ 128) .queued
       x.p 137 1 = 0 ∧ 128 ≤ s.bedsActive.length ∧ 128 ≤ s.bedsIn.length ∧ s.firstSieve x req = true)
    ∧ (let s := queued lone (2 * 2 ^ 128)
       let x := cx 0x0F (2 * 2 ^ 128) .queued
       s.ctx ⟨0, 0⟩ = some x ∧ s.bedsActive.length < 128 ∧ s.firstSieve x req = true)
    ∧ rd.linkUp (rd.ringCard 0) = true ∧ on.linkUp (on.ringCard 0) = false
    ∧ (let p : VyProg := { pr true [] th with lib := 2 }
       p.lib ≠ 0 ∧ 0 < p.ntiles ∧ 0 < p.threads ∧ p.bufs.any (fun b => b.kind == 0 && b.writable) = false ∧ (vs p).libraryLost p = none) := by
  decide +kernel

theorem test_witness_program_deadline :
    (pr false [] th).deadline = some 0 ∧ 0 ≤ (vs (pr false [] th)).now ∧ (pr false [] th).countAll isHalt ≠ (pr false [] th).total := by decide +kernel

theorem test_witness_jobs :
    let b (st : Nat) : State := rd.modJob 5 (fun b => b.put J.state st)
    rd.owns .host0 5 = true ∧ (rd.job 5).get J.state = jobFree ∧ ((b jobRefused).job 5).get J.state = jobRefused
    ∧ (rd.job 5).get J.eventBase + (rd.job 5).get J.eventCount ≤ eventTotal ∧ rd.eventsTaken 5 0 0 = false
    ∧ (let s := (b jobFree).modJob 5 (fun b => (b.put J.eventBase (eventTotal - 1)).put J.eventCount 2)
       eventTotal < (s.job 5).get J.eventBase + (s.job 5).get J.eventCount)
    ∧ ((b jobActive).job 5).get J.state = jobActive ∧ ((b jobEnding).job 5).get J.state = jobEnding ∧ (b jobEnding).jobCtxs 5 = [] := by
  decide +kernel

/-- One run of two members, the ports 0 and 1 of package 0. -/
theorem test_witness_layouts :
    let s := rd.rset (Reg.layoutRun 0) (bset F.layoutRun_count (0 : Word64) 2)
    s.commitCheck .host0 0 0 1 = none ∧ s.commitCheck .host0 0 0 0 = some 1 ∧ s.commitCheck .host0 9 0 1 = some 3
    ∧ s.owns .host1 0 = false := by decide +kernel

/-! ## Power, time and resources -/

theorem test_witness_power :
    ({ rd with pwr := { rd.pwr with porLow := true, standby := true } } : State).pwr.porLow = true
    ∧ bget F.partReset_value (bset F.partReset_value (0 : Word32) 0x5EED) = 0x5EED ∧ bget F.partReset_value (0 : Word32) ≠ 0x5EED
    ∧ rd.grafted = false ∧ rd.shedUp = true ∧ rd.pwr.locked = true ∧ ({ rd with pwr := { rd.pwr with stopped := .clock } } : State).shedUp = true
    ∧ (let g := rd.fset Reg.partId F.partId_grafted 1
       g.grafted = true ∧ masterCard .host0 = g.pkgNo ∧ masterCard .host1 ≠ g.pkgNo) ∧ 10 * 0 < 9 * railNominal.getD 8 0 ∧ 9 * railNominal.getD 8 0 ≤ 10 * 5000
    ∧ State.reset.up = true ∧ State.reset.pwr.locked = false ∧ on.bootState = bsRom ∧ ({ on with nv := { on.nv with flashMarker := false } } : State).imageValid = false ∧ on.pwr.wiped = false
    ∧ (let s := ((rd.fset Reg.service F.service_seedling 1).fset Reg.service F.service_initDone 1)
       s.seedling = true ∧ s.flag Reg.service F.service_initDone = true ∧ s.flag Reg.service F.service_storeReady = true
       ∧ (List.range 128).all s.portFull = true)
    ∧ rd.flag Reg.service F.service_initDone = false
    ∧ rd.fget Reg.lifecycleReg F.lifecycleReg_state = 2
    ∧ (rd.fset Reg.lifecycleReg F.lifecycleReg_state 0).fget Reg.lifecycleReg F.lifecycleReg_state = 0 := by decide +kernel

/-- A follower of port 5, and of the Graft. -/
def fol : State := (rd.fset Reg.timeCtrl F.timeCtrl_role 2).fset Reg.timeCtrl F.timeCtrl_upport 5
theorem test_witness_time :
    rd.owns .host0 rd.resTimeOwn = true ∧ rd.role ≠ 2 ∧ rd.quiet = true ∧ fol.role = 2 ∧ rd.host.relNow = false
    ∧ (let s : State := { rd with host := { rd.host with relNow := true } }
       s.role ≠ 2 ∧ s.quiet = true ∧ s.host.relNow = true)
    ∧ rd.grafted = false ∧ rd.role = bget F.timeCtrl_role (0 : Word32) % 3
    ∧ (rd.fset Reg.timeCtrl F.timeCtrl_holdStep 1).quiet = false
    ∧ (let g := (rd.fset Reg.partId F.partId_grafted 1).fset Reg.partId F.partId_package 1
       g.flag Reg.partId F.partId_grafted = true ∧ g.pkgNo = 1 ∧ g.owns .host0 g.resTimeOwn = true)
    ∧ (let s : State := { fol.fset Reg.timeStatus F.timeStatus_state tsAcquire with time := { TimeSt.zero with stepWant := some 7 } }
       s.time.stepWant = some 7 ∧ s.role = 2 ∧ s.timeState = tsAcquire ∧ s.quiet = true ∧ s.host.relNow = false
       ∧ ({ s with host := { s.host with relNow := true } } : State).host.relNow = true)
    ∧ fol.time.exchWait = 0 ∧ ({ fol.time with exchWait := 1 } : TimeSt).exchWait ≠ 0 ∧ fol.upLinks.find? fol.linkOpen = none
    ∧ (let s := fol.fset (Reg.portStatus 5) F.portStatus_state psActive
       s.upLinks.find? s.linkOpen = some 5 ∧ s.linkOpen 5 = true ∧ s.upLinks.contains 5 = true ∧ timeField [] 0 1 = 0)
    ∧ (let u := (fol.fset Reg.timeCtrl F.timeCtrl_upGraft 1).fset Reg.partId F.partId_grafted 1
       let s := u.fset Reg.graftStatus ⟨11, 1⟩ 1
       s.upLinks.find? s.linkOpen = some 131 ∧ s.linkOpen 131 = true)
    ∧ (let s : State := { fol with time := { fol.time with exchange := some 24, answered := false } }
       s.time.exchange = some 24 ∧ s.time.answered = false ∧ s.upLinks.contains 5 = true)
    ∧ (let a := timePayload true false 2 0 24 0 0
       timeField a 0 1 = 1 ∧ timeField a 23 67 = 24 % 2 ^ 67 ∧ timeField a 1 1 = 0 ∧ timeField a 2 5 ≠ 31)
    ∧ fol.timeState ≠ tsLocked ∧ ((fol.fset Reg.timeStatus F.timeStatus_state tsLocked).takeSample 0 0).timeState = tsLocked
    ∧ (fol.takeSample 0 0).timeState ≠ tsLocked
    ∧ (let a := timePayload true true 0 0 24 0 0
       timeField a 0 1 = 1 ∧ timeField a 23 67 = 24 % 2 ^ 67 ∧ timeField a 1 1 = 1) := by decide +kernel

theorem test_witness_resources :
    bflag F.tickOutCtrl_enable (bset F.tickOutCtrl_enable (0 : Word32) 1) = true ∧ rd.resCanTake rePin ruTickOut = true
    ∧ (rd.fset (Reg.resOwner rePin) F.resOwner_user ruDebug).resCanTake rePin ruTickOut = false
    ∧ rd.gateOpen = true ∧ (rd.fset Reg.expertGate F.expertGate_open 0).gateOpen = false
    ∧ bflag F.dbgClkCtrl_enable (bset F.dbgClkCtrl_enable (0 : Word32) 1) = true ∧ rd.resCanTake rePin ruDebug = true
    ∧ (rd.fset (Reg.resOwner rePin) F.resOwner_user ruTickOut).resCanTake rePin ruDebug = false
    ∧ bflag F.tickOutCtrl_enable (0 : Word32) = false ∧ bflag F.dbgClkCtrl_enable (0 : Word32) = false
    ∧ (rd.fset (Reg.resOwner rePin) F.resOwner_user ruTickOut).resUser rePin = ruTickOut
    ∧ (rd.fset (Reg.resOwner rePin) F.resOwner_user ruDebug).resUser rePin = ruDebug := by decide +kernel

theorem test_witness_mirrors :
    rd.owns .host0 resFabric = true ∧ rd.flag (Reg.mirCtrl 7) F.mirCtrl_enable = false
    ∧ (rd.fset (Reg.mirCtrl 7) F.mirCtrl_enable 1).flag (Reg.mirCtrl 7) F.mirCtrl_enable = true
    ∧ (rd.mirrorFields 7 0).resCanTake 0 (ruMirror 7) = true
    ∧ ((rd.fset (Reg.resOwner 0) F.resOwner_user 1).mirrorFields 7 0).resCanTake 0 (ruMirror 7) = false
    ∧ ptrDiff (rd.fget (Reg.mirTail 7) F.mirTail_value) 0 ≤ rd.mirrorSize 7
    ∧ rd.mirrorSize 7 < ptrDiff (rd.fget (Reg.mirTail 7) F.mirTail_value) (2 ^ 31)
    ∧ (let v := bset F.telemCtrl_enable (0 : Word32) 1
       bflag F.telemCtrl_enable v = true ∧ rd.flag Reg.telemCtrl F.telemCtrl_enable = false ∧ rd.resCanTake 0 ruTelemetry = true
       ∧ rd.resCanTake 1 ruTelemetry = true ∧ bflag F.telemCtrl_enable (0 : Word32) = false
       ∧ (rd.fset Reg.telemCtrl F.telemCtrl_enable 1).flag Reg.telemCtrl F.telemCtrl_enable = true
       ∧ (rd.fset (Reg.resOwner 1) F.resOwner_user 1 |>.fset (Reg.resOwner 1) F.resOwner_user ruDebug).resCanTake 1 ruTelemetry = false) := by
  decide +kernel

/-- A congestion map that waits to go out, with a free buffer and without one, and the three uses for which a buffer is waited for. -/
theorem test_witness_pools :
    let s (n : Nat) := (List.range 4).foldl (fun s d => s.setPoolFree d 4 n) ({ rd with xb := { rd.xb with telemDone := [Telem.zero] } } : State)
    let w (u : PoolUse) (n : Nat) : State := ({ rd with xb := { rd.xb with poolWait := [⟨3, 5, u⟩] } } : State).setPoolFree 3 5 n
    (s 0).xb.telemDone = Telem.zero :: [] ∧ (List.range 4).all (fun d => (s 0).poolFree d 4 == 0) = true
    ∧ (List.range 4).all (fun d => (s 1).poolFree d 4 == 0) = false ∧ Telem.zero.seq < 2 ^ 32 ∧ (s 1).poolFree 0 4 ≠ 0
    ∧ ([PoolUse.map 0 [], .record 0 [], .packet (pk 0 0 [1]) 1].all (fun u =>
        (w u 1).xb.poolWait.find? (fun w => w.die == 3 && w.pool == 5) == some ⟨3, 5, u⟩
        && decide (u.need 5 ≤ (w u 1).poolFree 3 5) && decide ((w u 0).poolFree 3 5 < u.need 5)) = true) := by decide +kernel

/-! ## Ports, flits, pairing and packets -/

/-- Port 127 in a stage, over one lane. -/
def ps (stage : Nat) : State := (rd.fset (Reg.portStatus 127) F.portStatus_state stage).fset (Reg.portCtrl 127) F.portCtrl_enable 1
theorem test_witness_port_control :
    rd.owns .host0 rd.portsOwn = true ∧ rd.runnerOk = true ∧ rd.portOn 127 = false
    ∧ (rd.fset (Reg.portCtrl 127) F.portCtrl_enable 1).enableRefusal 127 = none
    ∧ ((rd.fset (Reg.portGroup 127) F.portGroup_firstLane 1).fset (Reg.portGroup 127) F.portGroup_width 1 |>.fset (Reg.portCtrl 127)
        F.portCtrl_enable 1).enableRefusal 127 = some 1
    ∧ (ps psActive).portOn 127 = true ∧ (ps psActive).portState 127 = psActive
    ∧ (ps psActive).flag (Reg.portStatus 127) F.portStatus_fullRateWait = false ∧ (ps psRefused).portOn 127 = false := by decide +kernel

/-- CAP payload: version 1, width 0, lane 0 received, ready. -/
def cap : Bytes := leBytes 256 (1 + 2 ^ 59 + 2 ^ 162)
theorem test_witness_port_stages :
    (ps psDetect).portState 127 = psDetect ∧ ((ps psDetect).link 127).squelch = false
    ∧ (let s := ps psDetect
       let l := s.portLanes 127
       let found := ((List.range l.length).map (fun i => (l.getD i 0, laneFound [1] i))).filter (fun x => !s.laneTested x.1)
       let faults (s : State) : List Nat := l.filter (fun x => decide (lfOpen ≤ s.fget (Reg.laneStatus x) F.laneStatus_fault))
       found.length = l.length ∧ found.all (fun x => x.2 == 1) = true ∧ l ≠ [] ∧ faults (s.each found (fun s x => s.testLane 127 true x)) = [])
    ∧ (ps psTrain).portState 127 = psTrain ∧ (ps psLock).portState 127 = psLock 
    ∧ (let s := ps psLock
       let why (markers : List Nat) := lockCause (s.flag (Reg.portGroup 127) F.portGroup_allowNarrow) (s.portLanes 127).length
         ((((s.portLanes 127).zip markers).filter (fun x => amHeld x.2 && !s.laneTested x.1)).map Prod.snd)
       why [] = some 7 ∧ why [2 ^ 80] = some 7 ∧ why [0] = none)
    ∧ psDetect < (ps psActive).portState 127 ∧ (ps psActive).portState 127 ≤ psActive ∧ ((ps psActive).link 127).squelch = false
    ∧ (ps psCap).portState 127 = psCap
    ∧ (let s := (ps psCap).setLink 127 { Link.down with rx := [0] }
       let t (b : Bytes) := (s.setLink 127 { s.link 127 with cap := some b }).setFar 127 b
       (t cap).capWidth 127 cap = some 0 ∧ capField cap 162 1 = 1 ∧ ((t cap).link 127).retrain = false ∧ (t []).capWidth 127 [] = none)
    ∧ psTrain ≤ (ps psTrain).portState 127 ∧ (ps psCap).portState 127 ≤ psCap ∧ ({ Link.down with squelch := true }).squelch = true := by decide +kernel

/-- Taproot at each of its stages, as 16 lanes answer. -/
def tp (stage : Nat) : State := { rd with host := { rd.host with tapStage := stage } }
theorem test_witness_tap_stages :
    (tp psDetect).host.tapStage = psDetect ∧ (List.range 16).all (fun i => laneFound (List.replicate 16 1) i == 1) = true
    ∧ (tp psDetect).lanesThere tapLink = true ∧ trunkMarkersOk 16 0 (List.range 16) = true ∧ trunkMarkersOk 16 0 [] = false
    ∧ capField cap 0 16 = 1 ∧ capField cap 162 1 = 1 ∧ capField (leBytes 256 1) 0 16 = 1 ∧ capField (leBytes 256 1) 162 1 = 0 ∧ capField [] 0 16 ≠ 1
    ∧ (tp psTrain).host.tapStage = psTrain ∧ (tp psLock).host.tapStage = psLock ∧ psTrain ≤ (tp psCap).host.tapStage ∧ (tp psCap).host.tapStage ≤ psCap := by
  decide +kernel

theorem test_witness_port_recovery :
    (let s := (ps psCap).setLink 127 { Link.down with rx := [0], retrain := true, cap := some cap }
     (s.link 127).retrain = true ∧ s.portState 127 = psCap ∧ (s.link 127).cap = some cap ∧ s.capWidth 127 cap = some 0)
    ∧ (ps psActive).linkLive 127 = true ∧ (rd.fset Reg.graftStatus ⟨11, 1⟩ 1).linkLive 131 = true ∧ (tp psActive).linkLive tapLink = true
    ∧ (rd.fset Reg.service F.service_initDone 1).fullReady = true ∧ ({ Link.down with holdFull := true }).holdFull = true
    ∧ (rd.rset (Reg.lxCtrl 511) (BitVec.ofNat 64 15)).laneUser 511 = none ∧ rd.laneUser 655 = none ∧ rd.gateOpen = true
    ∧ (rd.fset Reg.expertGate F.expertGate_open 0).gateOpen = false
    ∧ (let s := (((ps psActive).fset (Reg.portGroup 127) F.portGroup_firstLane 511).fset (Reg.laneStatus 511) F.laneStatus_inUse 1).rset (Reg.lxCtrl 511) 0
       s.laneUser 511 = some 127 ∧ s.laneTested 511 = false ∧ (s.rset (Reg.lxCtrl 511) 15).laneUser 511 = some 127
       ∧ (s.rset (Reg.lxCtrl 511) 15).laneTested 511 = true) := by decide +kernel

def goodFlit : Bytes := List.replicate 268 0 ++ leBytes 4 (crc32c (List.replicate 268 0)).toNat
set_option maxRecDepth 100000 in
/-- A flit of the lane whose slot comes next, of another lane, and of a lane that the link lacks, on a port, a trunk and Taproot. -/
theorem test_witness_flits :
    let none : Fec := ⟨[], [], false, []⟩
    let t := rd.fset Reg.graftStatus ⟨11, 1⟩ 1
    (ps psActive).exchanges 127 = true ∧ t.exchanges 131 = true ∧ (tp psActive).exchanges tapLink = true ∧ flitCrcOk goodFlit = true
    ∧ flitCrcOk (List.replicate 272 0) = false
    ∧ (∀ x ∈ [(ps psActive, 127), (t, 131), (tp psActive, tapLink)], ((x.1.countFec x.2 none).link x.2).rxWait = []
        ∧ 0 < (x.1.countFec x.2 none).slotLanes x.2 ∧ 0 = ((x.1.countFec x.2 none).link x.2).rxSlot % (x.1.countFec x.2 none).slotLanes x.2
        ∧ (x.1.countFec x.2 none).slotLanes x.2 ≤ 32)
    ∧ 1 < (t.countFec 131 none).slotLanes 131 ∧ 1 ≠ ((t.countFec 131 none).link 131).rxSlot % (t.countFec 131 none).slotLanes 131
    ∧ (((ps psActive).countFec 127 ⟨[], [3], false, []⟩).link 127).rxWait = [] ∧ (ps psActive).linkOpen 127 = true := by decide +kernel

theorem test_witness_slots :
    (ps psLock).locking 127 = true
    ∧ (let s := (ps psActive).setLink 127 { (ps psActive).link 127 with nakTick := some 0 }
       (s.link 127).nakTick = some 0 ∧ 0 + 475 ≤ (s.rset Reg.gcValue 475).now ∧ s.linkOpen 127 = true)
    ∧ (ps psActive).now < ((ps psActive).link 127).ackTick + 190
    ∧ (let s := (ps psActive).setLink 127 { (ps psActive).link 127 with timeOut := [.reply false 1 2 3 4] }
       (s.fenceSweep.link 127).timeOut = .reply false 1 2 3 4 :: [] ∧ s.fenceSweep.linkOpen 127 = true)
    ∧ (let u := ((ps psCap).setLink 127 { (ps psCap).link 127 with capOut := true }).fenceSweep
       (u.link 127).timeOut = [] ∧ (u.link 127).capOut = true ∧ u.locking 127 = false)
    ∧ (∀ n < 2, let u := ((ps psActive).setLink 127 { (ps psActive).link 127 with replay := [(7, [])], sent := n }).fenceSweep
       (u.link 127).timeOut = [] ∧ (u.link 127).capOut = false ∧ u.linkOpen 127 = true ∧ (u.link 127).replay.length < u.replayDepth 127
       ∧ u.xb.copies.find? (u.maySend 127) = none)
    ∧ (let t := (ps psActive).newPk inTaproot ⟨0, 0, [1], false, false⟩ [25]
       let c : Copy := ⟨0, t.2.pid, linkIo 127, [127], 1, 0, none, []⟩
       let u := (({ t.1 with xb := { t.1.xb with copies := [c] } } : State).setLink 127 { Link.down with credit := [(0, 1)] }).fenceSweep
       u.xb.copies.find? (u.maySend 127) = some c ∧ (u.link 127).timeOut = [] ∧ (u.link 127).capOut = false ∧ u.linkOpen 127 = true)
    ∧ (((ps psActive).rset Reg.gcValue 190).link 127).ackTick + 190 ≤ ((ps psActive).rset Reg.gcValue 190).now ∧ ((ps psActive).link 127).nakTick = none
    ∧ (let s := (ps psActive).setLink 127 { (ps psActive).link 127 with timeOut := [.request] }
       s.exchanges 127 = true ∧ (s.fenceSweep.link 127).timeOut = .request :: [] ∧ s.fenceSweep.linkOpen 127 = true)
    ∧ (let u := (ps psLock).fenceSweep
       (u.link 127).timeOut = [] ∧ (u.link 127).capOut = false ∧ u.linkOpen 127 = false)
    ∧ (tp psLock).locking tapLink = true ∧ ((tp psLock).fenceSweep.link tapLink).timeOut = [] ∧ (tp psLock).fenceSweep.linkOpen tapLink = false := by
  decide +kernel

/-- A package that pairs, in a stage, and a PAIR payload of a peer like it but for its version. The digest is SHAKE256 of 512 bytes of 0,
computed outside the model. -/
def gs (stage : Nat) : State :=
  let s := ({ rd with jobs := [] }).fset Reg.graftCtrl F.graftCtrl_enable 1
  (s.fset Reg.graftStatus F.graftStatus_state stage).fset Reg.stepping ⟨0, 16⟩ 0
def digest : Nat := 0x7a52a6a7fd0bb02f0b998aa6abffea7654c7721d17751c64fd6da7ca8fdd5133
def peerPair (version : Nat) : Bytes :=
  leBytes 256 (version + 2 ^ 16 * rd.fget Reg.partId F.partId_grade + 2 ^ 34 * rd.fget Reg.lifecycleReg F.lifecycleReg_state + 2 ^ 128 * digest)
theorem test_witness_pairing :
    (gs gsSense).pairing = true ∧ (gs gsSense).graftState = gsSense ∧ (∀ d < 4, senseOf ([0, 0, 0, 0, 0, 0, 0, 0].getD (2 * d) 1800)
      ([0, 0, 0, 0, 0, 0, 0, 0].getD (2 * d + 1) 1800) = 1)
    ∧ (gs gsIdentify).pairing = true ∧ (gs gsIdentify).graftState = gsIdentify ∧ pairField (peerPair 2) 0 16 ≠ 1 ∧ pairField (peerPair 1) 0 16 = 1
    ∧ (gs gsMerge).pairing = true ∧ (gs gsMerge).graftState = gsMerge ∧ (gs gsMerge).pkgNo = 0
    ∧ (gs gsMerge).flag Reg.service F.service_initDone = false
    ∧ (List.range 4).any ((gs gsMerge).fset Reg.graftStatus ⟨11, 1⟩ 1).trunkUp = true := by decide +kernel
theorem test_digest : ofLe rd.fwDigest = digest := by decide +kernel
/-- The package once trunk 3 has received a payload. -/
def paired (b : Bytes) : State := ((gs gsIdentify).setTrunk 3 { (gs gsIdentify).trunk 3 with pair := some b }).setPeer b
theorem test_witness_pair_check :
    (paired (peerPair 1)).pairCheck ((List.range 4).filterMap (fun d => ((paired (peerPair 1)).trunk d).pair)) (peerPair 1) = none
    ∧ (paired (leBytes 256 1)).pairCheck ((List.range 4).filterMap (fun d => ((paired (leBytes 256 1)).trunk d).pair)) (leBytes 256 1) = some 6 := by
  have h (b : Bytes) : (paired b).fwDigest = rd.fwDigest := rfl
  simp only [State.pairCheck, h, test_digest]
  decide +kernel

def pkt : Packet := ⟨0, 0, [1], false, false⟩
theorem test_witness_packets :
    inTaproot ≠ inEngines ∧ rd.mayEnter inTaproot = true ∧ rd.mayEnter 0 = false ∧ rd.quiesced = false
    ∧ (rd.fset Reg.shedStatus F.shedStatus_quiesced 1).quiesced = true
    ∧ rd.xb.pkts.find? (fun k => k.inp == inTaproot && !k.routed && k.pkt.hdr == pkt.hdr && k.pkt.cls == pkt.cls) = none
    ∧ (let u := rd.newPk inTaproot pkt (cellLens 1 0 1)
       u.1.xb.pkts.find? (fun k => k.inp == inTaproot && !k.routed && k.pkt.hdr == pkt.hdr && k.pkt.cls == pkt.cls) = some u.2)
    ∧ pkt.bad = false
    ∧ (let s : State := { rd with xb := { rd.xb with fromEngines := [(pkt, 1)] } }
       s.xb.fromEngines.find? (fun e => samePacket e.1 pkt && e.1.aborted == pkt.aborted) = some (pkt, 1)) := by decide +kernel

/-- Whatever edge stop the model's free order begins with, a packet of no cells has one; one of more cells than a pool holds has none. -/
theorem test_witness_stops : (rd.entryStop 0).isSome = true ∧ rd.entryStop (2 ^ 20) = none := by
  refine ⟨?_, ?_⟩
  · have h : rotate (List.range edgeStops) (Config.bufferStop rd.freeCtr) ≠ [] := by
      simp only [rotate]
      split
      · decide
      · rename_i h
        intro e
        have := congrArg List.length e
        simp only [List.length_append, List.length_drop, List.length_take, List.length_nil, List.length_range] at this
        have : edgeStops = 0 := by omega
        exact absurd this (by decide)
    rw [State.entryStop, List.find?_isSome]
    obtain ⟨x, hx⟩ := List.exists_mem_of_ne_nil _ h
    exact ⟨x, hx, by simp⟩
  · rw [State.entryStop, List.find?_eq_none]
    intro x hx
    have h : rd.poolFree (edgeDie x) 0 < 2 ^ 18 := Nat.mod_lt _ (by decide)
    simp only [decide_eq_true_eq]
    omega

/-! ## Memories, the register window, mailboxes, Shed and slices -/

theorem test_witness_memories :
    (rd.fset (Reg.stackStatus 23) F.stackStatus_state stackTraining).fget (Reg.stackStatus 23) F.stackStatus_state = stackTraining
    ∧ rd.flag (Reg.pprStatus 23) F.pprStatus_busy = false ∧ rd.fget Reg.lifecycleReg F.lifecycleReg_state = 2
    ∧ ¬(true = true ∧ ((rd.fset Reg.lifecycleReg F.lifecycleReg_state 1).fget Reg.lifecycleReg F.lifecycleReg_state = 2
        ∨ (rd.fset Reg.lifecycleReg F.lifecycleReg_state 1).fget Reg.lifecycleReg F.lifecycleReg_state = 4))
    ∧ rd.resCanTake (reStack 23) ruRepair = true
    ∧ (∀ hard, ({ rd with shed := { rd.shed with ppr := [⟨23, hard, 0, 0, 0, 0⟩] } } : State).shed.ppr.find? (fun r => r.stack == 23)
        = some ⟨23, hard, 0, 0, 0, 0⟩) := by decide +kernel

theorem test_witness_register_writes :
    inExpertWindow 0x800000 = true ∧ (rd.fset Reg.expertGate F.expertGate_open 0).gateOpen = false ∧ inExpertWindow 0x2 = false
    ∧ goodAccess 0x2 4 = false ∧ goodAccess 0x4 8 = false ∧ rd.gateOpen = true ∧ 0x3FFFFFC % 4 = 0 ∧ 0x3FFFFF8 % 8 = 0 := by decide +kernel

/-- A mailbox request of a host, with its payload. -/
def mq (op : Nat) (b : Bytes) : MbxReq := ⟨some (leBytes 64 (op + 2 ^ 64 * b.length) ++ b), true⟩
def mm (op : Nat) (b : Bytes) : Mail := ⟨op, 0, 0, false, b⟩
/-- The conditions of `Asks` as one check that can be evaluated. -/
def asksNow (s : State) (m : Master) (req : MbxReq) (q : Mail) (op need : Nat) : Bool :=
  [s.clocked, m != .shed, !s.flag (cardReg m Reg.mbxStatus) F.mbxStatus_busy, req.bytes.map readMail == some q, q.op == op, op != 0,
    decide (op ≤ 0x12), q.package == s.pkgNo, s.mailCheck q need == none].and
theorem asks_of {s : State} {m : Master} {req : MbxReq} {q : Mail} {op need : Nat} (h : asksNow s m req q op need = true) :
    Asks s m req q op need := by
  simp only [asksNow, List.and_cons, List.and_nil, Bool.and_eq_true, bne_iff_ne, beq_iff_eq, Bool.not_eq_true', decide_eq_true_eq] at h
  obtain ⟨clocks, host, idle, read, names, positive, bound, here, checks, -⟩ := h
  exact { clocks, host, idle, read, names, here, checks, known := ⟨Nat.pos_of_ne_zero positive, bound⟩ }

def b2 (n : Nat) : Bytes := leBytes 2 n
def grant : Bytes := List.replicate 32 0 ++ leBytes 2 1024 ++ [1] ++ List.replicate 114 0
theorem test_witness_mailbox :
    Asks rd .host1 (mq 1 []) (mm 1 []) 1 0 ∧ Asks rd .host1 (mq 2 (List.replicate 64 0)) (mm 2 (List.replicate 64 0)) 2 64
    ∧ Asks rd .host1 (mq 3 (List.replicate 6 0)) (mm 3 (List.replicate 6 0)) 3 6 ∧ Asks rd .host0 (mq 4 (List.replicate 4 0)) (mm 4 (List.replicate 4 0)) 4 4
    ∧ Asks rd .host0 (mq 5 []) (mm 5 []) 5 0 ∧ Asks rd .host0 (mq 6 (b2 1719)) (mm 6 (b2 1719)) 6 2 ∧ Asks rd .host0 (mq 7 (b2 1200)) (mm 7 (b2 1200)) 7 2
    ∧ Asks rd .host0 (mq 8 []) (mm 8 []) 8 0 ∧ Asks rd .host0 (mq 9 (grant ++ [0, 0])) (mm 9 (grant ++ [0, 0])) 9 149
    ∧ Asks rd .host0 (mq 0x0A (List.replicate 512 0)) (mm 0x0A (List.replicate 512 0)) 0x0A 512
    ∧ Asks rd .host0 (mq 0x0B (List.replicate 8 0)) (mm 0x0B (List.replicate 8 0)) 0x0B 4 ∧ Asks rd .host0 (mq 0x0C [1]) (mm 0x0C [1]) 0x0C 1
    ∧ Asks rd .host0 (mq 0x0D []) (mm 0x0D []) 0x0D 0 ∧ Asks rd .host0 (mq 0x0E (b2 656)) (mm 0x0E (b2 656)) 0x0E 2
    ∧ Asks rd .host0 (mq 0x0F (b2 656)) (mm 0x0F (b2 656)) 0x0F 2 ∧ Asks rd .host0 (mq 0x10 []) (mm 0x10 []) 0x10 0
    ∧ Asks rd .host0 (mq 0x11 [4]) (mm 0x11 [4]) 0x11 1 ∧ Asks rd .host0 (mq 0x12 (List.replicate 58 0)) (mm 0x12 (List.replicate 58 0)) 0x12 58 := by
  repeat' apply And.intro
  all_goals exact asks_of (by decide +kernel)

/-- Reading a request leaves the lifecycle of the part as it was. -/
theorem test_witness_mailbox_read (s : State) (m : Master) (n : Nat) : (s.readRequest m n).lifecycle = s.lifecycle := by
  unfold State.readRequest
  split <;> rfl

theorem test_witness_mailbox_values :
    rd.lifecycle ≠ lcBlank ∧ rd.lifecycle ≠ lcRetired ∧ (mm 6 (b2 1719)).field 0 11 < unitTotal ∧ 1200 ≤ (mm 7 (b2 1200)).field 0 12
    ∧ (mm 7 (b2 2600)).field 0 12 ≤ 2600 ∧ rd.capOf 0 ≠ some 1200 ∧ numAt (mm 9 grant).payload 32 2 = 1024 ∧ numAt (mm 9 grant).payload 34 1 ≤ 1
    ∧ rd.retired = false ∧ State.reset.anyActive = false
    ∧ (mm 0x0B (List.replicate 8 0)).field 0 32 % 4096 = 0 ∧ ((mm 0x0B (List.replicate 8 0)).payload.drop 4).length ≤ 65536
    ∧ 0 + 4 ≤ fwLen (List.replicate 512 1)
    ∧ ({ rd with nv := { rd.nv with flashWritten := [(0, 8)] } } : State).flashWhole (fwLen (List.replicate 10 0 ++ [8])) = true
    ∧ rd.shed.fw = none ∧ rd.bedState (bedOf 656) ≤ bedSpare
    ∧ rd.bootState ≠ bsRecovery ∧ isBedUnit 656 = true ∧ isPcUnit 1695 = true ∧ rd.sliceable 656 = true ∧ rd.bedState (bedOf 656) = bedActive
    ∧ rd.sliceOf 656 = none ∧ (rd.fset Reg.lifecycleReg F.lifecycleReg_state lcMaker).lifecycle = lcMaker
    ∧ (rd.tokenKeys rd.lifecycle lcRetired).isSome = true ∧ rd.enrolOk (List.replicate 58 0) = true := by decide +kernel

/-- Shed has run for as many ticks as the longest of its intervals. -/
def ran : State := { rd with shed := { rd.shed with since := (List.range 11).map (fun k => (k, 2 ^ 27)) } }
theorem test_witness_shed :
    2 ^ 20 ≤ ran.sinceTick 0 ∧ rd.sinceTick 0 < 2 ^ 20 ∧ 2 ^ 17 ≤ ran.sinceTick 1 ∧ 2 ^ 27 ≤ ran.sinceTick 2 ∧ ran.bootState = bsRunning ∧ rd.bootState = bsRunning ∧ (rd.fset Reg.shedStatus F.shedStatus_bootState bsRestarting).bootState = bsRestarting
    ∧ ({ rd with shed := { rd.shed with grantEnd := some 0 } } : State).shed.grantEnd = some 0 ∧ 0 ≤ rd.now := by decide +kernel

/-- A slice on bed 0 in a stage. -/
def sl (repair : Bool) (g : SliceStage) : SliceRun := ⟨656, 0, true, repair, g, 0, .host0, 0, 0⟩
def ss (r : SliceRun) : State := { rd with shed := { rd.shed with slices := [r] } }
theorem test_witness_slices :
    (let s := (ran.fset Reg.sliceCtrl F.sliceCtrl_periodic 1).fset Reg.sliceCtrl F.sliceCtrl_beds 1
     s.flag Reg.sliceCtrl F.sliceCtrl_periodic = true ∧ s.bootState = bsRunning ∧ s.retired = false ∧ s.sliceInterval ≤ s.sinceTick (3 + 7) ∧ s.nextPlace 7 = some 0
     ∧ (sliceEntries (rotUnit 7 0).1).any (fun e => s.resUser e != 0) = false ∧ s.quiesced = false)
    ∧ (ss (sl true .waiting)).now < (sl true .waiting).tick + 2 ^ 27 ∧ isBedUnit 928 = false
    ∧ rd.scrubMay 23 = true ∧ (rd.fset (Reg.resOwner (reStack 23)) F.resOwner_user ruRepair).scrubMay 23 = false
    ∧ (rd.resTake (reStack 23) ruScrub).unitState (lineUnit (24 * 2 ^ 26 - 1)) ≠ 3
    ∧ (∀ r, (ss (sl r .waiting)).sliceOf 656 = some (sl r .waiting)) ∧ (ss (sl false .waiting)).bedEmpty (bedOf 656) = true
    ∧ (sl false .waiting).tick + 2 ^ 27 ≤ ((ss (sl false .waiting)).rset Reg.gcValue (2 ^ 27)).now
    ∧ (sl false .running).tick + 1900000 ≤ ((ss (sl false .running)).rset Reg.gcValue 1900000).now
    ∧ rd.flag Reg.service F.service_storeReady = true ∧ 24 * 2 ^ 26 - 1 < 24 * 2 ^ 26 ∧ rd.resUser (reStack (lineStack (24 * 2 ^ 26 - 1))) = 0
    ∧ rd.shed.scrubPos ≤ 24 * 2 ^ 26 - 1
    ∧ ({ rd with shed := { rd.shed with shutdown := some ⟨.host0, 0x0D, 0, 0⟩ } } : State).shed.shutdown = some ⟨.host0, 0x0D, 0, 0⟩
    ∧ rd.shed.shutdown = none ∧ ({ rd with shed := { rd.shed with bootBist := true } } : State).shed.bootBist = true := by decide +kernel

/-! ## Further conditions -/

theorem test_witness_trips :
    rd.pwr.thermtrip = false ∧ ({ rd with pwr := { rd.pwr with thermtrip := true } } : State).pwr.thermtrip = true
    ∧ (let s : State := { rd with pwr := { rd.pwr with porLow := true, dead := List.range 8 } }
       s.pwr.porLow = true ∧ (s.pwr.dead.filter (fun r => r != 8)).length = 8)
    ∧ rd.serves = true ∧ (rd.fset Reg.shedStatus F.shedStatus_quiesced 1).serves = false
    ∧ (let s : State := { on with host := { on.host with tapStage := psActive } }
       s.linkUp 0 = false ∧ s.tapUp = true ∧ 0 = s.pkgNo) := by decide +kernel

/-- A NOP that sets event 3 of its job in the tick in which a command that waits for it has begun, and one whom nobody waits for. -/
theorem test_witness_late_settings :
    let x := cx 0x00 (1 + 3 * 2 ^ 2 + 2 ^ 18) .ended
    let y : Ctx := { cx 0 0 .run with idx := 1, desc := bset (D.wait 0) (bset D.waitN (0 : BitVec 512) 1) 3 }
    ({ rd with host := { rd.host with ctxs := [x, y] } } : State).setsLate x = true
    ∧ ({ rd with host := { rd.host with ctxs := [x] } } : State).setsLate x = false := by decide +kernel

/-- A record whose bed has a full queue. -/
theorem test_witness_full_bed :
    let s : State := { wo (bucket 16 1 1) with bedQ := List.replicate (max 1 Config.bedQueue) value }
    let p := pk ptXp 0 (xpBytes (child 0))
    (s.recordBed p).any s.bedFull = true := by
  have h : ∀ l, ({ wo (bucket 16 1 1) with bedQ := l } : State).recordBed (pk ptXp 0 (xpBytes (child 0))) = some 0 := by
    intro l
    simp only [State.recordBed, State.findOp, wo, rd]
    decide +kernel
  simp only [h, Option.any_some]
  simp [State.bedFull, value]

/-- A bucket that is owed nothing more as its deadline passes, with no packet left to act on. -/
theorem test_witness_met_deadline :
    let o : Op := { bucket 1 0 1 with accepted := [(0, 1)] }
    (wo o).isOwed o = false ∧ (wo o).untaken o = false ∧ (wo (bucket 1 0 1)).untaken (bucket 1 0 1) = false := by decide +kernel

/-- A running slice of the pseudo-channel that holds an element, wherever the model's free placement puts it; and no slice. -/
theorem test_witness_sliced (j a e : Nat) :
    ({ rd with shed := { rd.shed with slices :=
      [⟨lineUnit (Config.sectorOf 6 j a e / 8), 0, true, false, .running, 0, .host0, 0, 0⟩] } } : State).sliced [Config.sectorOf 6 j a e] = true
    ∧ rd.sliced [Config.sectorOf 6 j a e] = false := by
  have h : Config.sectorOf 6 j a e < 24 * 2 ^ 29 := Nat.mod_lt _ (by decide)
  refine ⟨?_, rfl⟩
  have low : 928 ≤ lineUnit (Config.sectorOf 6 j a e / 8) := Nat.le_add_right _ _
  have high : lineUnit (Config.sectorOf 6 j a e / 8) < 1696 := by unfold lineUnit unitPc; omega
  simp [State.sliced, low, high]

/-! ## The block as a whole -/

theorem test_witness_queue : (State.reset.withCommand .tick).pending = [.tick] ∧ State.reset.pending = [] := by decide +kernel

theorem test_witness_unclocked : State.reset.clocked = false ∧ needsNoClock .tick = false ∧ (needsNoClock .porAssert = true) := by decide +kernel

theorem test_witness_owners :
    ownerOnly rd (.doorbell .host1 16383 .both 0) = some (.host1, rd.ringJob 16383, true)
    ∧ ownerOnly rd (.doorbell .host1 16384 .both 0) = some (.host1, rd.ringJob 16384, false)
    ∧ ownerOnly rd (.jobEnable .host1 4095) = some (.host1, 4095, true) ∧ ownerOnly rd (.mirHead .host1 7 0) = some (.host1, resFabric, true)
    ∧ rd.owns .host1 (rd.ringJob 16383) = false ∧ rd.owns .host1 4095 = false ∧ rd.owns .host1 resFabric = false := by decide +kernel

theorem test_witness_sums :
    let o := (bucket 8 0 1).setStripe 0 Stripe.fresh
    risingTables o ∧ risingTables (bucket 8 0 1) ∧ [Sum.inl value, Sum.inr (child 0)].Perm [Sum.inr (child 0), Sum.inl value] := by
  refine ⟨?_, ?_, List.Perm.swap _ _ _⟩ <;> exact ⟨by decide +kernel, by decide +kernel⟩

theorem test_witness_records : Fits stripe256 := by
  constructor
  all_goals decide +kernel

end Sys2Proof.Tests
end

section
/-! PROOF. Sums of an operation are the same in every order (R137, O55). A contributed value and a partial both
come down to one kind of addend, and any two addends give the same sum in either order. -/
namespace Sys2Proof.Machine

/-! ## Tables: writes at two keys, and sums at keys -/

/-- Of two writes at one key the second stands. -/
theorem tput_tput_same {α : Type} (t : Tab α) (i : Nat) (v w : α) : tput (tput t i v) i w = tput t i w := by
  induction t with
  | nil => simp [tput]
  | cons e t ih => grind [tput]

/-- Writes at two keys may change places. -/
theorem tput_comm {α : Type} (t : Tab α) {i j : Nat} (v w : α) (h : i ≠ j) :
    tput (tput t i v) j w = tput (tput t j w) i v := by
  induction t with
  | nil => grind [tput]
  | cons e t ih => grind [tput]

/-- A slot added into the slot that a table lists under a key. -/
def joinAt (t : Tab Slot) (e : Nat × Slot) : Tab Slot := tput t e.1 ((tget Slot.empty t e.1).join e.2)

/-! ## Flag bytes, slots, counters and first flags -/

/-- Flag bytes combine bit by bit: NEGZ, which is bit 5, by AND, the others by OR (R137). -/
theorem getLsbD_flagsJoin (x y : BitVec 8) {i : Nat} (h : i < 8) :
    (flagsJoin x y).getLsbD i = if i = 5 then x.getLsbD i && y.getLsbD i else x.getLsbD i || y.getLsbD i := by
  have masks : (0xDF : BitVec 8).getLsbD i = !decide (i = 5) ∧ (0x20 : BitVec 8).getLsbD i = decide (i = 5) := by
    revert i
    decide
  obtain ⟨others, negz⟩ := masks
  simp only [flagsJoin, BitVec.getLsbD_or, BitVec.getLsbD_and, others, negz]
  by_cases h5 : i = 5
  · simp only [h5, decide_true, Bool.not_true, Bool.and_false, Bool.and_true, Bool.false_or, if_true]
  · simp only [h5, decide_false, Bool.not_false, Bool.and_false, Bool.and_true, Bool.or_false, if_false]

theorem flagsJoin_right_comm (x y z : BitVec 8) : flagsJoin (flagsJoin x y) z = flagsJoin (flagsJoin x z) y := by
  refine BitVec.eq_of_getLsbD_eq fun i hi => ?_
  simp only [getLsbD_flagsJoin _ _ hi]
  split
  · exact Bool.and_right_comm _ _ _
  · exact Bool.or_right_comm _ _ _

theorem Slot.join_right_comm (x y z : Slot) : (x.join y).join z = (x.join z).join y := by
  have n : x.n + y.n + z.n = x.n + z.n + y.n := by
    rw [BitVec.add_assoc, BitVec.add_comm y.n, BitVec.add_assoc]
  simp only [Slot.join, flagsJoin_right_comm x.flags y.flags, n]

theorem InCnt.add_right_comm (x y z : InCnt) : (x.add y).add z = (x.add z).add y := by
  simp only [InCnt.add, Nat.add_right_comm]

theorem joinAt_right_comm (t : Tab Slot) (d e : Nat × Slot) : joinAt (joinAt t d) e = joinAt (joinAt t e) d := by
  by_cases h : d.1 = e.1
  · simp only [joinAt, h, tget_tput, tput_tput_same, if_true, Slot.join_right_comm]
  · simp only [joinAt, tget_tput, h, Ne.symm h, if_false]
    exact tput_comm t _ _ h

/-- A group of slots is added as a whole: two groups may change places. -/
theorem foldl_joinAt_right_comm (t : Tab Slot) (d e : List (Nat × Slot)) :
    e.foldl joinAt (d.foldl joinAt t) = d.foldl joinAt (e.foldl joinAt t) := by
  rw [← List.foldl_append, ← List.foldl_append]
  exact List.perm_append_comm.foldl_eq' (fun x _ y _ t => joinAt_right_comm t x y) t

/-! ## Recorded maxima (R102 to R104) -/

theorem pow2_pos (k : Int) : 0 < pow2 k := by
  have two (n : Nat) : (0 : Rat) < ((2 ^ n : Nat) : Rat) := Rat.natCast_pos.mpr (Nat.two_pow_pos n)
  cases k with
  | ofNat n => exact two n
  | negSucc n =>
    change 0 < 1 / ((2 ^ (n + 1) : Nat) : Rat)
    rw [Rat.div_def]
    exact Rat.mul_pos (by decide) (Rat.inv_pos.mpr (two _))

theorem pow2_succ (k : Int) : pow2 (k + 1) = 2 * pow2 k := by
  match k with
  | .ofNat n =>
    change ((2 ^ (n + 1) : Nat) : Rat) = 2 * ((2 ^ n : Nat) : Rat)
    grind
  | .negSucc 0 => decide +kernel
  | .negSucc (n + 1) =>
    change 1 / ((2 ^ (n + 1) : Nat) : Rat) = 2 * (1 / ((2 ^ (n + 1 + 1) : Nat) : Rat))
    rw [Nat.pow_succ 2 (n + 1), Rat.natCast_mul]
    grind

theorem pow2_le_add (k : Int) (n : Nat) : pow2 k ≤ pow2 (k + n) := by
  induction n with
  | zero => exact (congrArg pow2 (Int.add_zero k)).symm ▸ Rat.le_refl
  | succ n ih =>
    have pos := pow2_pos (k + n)
    have succ : pow2 (k + (n + 1 : Nat)) = 2 * pow2 (k + n) := by
      rw [← pow2_succ, Int.natCast_succ, Int.add_assoc]
    rw [succ]
    grind

/-- A larger exponent at least doubles the power. -/
theorem two_mul_pow2_le {d e : Int} (h : d < e) : 2 * pow2 d ≤ pow2 e := by
  have := pow2_le_add (d + 1) (e - (d + 1)).toNat
  rwa [pow2_succ, Int.toNat_of_nonneg (by omega), show d + 1 + (e - (d + 1)) = e by omega] at this

theorem maxrecVal_nonneg (m : Word32) : 0 ≤ maxrecVal m := by
  unfold maxrecVal
  split
  · exact Rat.le_refl
  · exact Rat.mul_nonneg Rat.natCast_nonneg (Rat.le_of_lt (pow2_pos _))

/-- Of two significands of 23 bits the one with the smaller exponent is worth less. -/
theorem significand_lt {m n : Nat} {d e : Int} (hm : m < 2 ^ 23) (hn : 2 ^ 22 ≤ n) (h : d < e) :
    (m : Rat) * pow2 (d - 22) < n * pow2 (e - 22) := by
  have double : (m : Rat) < n * 2 := by
    have : m < n * 2 := by omega
    exact_mod_cast Rat.natCast_lt_natCast.mpr this
  have step : 2 * pow2 (d - 22) ≤ pow2 (e - 22) := two_mul_pow2_le (by omega)
  have low : (m : Rat) * pow2 (d - 22) < n * 2 * pow2 (d - 22) := Rat.mul_lt_mul_of_pos_right double (pow2_pos _)
  have high : (n : Rat) * (2 * pow2 (d - 22)) ≤ n * pow2 (e - 22) := Rat.mul_le_mul_of_nonneg_left step Rat.natCast_nonneg
  grind

/-- A MAXREC is its EXP and its FRAC. -/
theorem maxrec_ext {a b : Word32} (he : maxrecExp a = maxrecExp b) (hf : bget ⟨0, 22⟩ a = bget ⟨0, 22⟩ b) : a = b := by
  apply BitVec.eq_of_toNat_eq
  have ha := a.isLt
  have hb := b.isLt
  simp only [maxrecExp, bsgn, bget] at he hf
  grind

/-- Two MAXRECs of one value other than 0 are one word. -/
theorem maxrecVal_inj {a b : Word32} (h : maxrecVal a = maxrecVal b) (h0 : maxrecVal a ≠ 0) : a = b := by
  have frac (m : Word32) : 2 ^ 22 ≤ 2 ^ 22 + bget ⟨0, 22⟩ m ∧ 2 ^ 22 + bget ⟨0, 22⟩ m < 2 ^ 23 := by
    have : bget ⟨0, 22⟩ m < 2 ^ 22 := Nat.mod_lt _ (by decide)
    omega
  have val (m : Word32) (hm : maxrecVal m ≠ 0) :
      maxrecVal m = ((2 ^ 22 + bget ⟨0, 22⟩ m : Nat) : Rat) * pow2 (maxrecExp m - 22) := by
    unfold maxrecVal at hm ⊢
    exact if_neg fun he => hm (if_pos he)
  have hb := val b (h ▸ h0)
  rw [val a h0, hb] at h
  obtain lt | eq | gt := Int.lt_trichotomy (maxrecExp a) (maxrecExp b)
  · exact absurd (h ▸ significand_lt (frac a).2 (frac b).1 lt) Rat.lt_irrefl
  · rw [eq] at h
    have pos : pow2 (maxrecExp b - 22) ≠ 0 := fun h0 => Rat.lt_irrefl (h0 ▸ pow2_pos (maxrecExp b - 22))
    have quotients := congrArg (· / pow2 (maxrecExp b - 22)) h
    simp only [Rat.mul_div_cancel pos, Rat.natCast_inj] at quotients
    exact maxrec_ext eq (by omega)
  · exact absurd (h ▸ significand_lt (frac b).2 (frac a).1 gt) Rat.lt_irrefl

theorem maxrecMax_of_lt {x a : Word32} (h : maxrecVal x < maxrecVal a) : maxrecMax x a = a := if_pos h

theorem maxrecMax_of_le {x a : Word32} (h : maxrecVal a ≤ maxrecVal x) : maxrecMax x a = x := if_neg (Rat.not_lt.mpr h)

theorem maxrecMax_of_val_zero (x : Word32) {a : Word32} (h : maxrecVal a = 0) : maxrecMax x a = x :=
  maxrecMax_of_le (h ▸ maxrecVal_nonneg x)

/-- Of two words of different value only the larger one counts, in either order. -/
theorem maxrecMax_larger (x : Word32) {a b : Word32} (h : maxrecVal a < maxrecVal b) :
    maxrecMax (maxrecMax x a) b = maxrecMax x b ∧ maxrecMax (maxrecMax x b) a = maxrecMax x b := by
  constructor
  · by_cases hx : maxrecVal x < maxrecVal a
    · have hb : maxrecVal x < maxrecVal b := by grind
      rw [maxrecMax_of_lt hx, maxrecMax_of_lt h, maxrecMax_of_lt hb]
    · rw [maxrecMax_of_le (Rat.not_lt.mp hx)]
  · by_cases hx : maxrecVal x < maxrecVal b
    · rw [maxrecMax_of_lt hx, maxrecMax_of_le (Rat.le_of_lt h)]
    · have hb := Rat.not_lt.mp hx
      rw [maxrecMax_of_le hb, maxrecMax_of_le (Rat.le_trans (Rat.le_of_lt h) hb)]

/-- Maxima may change places: words of one value are one word, and those of value 0 change no maximum. -/
theorem maxrecMax_right_comm (x a b : Word32) : maxrecMax (maxrecMax x a) b = maxrecMax (maxrecMax x b) a := by
  by_cases ha : maxrecVal a = 0
  · simp only [maxrecMax_of_val_zero _ ha]
  by_cases hab : maxrecVal a = maxrecVal b
  · rw [maxrecVal_inj hab ha]
  obtain le | le := Rat.le_total (a := maxrecVal a) (b := maxrecVal b)
  · obtain ⟨last, first⟩ := maxrecMax_larger x (Rat.lt_of_le_of_ne le hab)
    rw [last, first]
  · obtain ⟨last, first⟩ := maxrecMax_larger x (Rat.lt_of_le_of_ne le (Ne.symm hab))
    rw [last, first]

theorem maxrecVal_none : maxrecVal maxrecNone = 0 := by decide +kernel

/-- A value counts in a maximum as the MAXREC that it gives alone. -/
theorem maxrecAdd_eq_max (m : Word32) (x : Num) : maxrecAdd m x = maxrecMax m (maxrecAdd maxrecNone x) := by
  match x with
  | .fin neg q =>
    change maxrecMax m (maxrecOf q) = maxrecMax m (maxrecMax maxrecNone (maxrecOf q))
    by_cases h : maxrecVal (maxrecOf q) = 0
    · simp only [maxrecMax_of_val_zero _ h, maxrecMax_of_val_zero _ maxrecVal_none]
    · have pos := Rat.lt_of_le_of_ne (maxrecVal_nonneg (maxrecOf q)) (Ne.symm h)
      simp only [maxrecMax, maxrecVal_none, if_pos pos]
  | .nan | .inf _ | .over _ => exact (maxrecMax_of_val_zero m maxrecVal_none).symm

/-! ## What a value leaves of a slot (R121, R122) -/

theorem setFlag_eq_or (f : BitVec 8) (b : Fin 5) : bset ⟨b, 1⟩ f 1 = f ||| 1#8 <<< b.val := by
  revert f b
  decide +kernel

/-- A flag other than NEGZ is set in a combination by setting it in one part. -/
theorem setFlag_flagsJoin (f g : BitVec 8) (b : Fin 5) : bset ⟨b, 1⟩ (flagsJoin f g) 1 = flagsJoin f (bset ⟨b, 1⟩ g 1) := by
  refine BitVec.eq_of_getLsbD_eq fun i hi => ?_
  simp only [setFlag_eq_or, BitVec.getLsbD_or, getLsbD_flagsJoin _ _ hi]
  split
  · have : (1#8 <<< b.val).getLsbD i = false := by subst i; revert b; decide
    simp only [this, Bool.or_false]
  · exact Bool.or_assoc _ _ _

/-- NEGZ is cleared by combining with what its clearing leaves of an empty slot. -/
theorem clearNegz_eq_join (f : BitVec 8) : bset Flag.negz f 0 = flagsJoin f (bset Flag.negz Slot.empty.flags 0) := by
  revert f
  decide +kernel

theorem flagsJoin_empty (f : BitVec 8) : flagsJoin f Slot.empty.flags = f := by
  revert f
  decide +kernel

/-- A slot that takes a grid value and flags is combined with an empty slot that takes them. -/
theorem slot_add_eq_join (s : Slot) (v : Int) (g : BitVec 8) :
    (⟨BitVec.ofInt 128 (s.n.toInt + v), flagsJoin s.flags g⟩ : Slot)
      = s.join ⟨BitVec.ofInt 128 (Slot.empty.n.toInt + v), g⟩ := by
  simp [Slot.join, Slot.empty, BitVec.ofInt_add]

theorem slot_flags_eq_join (s : Slot) (g : BitVec 8) : (⟨s.n, flagsJoin s.flags g⟩ : Slot) = s.join ⟨Slot.empty.n, g⟩ := by
  simp [Slot.join, Slot.empty]

/-- A value is added into a slot as the slot that it leaves of an empty one, and counts the same whatever the slot holds. -/
theorem accumulate_eq_join (lim a : Int) (s : Slot) (x : Num) :
    accumulate lim a s x = (s.join (accumulate lim a Slot.empty x).1, (accumulate lim a Slot.empty x).2) := by
  have event (b : Fin 5) : (⟨s.n, bset ⟨b, 1⟩ (bset Flag.negz s.flags 0) 1⟩ : Slot)
      = s.join ⟨Slot.empty.n, bset ⟨b, 1⟩ (bset Flag.negz Slot.empty.flags 0) 1⟩ := by
    rw [clearNegz_eq_join s.flags, setFlag_flagsJoin, slot_flags_eq_join]
  match x with
  | .nan => exact congrArg (·, _) (event 0)
  | .inf false | .over false => exact congrArg (·, _) (event 1)
  | .inf true | .over true => exact congrArg (·, _) (event 2)
  | .fin neg q =>
    have kept : (if neg && q = 0 then s.flags else bset Flag.negz s.flags 0)
        = flagsJoin s.flags (if neg && q = 0 then Slot.empty.flags else bset Flag.negz Slot.empty.flags 0) := by
      split
      · exact (flagsJoin_empty _).symm
      · exact clearNegz_eq_join _
    simp only [accumulate, kept]
    split
    · cases neg
      · exact congrArg (·, _) ((congrArg (Slot.mk s.n) (setFlag_flagsJoin _ _ 3)).trans (slot_flags_eq_join _ _))
      · exact congrArg (·, _) ((congrArg (Slot.mk s.n) (setFlag_flagsJoin _ _ 4)).trans (slot_flags_eq_join _ _))
    · exact congrArg (·, _) (slot_add_eq_join _ _ _)

/-! ## Addends: what a value or a record brings to its stripe (R137) -/

/-- What a contributed value or a partial brings to its stripe: slots by their place, counts, a maximum, and the member that it
reports, if any. -/
structure Addend where
  stripe : Nat
  slots : List (Nat × Slot)
  added : Nat
  records : Nat
  ncontrib : Nat
  cnt : InCnt
  maxrec : Word32
  first : Option Nat

/-- The lowest member reported so far, with one more report, if any (R136). -/
def firstOf (n : Nat) (report : Option Nat) : Nat := report.elim n (min n)

/-- A stripe with an addend. -/
def Stripe.plus (x : Stripe) (d : Addend) : Stripe :=
  { slots := d.slots.foldl joinAt x.slots, added := x.added + d.added, records := x.records + d.records,
    ncontrib := x.ncontrib + d.ncontrib, cnt := x.cnt.add d.cnt, maxrec := maxrecMax x.maxrec d.maxrec,
    firstFlag := firstOf x.firstFlag d.first }

/-- An operation with an addend. -/
def Op.plus (o : Op) (d : Addend) : Op := o.setStripe d.stripe ((o.stripe d.stripe).plus d)

/-- What a value brings on anchor `a`. -/
def valueAddend (a : Int) (v : BedVal) : Addend :=
  let c := (accumulate slotLimit a Slot.empty v.value).2
  { stripe := v.elem / 256, slots := [(v.elem % 256, (accumulate slotLimit a Slot.empty v.value).1)], added := 1,
    records := 0, ncontrib := 0, cnt := c, maxrec := maxrecAdd maxrecNone v.value,
    first := if c.nan + c.inf + c.aovf != 0 then some v.member else none }

/-- What a record brings. -/
def recordAddend (r : XpRec) : Addend :=
  { stripe := r.stripe, slots := (List.range r.slots.length).map (fun i => (i, r.slots.getD i Slot.empty)), added := 0,
    records := 1, ncontrib := r.ncontrib, cnt := r.cnt, maxrec := r.maxrec, first := some r.firstFlag }

/-- An addend counts as a value or as a record, so that its stripe is no longer fresh. -/
def Addend.Counts (d : Addend) : Prop := 0 < d.added + d.records

theorem firstOf_right_comm (n : Nat) (a b : Option Nat) : firstOf (firstOf n a) b = firstOf (firstOf n b) a := by
  cases a with
  | none => rfl
  | some a => cases b with
    | none => rfl
    | some b => exact Nat.min_right_comm n a b

theorem Stripe.plus_right_comm (x : Stripe) (d e : Addend) : (x.plus d).plus e = (x.plus e).plus d := by
  simp only [Stripe.plus, foldl_joinAt_right_comm x.slots d.slots, Nat.add_right_comm, InCnt.add_right_comm x.cnt d.cnt,
    maxrecMax_right_comm x.maxrec d.maxrec, firstOf_right_comm x.firstFlag d.first]

theorem Stripe.plus_ne_fresh (x : Stripe) {d : Addend} (h : d.Counts) : x.plus d ≠ Stripe.fresh := by
  intro he
  have added : x.added + d.added = 0 := congrArg Stripe.added he
  have records : x.records + d.records = 0 := congrArg Stripe.records he
  unfold Addend.Counts at h
  omega

/-! ## Stripes of an operation -/

theorem Op.stripe_setStripe (o : Op) (k j : Nat) (x : Stripe) : (o.setStripe k x).stripe j = if k = j then x else o.stripe j :=
  tget_tset _ _ _ _ _

/-- A stripe that is not fresh is listed. -/
theorem Op.setStripe_of_ne_fresh (o : Op) (k : Nat) {x : Stripe} (h : x ≠ Stripe.fresh) :
    o.setStripe k x = { o with stripes := tput o.stripes k x } := by
  simp only [Op.setStripe, tset, if_neg h]

/-- Addends to one operation may change places, in one stripe and in two. -/
theorem Op.plus_right_comm (o : Op) {d e : Addend} (hd : d.Counts) (he : e.Counts) : (o.plus d).plus e = (o.plus e).plus d := by
  by_cases h : d.stripe = e.stripe
  · simp only [Op.plus, Op.stripe_setStripe, h, if_true, Stripe.plus_right_comm _ d e]
    simp only [Op.setStripe_of_ne_fresh _ _ (Stripe.plus_ne_fresh _ hd), Op.setStripe_of_ne_fresh _ _ (Stripe.plus_ne_fresh _ he),
      tput_tput_same]
  · simp only [Op.plus, Op.stripe_setStripe, h, Ne.symm h, if_false]
    simp only [Op.setStripe_of_ne_fresh _ _ (Stripe.plus_ne_fresh _ hd), Op.setStripe_of_ne_fresh _ _ (Stripe.plus_ne_fresh _ he),
      tput_comm _ _ _ h]

/-! ## Values and records as addends -/

/-- RAKE_ACCUMULATE adds what the value brings (R121, R129, R136). -/
theorem Op.rake_eq_plus (o : Op) (v : BedVal) : o.rake v = o.plus (valueAddend o.anchor v) := by
  simp only [Op.rake, Op.plus, Stripe.plus, valueAddend, Stripe.slot, accumulate_eq_join _ _ (tget _ _ _),
    maxrecAdd_eq_max (o.stripe _).maxrec, List.foldl_cons, List.foldl_nil, joinAt, Nat.add_zero]
  split <;> rfl

/-- XP adds what the record brings (R144). -/
theorem Stripe.combine_eq_plus (x : Stripe) (r : XpRec) : x.combine r = x.plus (recordAddend r) := by
  simp only [Stripe.combine, Stripe.plus, recordAddend, List.foldl_map, joinAt, Nat.add_zero, firstOf, Option.elim]

/-- What a value or a record brings on anchor `a`. -/
def addendOf (a : Int) : BedVal ⊕ XpRec → Addend
  | .inl v => valueAddend a v
  | .inr r => recordAddend r

theorem addendOf_counts (a : Int) (e : BedVal ⊕ XpRec) : (addendOf a e).Counts := by
  cases e <;> exact Nat.one_pos

end Sys2Proof.Machine

namespace Sys2Proof.Safety
open Sys2Proof.Machine

theorem addIn_eq_plus (o : Op) (e : BedVal ⊕ XpRec) : addIn o e = o.plus (addendOf o.anchor e) := by
  cases e with
  | inl v => exact o.rake_eq_plus v
  | inr r => exact congrArg (o.setStripe r.stripe) (Stripe.combine_eq_plus _ r)

/-- Two additions to an operation may change places: neither changes its anchor, so each brings the same addend. -/
theorem addIn_right_comm (o : Op) (d e : BedVal ⊕ XpRec) : addIn (addIn o d) e = addIn (addIn o e) d := by
  have anchor (c : BedVal ⊕ XpRec) : (addIn o c).anchor = o.anchor := by rw [addIn_eq_plus]; rfl
  rw [addIn_eq_plus (addIn o d), addIn_eq_plus (addIn o e), anchor, anchor, addIn_eq_plus, addIn_eq_plus]
  exact o.plus_right_comm (addendOf_counts _ d) (addendOf_counts _ e)

/-- Settles O55: additions change places pairwise, so a permuted list of them gives the same operation. The order of the tables'
keys is not needed, since every addition lists its stripe. -/
theorem orderOfSumsDoesNotMatter : Obligations.OrderOfSumsDoesNotMatter := by
  intro o l l' _ perm
  exact perm.foldl_eq' (fun d _ e _ o => addIn_right_comm o d e) o

end Sys2Proof.Safety
end

section
/-! PROOF. Integer words of a program, and words whose guard fails (R293, R296, O1, O8). Every row of R294 is one issue, which
tests the guard and then applies the row's own effect, so both statements follow from the laws of the issue. -/
namespace Sys2Proof.Machine
open Sys2Proof.Safety

/-! ## Integer results, as operations on words (R296) -/

theorem intOp_div (a b : Word64) : intOp .div a b = if b = 0 then BitVec.allOnes 64 else a.sdiv b := by
  simp only [intOp, ← BitVec.toInt_inj, BitVec.toInt_sdiv, BitVec.toInt_ofInt, apply_ite BitVec.toInt]

theorem intOp_divu (a b : Word64) : intOp .divu a b = if b = 0 then BitVec.allOnes 64 else a / b := by
  simp only [intOp, ← BitVec.toNat_udiv, BitVec.ofNat_toNat, BitVec.setWidth_eq]

theorem intOp_rem (a b : Word64) : intOp .rem a b = if b = 0 then a else a.srem b := by
  simp only [intOp, ← BitVec.toInt_srem, BitVec.ofInt_toInt]

theorem intOp_remu (a b : Word64) : intOp .remu a b = if b = 0 then a else a % b := by
  simp only [intOp, ← BitVec.toNat_umod, BitVec.ofNat_toNat, BitVec.setWidth_eq]

theorem intOp_min (a b : Word64) : intOp .min a b = if a.slt b then a else b := by
  simp only [intOp, BitVec.slt_iff_toInt_lt]

theorem intOp_max (a b : Word64) : intOp .max a b = if a.slt b then b else a := by
  simp only [intOp, BitVec.slt_iff_toInt_lt]

theorem intOp_minu (a b : Word64) : intOp .minu a b = if a.ult b then a else b := by
  simp only [intOp, BitVec.ult_iff_lt, BitVec.lt_def]

theorem intOp_maxu (a b : Word64) : intOp .maxu a b = if a.ult b then b else a := by
  simp only [intOp, BitVec.ult_iff_lt, BitVec.lt_def]

/-! ## Rows at the issue (R293, R294) -/

/-- An answer is that of the issue of a row, with some effect past the guard. -/
def State.IsIssue (s : State) (r : VyRow) (x : Res) : Prop := ∃ f, x = s.vyIssue r.op r.cls r.place r.use f

section
variable {s : State} {i : Instr} {r : VyRow} {o : VOp} {cls k : Nat} {p : VyProg} {t : VyThread} {v : VyIns}

/-! The shared operations of the integer, floating and memory classes are issues. -/

theorem State.IsIssue.vyInt {op : IntOp} : s.IsIssue ⟨o, 1, k, useDAB⟩ (s.vyInt o k op) := ⟨_, rfl⟩
theorem State.IsIssue.vyCmp {f} : s.IsIssue ⟨o, 1, k, useDAB⟩ (s.vyCmp o k f) := ⟨_, rfl⟩
theorem State.IsIssue.vyFloat_binary : s.IsIssue ⟨o, 2, k, useDAB⟩ (s.vyFloat o k true) := ⟨_, rfl⟩
theorem State.IsIssue.vyFloat_unary : s.IsIssue ⟨o, 2, k, useDA⟩ (s.vyFloat o k false) := ⟨_, rfl⟩
theorem State.IsIssue.vyFcmp {f} : s.IsIssue ⟨o, 2, k, useDAB⟩ (s.vyFcmp o k f) := ⟨_, rfl⟩
theorem State.IsIssue.vyLoad {peer sign : Bool} : s.IsIssue ⟨o, cls, k, useLoad⟩ (s.vyLoad o cls k peer sign) := ⟨_, rfl⟩
theorem State.IsIssue.vyStore {peer : Bool} : s.IsIssue ⟨o, cls, k, useStore⟩ (s.vyStore o cls k peer) := ⟨_, rfl⟩
theorem State.IsIssue.vyAtomic {op : VyStore} : s.IsIssue ⟨o, 7, k, useAtomic⟩ (s.vyAtomic o k op) := ⟨_, rfl⟩

/-- HALT issues in a program that is not of the library. -/
theorem State.IsIssue.execHalt (own : s.vy.any (fun p => p.lib != 0) = false) :
    s.IsIssue ⟨o, 0, 4, useNone⟩ (execHalt o s) :=
  ⟨_, if_neg (Bool.eq_false_iff.mp own)⟩

/-- Every row of R294 is an issue of its class, its place and its use of the fields. -/
theorem exec_isIssue (row : rowOf i = some r) (own : s.vy.any (fun p => p.lib != 0) = false) : s.IsIssue r (exec i s) := by
  cases i with
  | halt => cases row; exact .execHalt own
  | add | sub | mul | mulh | mulhu | div | divu | rem | remu | and | or | xor | shl | shr | sar | rotl | min | max | minu | maxu =>
    cases row; dsimp only [exec]; exact .vyInt
  | cmpEq | cmpLt | cmpLtu => cases row; dsimp only [exec]; exact .vyCmp
  | fadd | fsub | fmul | fma | fnma | fdiv | fmax | fmin | fsel => cases row; dsimp only [exec]; exact .vyFloat_binary
  | fsqrt | fabs | fsign | fmov => cases row; dsimp only [exec]; exact .vyFloat_unary
  | fcmpEq | fcmpLt | fcmpLe => cases row; dsimp only [exec]; exact .vyFcmp
  | ld | lds | pld => cases row; dsimp only [exec]; exact .vyLoad
  | st | pst => cases row; dsimp only [exec]; exact .vyStore
  | aadd | amin | amax | aminu | amaxu | aand | aor | aswp | acas => cases row; dsimp only [exec]; exact .vyAtomic
  | _ => cases row <;> dsimp only [exec] <;> exact ⟨_, rfl⟩

/-- What issues at the row of an instruction is a thread of a program at that row. -/
theorem atRow_of_issues (row : rowOf i = some r) (h : Issues s i p t v) : AtRow s r p t v := by
  simpa only [Issues, row] using h

/-- An instruction that issues has a row in R294. -/
theorem exists_row_of_issues (h : Issues s i p t v) : ∃ r, rowOf i = some r := by
  cases row : rowOf i with
  | none => simp only [Issues, row] at h
  | some r => exact ⟨r, rfl⟩

/-- An instruction that runs, and whose effect is a program and a thread, leaves these. -/
theorem exec_of_done {f} {p' : VyProg} {t' : VyThread} (arm : exec i s = s.vyIssue r.op r.cls r.place r.use f)
    (row : rowOf i = some r) (effect : f s v p (past v t) = .done p' t') (run : Runs s i p t v) : exec i s = leaves s v p' t' := by
  obtain ⟨issues, guard⟩ := run
  rw [arm, State.vyIssue_runs (atRow_of_issues row issues) guard, effect]
  rfl

/-- An integer operation that runs writes its result. -/
theorem exec_of_vyInt {op : IntOp} {x : Word64} (arm : exec i s = s.vyInt o k op) (row : rowOf i = word o 1 k useDAB)
    (result : intOp op (t.gget v.a) (opB v t) = x) (run : Runs s i p t v) : exec i s = writesG s v p t x := by
  subst result
  exact exec_of_done (r := ⟨o, 1, k, useDAB⟩) arm row rfl run

/-- MOV that runs writes operand A. -/
theorem exec_mov (run : Runs s (.mov o) p t v) : exec (.mov o) s = writesG s v p t (t.gget v.a) :=
  exec_of_done (r := ⟨o, 1, 20, useDA⟩) (by dsimp only [exec]; rfl) rfl rfl run

/-- An integer compare that runs writes its outcome. -/
theorem exec_of_vyCmp {f : Word64 → Word64 → Bool} (arm : exec i s = s.vyCmp o k f) (row : rowOf i = word o 1 k useDAB)
    (run : Runs s i p t v) : exec i s = writesQ s v p t (f (t.gget v.a) (opB v t)) :=
  exec_of_done (r := ⟨o, 1, k, useDAB⟩) arm row rfl run

end

end Sys2Proof.Machine

namespace Sys2Proof.Safety
open Sys2Proof.Machine

/-- Settles O1: the row of each word is one integer operation or compare at the issue, and its result is the word operation of R296. -/
theorem integerWords : Obligations.IntegerWords := by
  intro s o p t v
  exact ⟨exec_of_vyInt rfl rfl rfl, exec_of_vyInt rfl rfl rfl, exec_of_vyInt rfl rfl rfl, exec_of_vyInt rfl rfl rfl,
    exec_of_vyInt rfl rfl rfl,
    exec_of_vyInt rfl rfl (intOp_div _ _), exec_of_vyInt rfl rfl (intOp_divu _ _),
    exec_of_vyInt rfl rfl (intOp_rem _ _), exec_of_vyInt rfl rfl (intOp_remu _ _),
    exec_of_vyInt rfl rfl rfl, exec_of_vyInt rfl rfl rfl, exec_of_vyInt rfl rfl rfl,
    exec_of_vyInt rfl rfl rfl, exec_of_vyInt rfl rfl rfl, exec_of_vyInt rfl rfl rfl, exec_of_vyInt rfl rfl rfl,
    exec_of_vyInt rfl rfl (intOp_min _ _), exec_of_vyInt rfl rfl (intOp_max _ _),
    exec_of_vyInt rfl rfl (intOp_minu _ _), exec_of_vyInt rfl rfl (intOp_maxu _ _),
    exec_mov,
    exec_of_vyCmp rfl rfl, exec_of_vyCmp rfl rfl, exec_of_vyCmp rfl rfl⟩

/-- Settles O8: every row of R294 goes through the issue, which tests the guard before the row's own effect. -/
theorem guardedWords : Obligations.GuardedWords := by
  intro s i p t v issues failed
  obtain ⟨r, row⟩ := exists_row_of_issues issues
  have here := atRow_of_issues row issues
  obtain ⟨f, arm⟩ := exec_isIssue (s := s) row (by simp [here.prog, here.own])
  rw [arm, State.vyIssue_issues here, if_pos failed]

end Sys2Proof.Safety
end

section
/-! PROOF. What every operation of the machine leaves of the queue of waiting commands: only `step` takes a command from it
(assumption 4). These laws stand beside those of `Kept`, which speak only of states that keep the invariant. -/
namespace Sys2Proof.Machine
open Sys2Proof.Safety

/-- A queue of waiting commands is `q`. -/
def IsQueue (q pending : List Instr) : Prop := pending = q

/-- The queue of waiting commands is `q`. -/
def Queued (q : List Instr) (s : State) : Prop := IsQueue q s.pending

@[simp] theorem IsQueue.of {kq s} (h : Queued kq s) : IsQueue kq s.pending := h

@[simp] theorem queued_mk {kq a b c d e f g h i j k l m o p r t u v w x y z} :
    Queued kq (State.mk a b c d e f g h i j k l m o p r t u v w x y z) ↔ IsQueue kq a := Iff.rfl

@[simp] theorem Queued.rset {kq s} (a : Nat) (v : Word64) (h : Queued kq s) : Queued kq (s.rset a v) := h

@[simp] theorem Queued.each {kq} {α : Type} {l : List α} {f : State → α → State} {s : State}
    (hf : ∀ s x, Queued kq s → Queued kq (f s x)) (h : Queued kq s) : Queued kq (s.each l f) := by
  exact List.foldlRecOn (motive := Queued kq) l f h (fun s hs x _ => hf s x hs)

@[simp] theorem Queued.ite {kq} {c : Prop} [Decidable c] {a b : State} (ha : Queued kq a) (hb : Queued kq b) :
    Queued kq (if c then a else b) := by split <;> assumption

theorem Queued.foldFst {kq} {α β : Type} {l : List β} {f : State × α → β → State × α} {a : State × α}
    (hf : ∀ a b, Queued kq a.1 → Queued kq (f a b).1) (h : Queued kq a.1) : Queued kq (l.foldl f a).1 :=
  List.foldlRecOn (motive := fun a => Queued kq a.1) l f h (fun a ha b _ => hf a b ha)

theorem Queued.fold {kq} {β : Type} {l : List β} {f : State → β → State} {a : State}
    (hf : ∀ a b, Queued kq a → Queued kq (f a b)) (h : Queued kq a) : Queued kq (l.foldl f a) :=
  List.foldlRecOn (motive := Queued kq) l f h (fun a ha b _ => hf a b ha)

@[simp] theorem Queued.fset {kq} (s : State) (a : Nat) (f : Bits) (v : Nat) (hs : Queued kq s) : Queued kq (State.fset s a f v) := by
  unfold State.fset; simp [hs]

@[simp] theorem Queued.fadd {kq} (s : State) (a : Nat) (f : Bits) (n : Nat) (hs : Queued kq s) : Queued kq (State.fadd s a f n) := by
  unfold State.fadd; simp [hs]

@[simp] theorem Queued.bump {kq} (s : State) (hs : Queued kq s) : Queued kq (State.bump s) := by
  unfold State.bump; simp [hs]

@[simp] theorem Queued.emit {kq} (s : State) (o : Output) (hs : Queued kq s) : Queued kq (State.emit s o) := by
  unfold State.emit; simp [hs]

@[simp] theorem Queued.setOwner {kq} (s : State) (res o : Nat) (hs : Queued kq s) : Queued kq (State.setOwner s res o) := by
  unfold State.setOwner; simp [hs]

@[simp] theorem Queued.notOwner {kq} (s : State) (m : Master) (hs : Queued kq s) : Queued kq (State.notOwner s m) := by
  unfold State.notOwner; simp [hs]

@[simp] theorem Queued.badAccess {kq} (s : State) (m : Master) (hs : Queued kq s) : Queued kq (State.badAccess s m) := by
  unfold State.badAccess; simp [hs]

@[simp] theorem Queued.denied {kq} (s : State) (hs : Queued kq s) : Queued kq (State.denied s) := by
  unfold State.denied; simp [hs]

@[simp] theorem Queued.hostRead {kq} (s : State) (card addr n : Nat) (hs : Queued kq s) : Queued kq (State.hostRead s card addr n) := by
  unfold State.hostRead; simp [hs]

@[simp] theorem Queued.restartTick {kq} (s : State) (k : Nat) (hs : Queued kq s) : Queued kq (State.restartTick s k) := by
  unfold State.restartTick; simp [hs]

@[simp] theorem Queued.shedTick {kq} (s : State) (hs : Queued kq s) : Queued kq (State.shedTick s) := by
  unfold State.shedTick; simp [hs]

@[simp] theorem Queued.logEvent {kq} {s : State} (source code sev unit detail : Nat) (banded : Option Nat) (hs : Queued kq s) :
    Queued kq (s.logEvent source code sev unit detail banded) := by
  have aon (x : Aon) : Queued kq { s with aon := x } := hs
  have noted (x : Aon) (c : Prop) [Decidable c] :
      Queued kq (if c then State.fset { s with aon := x } Reg.shedEvents F.shedEvents_logLost 1 else { s with aon := x }) :=
    Queued.ite (Queued.fset _ _ _ _ (aon x)) (aon x)
  unfold State.logEvent
  exact Queued.ite (Queued.ite (Queued.fset _ _ _ _ (noted _ _)) (noted _ _)) hs

@[simp] theorem Queued.logUnit {kq} (s : State) (source code sev unit : Nat) (detail : Nat) (hs : Queued kq s) : Queued kq (State.logUnit s source code sev unit detail) := by
  unfold State.logUnit; simp [hs]

@[simp] theorem Queued.addPoints {kq} (s : State) (unit n : Nat) (hs : Queued kq s) : Queued kq (State.addPoints s unit n) := by
  unfold State.addPoints; simp [hs]

@[simp] theorem Queued.setPend {kq} (s : State) (card vector v : Nat) (hs : Queued kq s) : Queued kq (State.setPend s card vector v) := by
  unfold State.setPend; simp [hs]

@[simp] theorem Queued.msix {kq} (s : State) (card vector : Nat) (hs : Queued kq s) : Queued kq (State.msix s card vector) := by
  unfold State.msix; simp [hs]

@[simp] theorem Queued.unmask {kq} (s : State) (card vector : Nat) (hs : Queued kq s) : Queued kq (State.unmask s card vector) := by
  unfold State.unmask; split <;> simp [hs]

@[simp] theorem Queued.setLive {kq} (s : State) (port : Nat) (v : Bool) (hs : Queued kq s) : Queued kq (State.setLive s port v) := by
  unfold State.setLive; dsimp only; (repeat' split) <;> simp +contextual (maxDischargeDepth := 60) [*]

@[simp] theorem Queued.resTake {kq} (s : State) (e user : Nat) (hs : Queued kq s) : Queued kq (State.resTake s e user) := by
  unfold State.resTake; simp [hs]

@[simp] theorem Queued.resFree {kq} (s : State) (e : Nat) (hs : Queued kq s) : Queued kq (State.resFree s e) := by
  unfold State.resFree; simp [hs]

@[simp] theorem Queued.setLost {kq} (s : State) (t : Tab Nat) (hs : Queued kq s) : Queued kq (State.setLost s t) := by
  unfold State.setLost; simp [hs]

@[simp] theorem Queued.setJob {kq} (s : State) (j : Nat) (b : Job) (hs : Queued kq s) : Queued kq (State.setJob s j b) := by
  unfold State.setJob; simp [hs]

@[simp] theorem Queued.modJob {kq} (s : State) (j : Nat) (f : Job → Job) (hs : Queued kq s) : Queued kq (State.modJob s j f) := by
  unfold State.modJob; simp [hs]

@[simp] theorem Queued.modCtx {kq} (s : State) (r : Ref) (f : Ctx → Ctx) (hs : Queued kq s) : Queued kq (State.modCtx s r f) := by
  unfold State.modCtx; simp [hs]

@[simp] theorem Queued.endCmd {kq} (s : State) (r : Ref) (st : Nat) (hs : Queued kq s) : Queued kq (State.endCmd s r st) := by
  unfold State.endCmd; simp [hs]

@[simp] theorem Queued.rejectCmd {kq} (s : State) (r : Ref) (st : Nat) (hs : Queued kq s) : Queued kq (State.rejectCmd s r st) := by
  unfold State.rejectCmd; simp [hs]

@[simp] theorem Queued.setRingState {kq} (s : State) (n st : Nat) (hs : Queued kq s) : Queued kq (State.setRingState s n st) := by
  unfold State.setRingState; simp [hs]

@[simp] theorem Queued.haltRing {kq} (s : State) (n cause : Nat) (hs : Queued kq s) : Queued kq (State.haltRing s n cause) := by
  unfold State.haltRing; simp [hs]

@[simp] theorem Queued.setRingX {kq} (s : State) (n : Nat) (x : RingX) (hs : Queued kq s) : Queued kq (State.setRingX s n x) := by
  unfold State.setRingX; simp [hs]

@[simp] theorem Queued.idleRing {kq} (s : State) (n : Nat) (hs : Queued kq s) : Queued kq (State.idleRing s n) := by
  unfold State.idleRing; simp [hs]

@[simp] theorem Queued.countLaunches {kq} (s : State) (hs : Queued kq s) : Queued kq (State.countLaunches s) := by
  unfold State.countLaunches; simp [hs]

@[simp] theorem Queued.accept {kq} (s : State) (ring : Nat) (d : BitVec 512) (hs : Queued kq s) : Queued kq (State.accept s ring d) := by
  unfold State.accept; simp +contextual (maxDischargeDepth := 60) [hs]

@[simp] theorem Queued.hostReadErr {kq} (s : State) (card ring : Nat) (job : Option Nat) (hs : Queued kq s) : Queued kq (State.hostReadErr s card ring job) := by
  unfold State.hostReadErr; simp [hs]

@[simp] theorem Queued.setEvent {kq} (s : State) (e : Nat) (v : Event) (hs : Queued kq s) : Queued kq (State.setEvent s e v) := by
  unfold State.setEvent; simp [hs]

@[simp] theorem Queued.signal {kq} (s : State) (e : Nat) (hs : Queued kq s) : Queued kq (State.signal s e) := by
  unfold State.signal; simp [hs]

@[simp] theorem Queued.ringMsix {kq} (s : State) (n : Nat) (hs : Queued kq s) : Queued kq (State.ringMsix s n) := by
  unfold State.ringMsix; simp [hs]

@[simp] theorem Queued.ringDue {kq} (s : State) (n : Nat) (hs : Queued kq s) : Queued kq (State.ringDue s n) := by
  unfold State.ringDue; simp [hs]

@[simp] theorem Queued.coalesce {kq} (s : State) (n : Nat) (hs : Queued kq s) : Queued kq (State.coalesce s n) := by
  unfold State.coalesce; simp +contextual (maxDischargeDepth := 60) [hs]

@[simp] theorem Queued.writeCpl {kq} (s : State) (h : HeldCpl) (hs : Queued kq s) : Queued kq (State.writeCpl s h) := by
  unfold State.writeCpl; (repeat' split) <;> simp +contextual (maxDischargeDepth := 60) [hs]

@[simp] theorem Queued.deliver {kq} (s : State) (h : HeldCpl) (hs : Queued kq s) : Queued kq (State.deliver s h) := by
  unfold State.deliver; simp [hs]

theorem Queued.stepClose {kq} (s : State) (c : Ctx) (hs : Queued kq s) : Queued kq (s.stepClose c).1 := by
  unfold State.stepClose
  dsimp only
  split <;> simp +contextual (maxDischargeDepth := 60) [hs]

@[simp] theorem Queued.fetchClose {kq} (s : State) (c : Ctx) (hs : Queued kq s) : Queued kq (State.fetchClose s c) := by
  unfold State.fetchClose; split <;> simp [hs]

@[simp] theorem Queued.parkClose {kq} (s : State) (c : Ctx) (hs : Queued kq s) : Queued kq (State.parkClose s c) := by
  unfold State.parkClose; simp [hs]

@[simp] theorem Queued.checkpointOff {kq} (s : State) (j : Nat) (hs : Queued kq s) : Queued kq (State.checkpointOff s j) := by
  unfold State.checkpointOff; simp [hs]

@[simp] theorem Queued.checkpointClose {kq} (s : State) (c : Ctx) (hs : Queued kq s) : Queued kq (State.checkpointClose s c) := by
  unfold State.checkpointClose; simp [hs]

@[simp] theorem Queued.rewait {kq} (s : State) (hs : Queued kq s) : Queued kq (State.rewait s) := by
  unfold State.rewait; simp [hs]

@[simp] theorem Queued.eventSet {kq} (s : State) (x : EvSet) (count target : Nat) (hs : Queued kq s) : Queued kq (State.eventSet s x count target) := by
  unfold State.eventSet; simp +contextual (maxDischargeDepth := 60) [hs]

@[simp] theorem Queued.nopClose {kq} (s : State) (c : Ctx) (hs : Queued kq s) : Queued kq (State.nopClose s c) := by
  unfold State.nopClose; simp [hs]

@[simp] theorem Queued.complete {kq} (s : State) (c : Ctx) (hs : Queued kq s) : Queued kq (State.complete s c) := by
  unfold State.complete
  have h1 : Queued kq (((((s.nopClose c).fetchClose c).parkClose c).checkpointClose c).stepClose (s.launchClose c)).1 :=
    Queued.stepClose _ _ (Queued.checkpointClose _ _ (Queued.parkClose _ _ (Queued.fetchClose _ _ (Queued.nopClose _ _ hs))))
  generalize ((((s.nopClose c).fetchClose c).parkClose c).checkpointClose c).stepClose (s.launchClose c) = a at h1
  obtain ⟨s', c'⟩ := a
  dsimp only at h1 ⊢
  have hx : ∀ (t : State) x, Queued kq t → Queued kq { t with xb := x } := fun _ _ h => h
  refine Queued.ite (Queued.idleRing _ _ (Queued.ite (hx _ _ ?_) ?_)) (Queued.ite (hx _ _ ?_) ?_) <;> simp +contextual (maxDischargeDepth := 60) [h1]

@[simp] theorem Queued.ringDoorbell {kq} (s : State) (n : Nat) (half : Half) (v : Word64) (hs : Queued kq s) : Queued kq (State.ringDoorbell s n half v) := by
  unfold State.ringDoorbell; (repeat' split) <;> simp +contextual (maxDischargeDepth := 60) [hs]

@[simp] theorem Queued.ringConfig {kq} (s : State) (n : Nat) (v : Word32) (hs : Queued kq s) : Queued kq (State.ringConfig s n v) := by
  unfold State.ringConfig; split <;> simp [hs]

@[simp] theorem Queued.startRing {kq} (s : State) (n : Nat) (hs : Queued kq s) : Queued kq (State.startRing s n) := by
  unfold State.startRing; simp +contextual (maxDischargeDepth := 60) [hs]

@[simp] theorem Queued.flushHeld {kq} (s : State) (hs : Queued kq s) : Queued kq (State.flushHeld s) := by
  unfold State.flushHeld; simp +contextual (maxDischargeDepth := 60) [hs]

@[simp] theorem Queued.launchEnd {kq} (s : State) (x : Ctx) (st : Nat) (sig : Bool) (hs : Queued kq s) : Queued kq (State.launchEnd s x st sig) := by
  unfold State.launchEnd; simp +contextual (maxDischargeDepth := 60) [hs]

@[simp] theorem Queued.launchFire {kq} (s : State) (x : Ctx) (st : Nat) (hs : Queued kq s) : Queued kq (State.launchFire s x st) := by
  unfold State.launchFire; simp [hs]

@[simp] theorem Queued.countAt {kq} (s : State) (reg : Nat → Nat) (io n : Nat) (hs : Queued kq s) : Queued kq (State.countAt s reg io n) := by
  unfold State.countAt; simp [hs]

@[simp] theorem Queued.telemDrops {kq} (s : State) (io n : Nat) (hs : Queued kq s) : Queued kq (State.telemDrops s io n) := by
  unfold State.telemDrops; simp [hs]

@[simp] theorem Queued.modPk {kq} (s : State) (pid : Nat) (f : Pk → Pk) (hs : Queued kq s) : Queued kq (State.modPk s pid f) := by
  unfold State.modPk; simp [hs]

@[simp] theorem Queued.modCopy {kq} (s : State) (id : Nat) (f : Copy → Copy) (hs : Queued kq s) : Queued kq (State.modCopy s id f) := by
  unfold State.modCopy; simp [hs]

@[simp] theorem Queued.setPoolFree {kq} (s : State) (die pool n : Nat) (hs : Queued kq s) : Queued kq (State.setPoolFree s die pool n) := by
  unfold State.setPoolFree; simp [hs]

@[simp] theorem Queued.poolQueue {kq} (s : State) (die pool : Nat) (u : PoolUse) (hs : Queued kq s) : Queued kq (State.poolQueue s die pool u) := by
  unfold State.poolQueue; simp [hs]

@[simp] theorem Queued.askBuffer {kq} (s : State) (n : Nat) (u : PoolUse) (go : State → Nat → Nat → State)
    (hgo : ∀ s a b, Queued kq s → Queued kq (go s a b)) (hs : Queued kq s) : Queued kq (State.askBuffer s n u go) := by
  unfold State.askBuffer
  split
  · exact hs
  · exact Queued.ite (by simp [hs]) (hgo _ _ _ (by simp [hs]))

@[simp] theorem Queued.mirrorWrite {kq} (s : State) (n : Nat) (k : Pk) (ev reason out hdr : Nat) (hs : Queued kq s) : Queued kq (State.mirrorWrite s n k ev reason out hdr) := by
  unfold State.mirrorWrite; simp +contextual (maxDischargeDepth := 60) [hs]

theorem Queued.mirrorOne {kq} (ev reason out hdr : Nat) (a : State × Pk) (n : Nat) (hs : Queued kq a.1) :
    Queued kq (State.mirrorOne ev reason out hdr a n).1 := by
  unfold State.mirrorOne
  dsimp only
  (repeat' split) <;> simp +contextual (maxDischargeDepth := 60) [hs]

theorem Queued.mirror {kq} (s : State) (k : Pk) (ev reason out hdr : Nat) (hs : Queued kq s) :
    Queued kq (s.mirror k ev reason out hdr).1 := by
  unfold State.mirror
  exact Queued.foldFst (fun a n h => Queued.mirrorOne ev reason out hdr a n h) hs

@[simp] theorem Queued.mirrorAt {kq} (s : State) (pid ev reason out : Nat) (hs : Queued kq s) : Queued kq (s.mirrorAt pid ev reason out) := by
  unfold State.mirrorAt
  split
  · exact hs
  · exact Queued.modPk _ _ _ (Queued.mirror _ _ _ _ _ _ hs)

@[simp] theorem Queued.mirrorTaken {kq} (s : State) (reason : Nat) (hs : Queued kq s) : Queued kq (s.mirrorTaken reason) := by
  unfold State.mirrorTaken
  split
  · exact hs
  · exact Queued.mirror s _ 2 reason inEngines _ hs

@[simp] theorem Queued.generated {kq} (s : State) (p : Packet) (unit : Nat) (hs : Queued kq s) : Queued kq (State.generated s p unit) := by
  unfold State.generated; simp [hs]

@[simp] theorem Queued.takeBuffer {kq} (s : State) (p : Packet) (unit die pool : Nat) (hs : Queued kq s) : Queued kq (State.takeBuffer s p unit die pool) := by
  unfold State.takeBuffer; simp +contextual (maxDischargeDepth := 60) [hs]

@[simp] theorem Queued.sendUnit {kq} (s : State) (p : Packet) (unit : Nat) (hs : Queued kq s) : Queued kq (State.sendUnit s p unit) := by
  unfold State.sendUnit
  exact Queued.ite (by simp [hs]) (Queued.askBuffer _ _ _ _ (fun s a b h => by simp [h]) hs)

@[simp] theorem Queued.send {kq} (s : State) (p : Packet) (hs : Queued kq s) : Queued kq (State.send s p) := by
  unfold State.send; simp [hs]

@[simp] theorem Queued.setOp {kq} (s : State) (o : Op) (hs : Queued kq s) : Queued kq (State.setOp s o) := by
  unfold State.setOp; simp [hs]

@[simp] theorem Queued.late {kq} (s : State) (p : Packet) (hs : Queued kq s) : Queued kq (State.late s p) := by
  unfold State.late; simp [hs]

@[simp] theorem Queued.downDrop {kq} (s : State) (port n : Nat) (hs : Queued kq s) : Queued kq (State.downDrop s port n) := by
  unfold State.downDrop; simp [hs]

@[simp] theorem Queued.setLink {kq} (s : State) (l : Nat) (x : Link) (hs : Queued kq s) : Queued kq (State.setLink s l x) := by
  unfold State.setLink; simp [hs]

@[simp] theorem Queued.poolFault {kq} (s : State) (code die pool no job engine : Nat) (hs : Queued kq s) : Queued kq (State.poolFault s code die pool no job engine) := by
  unfold State.poolFault; simp [hs]

@[simp] theorem Queued.countFault {kq} (s : State) (k : Pk) (i code : Nat) (hs : Queued kq s) : Queued kq (State.countFault s k i code) := by
  unfold State.countFault; simp [hs]

@[simp] theorem Queued.holdPk {kq} (s : State) (pid : Nat) (hs : Queued kq s) : Queued kq (State.holdPk s pid) := by
  unfold State.holdPk; (repeat' split) <;> simp [hs]

@[simp] theorem Queued.releaseCell {kq} (s : State) (pid i : Nat) (hs : Queued kq s) : Queued kq (State.releaseCell s pid i) := by
  unfold State.releaseCell; (repeat' split) <;> simp [hs]

@[simp] theorem Queued.releaseFrom {kq} (s : State) (pid i : Nat) (hs : Queued kq s) : Queued kq (State.releaseFrom s pid i) := by
  unfold State.releaseFrom
  split
  · exact hs
  · exact Queued.each (fun s x h => by simp [h]) hs

@[simp] theorem Queued.releaseBuffer {kq} (s : State) (p : Packet) (hs : Queued kq s) : Queued kq (State.releaseBuffer s p) := by
  unfold State.releaseBuffer; (repeat' split) <;> simp [hs]

@[simp] theorem Queued.freeCells {kq} (s : State) (die n : Nat) (hs : Queued kq s) : Queued kq (State.freeCells s die n) := by
  unfold State.freeCells; simp [hs]

@[simp] theorem Queued.creditBack {kq} (s : State) (l cls n : Nat) (hs : Queued kq s) : Queued kq (State.creditBack s l cls n) := by
  unfold State.creditBack; simp [hs]

@[simp] theorem Queued.cellsGone {kq} (s : State) (k : Pk) (n : Nat) (hs : Queued kq s) : Queued kq (State.cellsGone s k n) := by
  unfold State.cellsGone; split <;> simp [hs]

@[simp] theorem Queued.settlePk {kq} (s : State) (pid : Nat) (hs : Queued kq s) : Queued kq (State.settlePk s pid) := by
  unfold State.settlePk; (repeat' split) <;> simp +contextual (maxDischargeDepth := 60) [hs]

@[simp] theorem Queued.dropCopy {kq} (s : State) (c : Copy) (hs : Queued kq s) : Queued kq (State.dropCopy s c) := by
  unfold State.dropCopy; (repeat' split) <;> simp +contextual (maxDischargeDepth := 60) [hs]

@[simp] theorem Queued.taken {kq} (s : State) (p : Packet) (hs : Queued kq s) : Queued kq (State.taken s p) := by
  unfold State.taken; dsimp only; (repeat' split) <;> simp +contextual (maxDischargeDepth := 60) [*]

@[simp] theorem Queued.holdValues {kq} (s : State) (port : Nat) (p : Packet) (l : List BedVal) (hs : Queued kq s) : Queued kq (State.holdValues s port p l) := by
  unfold State.holdValues; simp [hs]

@[simp] theorem Queued.queueValues {kq} (s : State) (port : Nat) (p : Packet) (l : List BedVal) (hs : Queued kq s) : Queued kq (State.queueValues s port p l) := by
  unfold State.queueValues; (repeat' split) <;> simp [hs]

@[simp] theorem Queued.atStop {kq} (s : State) (k : Pk) (hs : Queued kq s) : Queued kq (State.atStop s k) := by
  unfold State.atStop; simp [hs]

@[simp] theorem Queued.withdraw {kq} (s : State) (o : Op) (hs : Queued kq s) : Queued kq (State.withdraw s o) := by
  unfold State.withdraw; simp +contextual (maxDischargeDepth := 60) [hs]

@[simp] theorem Queued.freeSlots {kq} (s : State) (o : Op) (hs : Queued kq s) : Queued kq (State.freeSlots s o) := by
  unfold State.freeSlots; simp +contextual (maxDischargeDepth := 60) [hs]

@[simp] theorem Queued.finishOp {kq} (s : State) (o : Op) (st : Nat) (hs : Queued kq s) : Queued kq (State.finishOp s o st) := by
  unfold State.finishOp; simp [hs]

@[simp] theorem Queued.control {kq} (s : State) (o : Op) (sub dest : Nat) (payload : Bytes) (hs : Queued kq s) : Queued kq (State.control s o sub dest payload) := by
  unfold State.control; simp [hs]

@[simp] theorem Queued.readyPort {kq} (s : State) (o : Op) (sub port : Nat) (hs : Queued kq s) : Queued kq (State.readyPort s o sub port) := by
  unfold State.readyPort; simp [hs]

@[simp] theorem Queued.readyNotices {kq} (s : State) (o : Op) (sub : Nat) (hs : Queued kq s) : Queued kq (State.readyNotices s o sub) := by
  unfold State.readyNotices; simp +contextual (maxDischargeDepth := 60) [hs]

@[simp] theorem Queued.abortNotices {kq} (s : State) (o : Op) (st coord : Nat) (src : AbortFrom) (hs : Queued kq s) : Queued kq (State.abortNotices s o st coord src) := by
  unfold State.abortNotices; (repeat' split) <;> simp +contextual (maxDischargeDepth := 60) [hs]

@[simp] theorem Queued.abortOp {kq} (s : State) (o : Op) (st : Nat) (src : AbortFrom) (origin : Option (Nat × Nat)) (hs : Queued kq s) : Queued kq (State.abortOp s o st src origin) := by
  unfold State.abortOp; simp +contextual (maxDischargeDepth := 60) [hs]

@[simp] theorem Queued.abortOwn {kq} (s : State) (o : Op) (st : Nat) (hs : Queued kq s) : Queued kq (State.abortOwn s o st) := by
  unfold State.abortOwn; simp [hs]

@[simp] theorem Queued.endNorm {kq} (s : State) (r : NormRun) (hs : Queued kq s) : Queued kq (State.endNorm s r) := by
  unfold State.endNorm; simp [hs]

@[simp] theorem Queued.failNorm {kq} (s : State) (r : NormRun) (st : Nat) (hs : Queued kq s) : Queued kq (State.failNorm s r st) := by
  unfold State.failNorm; simp [hs]

@[simp] theorem Queued.bufferCell {kq} (s : State) (port : Nat) (p : Packet) (hs : Queued kq s) : Queued kq (State.bufferCell s port p) := by
  unfold State.bufferCell; (repeat' split) <;> simp +contextual (maxDischargeDepth := 60) [hs]

theorem Queued.arrive {kq} (s : State) (port : Nat) (p : Packet) (f : State → State)
    (hf : ∀ s, Queued kq s → Queued kq (f s)) (hs : Queued kq s) : Queued kq (s.arrive port p f) := by
  unfold State.arrive
  dsimp only
  repeat' split
  · simp [hs]
  · simp (maxDischargeDepth := 60) [hs]
  · exact hf _ (by simp [hs])

@[simp] theorem Queued.fenceOp {kq} (s : State) (member : Nat) (o : Op) (hs : Queued kq s) : Queued kq (State.fenceOp s member o) := by
  unfold State.fenceOp; simp [hs]

@[simp] theorem Queued.queueTagged {kq} (s : State) (c : Ref) (fail : Option Nat) (hs : Queued kq s) : Queued kq (State.queueTagged s c fail) := by
  unfold State.queueTagged; split <;> simp [hs]

@[simp] theorem Queued.stampEligible {kq} (s : State) (hs : Queued kq s) : Queued kq (State.stampEligible s) := by
  unfold State.stampEligible; simp [hs]

@[simp] theorem Queued.spillCheck {kq} (s : State) (h : Held) (hs : Queued kq s) : Queued kq (State.spillCheck s h) := by
  unfold State.spillCheck; simp +contextual (maxDischargeDepth := 60) [hs]

@[simp] theorem Queued.spill {kq} (s : State) (h : Held) (hs : Queued kq s) : Queued kq (State.spill s h) := by
  unfold State.spill
  exact Queued.bump _ (Queued.modJob _ _ _ (Queued.spillCheck s h hs))

theorem Queued.spillUntil {kq} (n : Nat) (l : List Held) (s : State) (hs : Queued kq s) : Queued kq (State.spillUntil n l s) := by
  induction l generalizing s with
  | nil => exact hs
  | cons x l ih =>
    unfold State.spillUntil
    split
    · exact hs
    · exact ih _ (Queued.spill s x hs)

theorem Queued.makeRoom {kq} {s t : State} {n : Nat} (hs : Queued kq s) (h : s.makeRoom n = some t) : Queued kq t := by
  unfold State.makeRoom at h
  dsimp only at h
  split at h
  · cases h; exact Queued.spillUntil n _ s hs
  · cases h

@[simp] theorem Queued.dropHeld {kq} (s : State) (h : Held) (hs : Queued kq s) : Queued kq (State.dropHeld s h) := by
  unfold State.dropHeld; simp [hs]

@[simp] theorem Queued.settleData {kq} (s : State) (job tag : Nat) (hs : Queued kq s) : Queued kq (State.settleData s job tag) := by
  unfold State.settleData; split <;> simp [hs]

@[simp] theorem Queued.staleCells {kq} (s : State) (o : Op) (n : Nat) (hs : Queued kq s) : Queued kq (State.staleCells s o n) := by
  unfold State.staleCells; simp [hs]

@[simp] theorem Queued.foreignCells {kq} (s : State) (o : Op) (p : Packet) (hs : Queued kq s) : Queued kq (State.foreignCells s o p) := by
  unfold State.foreignCells; simp [hs]

@[simp] theorem Queued.strayCells {kq} (s : State) (p : Packet) (hs : Queued kq s) : Queued kq (State.strayCells s p) := by
  unfold State.strayCells; simp [hs]

@[simp] theorem Queued.bedFault {kq} (s : State) (src code bed points : Nat) (o : Op) (hs : Queued kq s) : Queued kq (State.bedFault s src code bed points o) := by
  unfold State.bedFault; simp +contextual (maxDischargeDepth := 60) [hs]

@[simp] theorem Queued.bedUpset {kq} (s : State) (u : Upset) (code bed : Nat) (o : Op) (hs : Queued kq s) : Queued kq (State.bedUpset s u code bed o) := by
  unfold State.bedUpset; (repeat' split) <;> simp +contextual (maxDischargeDepth := 60) [hs]

@[simp] theorem Queued.stripeTaken {kq} (s : State) (o : Op) (k : Nat) (hs : Queued kq s) : Queued kq (State.stripeTaken s o k) := by
  unfold State.stripeTaken; simp [hs]

@[simp] theorem Queued.xpFault {kq} (s : State) (o : Op) (k src : Nat) (hs : Queued kq s) : Queued kq (State.xpFault s o k src) := by
  unfold State.xpFault; simp +contextual (maxDischargeDepth := 60) [hs]

@[simp] theorem Queued.sendChunk {kq} (s : State) (o : Op) (j : Nat) (hs : Queued kq s) : Queued kq (State.sendChunk s o j) := by
  unfold State.sendChunk; simp +contextual (maxDischargeDepth := 60) [hs]

@[simp] theorem Queued.chunkUpset {kq} (s : State) (u : Upset) (code : Nat) (o : Op) (j : Nat) (hs : Queued kq s) : Queued kq (State.chunkUpset s u code o j) := by
  unfold State.chunkUpset; simp [hs]

@[simp] theorem Queued.sendResult {kq} (s : State) (o : Op) (a n : Nat) (last : Bool) (member : Option Nat) (hs : Queued kq s) : Queued kq (State.sendResult s o a n last member) := by
  unfold State.sendResult; dsimp only; (repeat' split) <;> simp +contextual (maxDischargeDepth := 60) [*]

@[simp] theorem Queued.sendRun {kq} (s : State) (o : Op) (a n : Nat) (ends : Bool) (member : Option Nat) (hs : Queued kq s) : Queued kq (State.sendRun s o a n ends member) := by
  unfold State.sendRun; simp +contextual (maxDischargeDepth := 60) [hs]

@[simp] theorem Queued.readout {kq} (s : State) (o : Op) (j : Nat) (hs : Queued kq s) : Queued kq (s.readout o j) := by
  unfold State.readout
  dsimp only
  repeat' split
  · simp [hs]
  · refine Queued.each (fun s x h => ?_) hs
    split <;> simp [h]
  · exact hs

@[simp] theorem Queued.rootDone {kq} (s : State) (o : Op) (hs : Queued kq s) : Queued kq (State.rootDone s o) := by
  unfold State.rootDone; simp +contextual (maxDischargeDepth := 60) [hs]

@[simp] theorem Queued.evalDeadline {kq} (s : State) (o : Op) (hs : Queued kq s) : Queued kq (State.evalDeadline s o) := by
  unfold State.evalDeadline; simp [hs]

@[simp] theorem Queued.deadlines {kq} (s : State) (hs : Queued kq s) : Queued kq (State.deadlines s) := by
  unfold State.deadlines
  refine Queued.each (fun s x h => ?_) hs
  (repeat' split) <;> simp [h]

@[simp] theorem Queued.keepCounts {kq} (s : State) (p : Packet) (hs : Queued kq s) : Queued kq (State.keepCounts s p) := by
  unfold State.keepCounts; simp [hs]

@[simp] theorem Queued.foreignData {kq} (s : State) (o : Op) (p : Packet) (hs : Queued kq s) : Queued kq (State.foreignData s o p) := by
  unfold State.foreignData; simp [hs]

theorem Queued.acceptData {kq} (s : State) (o : Op) (port n : Nat) (f : State → Op → State)
    (hf : ∀ s o, Queued kq s → Queued kq (f s o)) (hs : Queued kq s) : Queued kq (s.acceptData o port n f) := by
  unfold State.acceptData
  dsimp only
  split
  · simp +contextual (maxDischargeDepth := 60) [hs]
  · exact hf _ _ (by simp +contextual (maxDischargeDepth := 60) [hs])

@[simp] theorem Queued.sendData {kq} (s : State) (o : Op) (toPart dest offset member sub : Nat) (payload : Bytes) (hs : Queued kq s) : Queued kq (State.sendData s o toPart dest offset member sub payload) := by
  unfold State.sendData; simp [hs]

@[simp] theorem Queued.sendGather {kq} (s : State) (job tag a n : Nat) (b : Bytes) (c : Cnt) (hs : Queued kq s) : Queued kq (State.sendGather s job tag a n b c) := by
  unfold State.sendGather; split <;> simp [hs]

@[simp] theorem Queued.gatherOn {kq} (s : State) (o : Op) (a n : Nat) (b : Bytes) (hs : Queued kq s) : Queued kq (State.gatherOn s o a n b) := by
  unfold State.gatherOn; simp +contextual (maxDischargeDepth := 60) [hs]

@[simp] theorem Queued.sendTables {kq} (s : State) (o : Op) (hs : Queued kq s) : Queued kq (s.sendTables o) := by
  unfold State.sendTables
  refine Queued.each (fun s p h => ?_) hs
  split <;> simp +contextual (maxDischargeDepth := 60) [h]

@[simp] theorem Queued.permuteReady {kq} (s : State) (job tag : Nat) (hs : Queued kq s) : Queued kq (State.permuteReady s job tag) := by
  unfold State.permuteReady; (repeat' split) <;> simp +contextual (maxDischargeDepth := 60) [hs]

@[simp] theorem Queued.countsHere {kq} (s : State) (o : Op) (hs : Queued kq s) : Queued kq (State.countsHere s o) := by
  unfold State.countsHere; simp +contextual (maxDischargeDepth := 60) [hs]

@[simp] theorem Queued.countsIn {kq} (s : State) (job tag : Nat) (port : Option Nat) (p : Packet) (hs : Queued kq s) : Queued kq (State.countsIn s job tag port p) := by
  unfold State.countsIn; (repeat' split) <;> simp +contextual (maxDischargeDepth := 60) [hs]

@[simp] theorem Queued.landRow {kq} (s : State) (job tag i r lo : Nat) (b : Bytes) (hs : Queued kq s) : Queued kq (State.landRow s job tag i r lo b) := by
  unfold State.landRow; dsimp only; (repeat' split) <;> simp +contextual (maxDischargeDepth := 60) [*]

@[simp] theorem Queued.landRows {kq} (s : State) (o : Op) (p : Packet) (hs : Queued kq s) : Queued kq (State.landRows s o p) := by
  unfold State.landRows; simp +contextual (maxDischargeDepth := 60) [hs]

@[simp] theorem Queued.takeIn {kq} (s : State) (x : Ctx) (place : List Nat) (hs : Queued kq s) : Queued kq (State.takeIn s x place) := by
  unfold State.takeIn; simp +contextual (maxDischargeDepth := 60) [hs]

@[simp] theorem Queued.admitSieve {kq} (s : State) (x : Ctx) (place : List Nat) (hs : Queued kq s) : Queued kq (State.admitSieve s x place) := by
  unfold State.admitSieve; simp +contextual (maxDischargeDepth := 60) [hs]

@[simp] theorem Queued.logHbm {kq} (s : State) (code job gen : Nat) (sectors : List Nat) (hs : Queued kq s) : Queued kq (State.logHbm s code job gen sectors) := by
  unfold State.logHbm; simp [hs]

@[simp] theorem Queued.normSend {kq} (s : State) (r : NormRun) (sub dest : Nat) (payload : Bytes) (hs : Queued kq s) : Queued kq (State.normSend s r sub dest payload) := by
  unfold State.normSend; simp [hs]

@[simp] theorem Queued.normSecond {kq} (s : State) (r : NormRun) (hs : Queued kq s) : Queued kq (State.normSecond s r) := by
  unfold State.normSecond; simp +contextual (maxDischargeDepth := 60) [hs]

@[simp] theorem Queued.normDone {kq} (s : State) (r : NormRun) (hs : Queued kq s) : Queued kq (State.normDone s r) := by
  unfold State.normDone; simp +contextual (maxDischargeDepth := 60) [hs]

@[simp] theorem Queued.normGo {kq} (s : State) (ring idx : Nat) (hs : Queued kq s) : Queued kq (State.normGo s ring idx) := by
  unfold State.normGo; dsimp only; (repeat' split) <;> simp +contextual (maxDischargeDepth := 60) [*]

@[simp] theorem Queued.rejectChecked {kq} (s : State) (c : Ref) (j gen st : Nat) (sectors : List Nat) (hs : Queued kq s) :
    Queued kq (State.rejectChecked s c j gen st sectors) := by
  unfold State.rejectChecked; split <;> simp [hs]

@[simp] theorem Queued.releaseGrads {kq} (s : State) (job tensor gen : Nat) (hs : Queued kq s) : Queued kq (State.releaseGrads s job tensor gen) := by
  unfold State.releaseGrads; simp +contextual (maxDischargeDepth := 60) [hs]

@[simp] theorem Queued.slotLost {kq} (s : State) (bed job gen : Nat) (hs : Queued kq s) : Queued kq (State.slotLost s bed job gen) := by
  unfold State.slotLost; simp [hs]

@[simp] theorem Queued.gradLost {kq} (s : State) (c : Ref) (h : Held) (hs : Queued kq s) : Queued kq (State.gradLost s c h) := by
  unfold State.gradLost; simp +contextual (maxDischargeDepth := 60) [hs]

@[simp] theorem Queued.normStart {kq} (s : State) (x : Ctx) (hs : Queued kq s) : Queued kq (State.normStart s x) := by
  unfold State.normStart; simp +contextual (maxDischargeDepth := 60) [hs]

@[simp] theorem Queued.heldResidue {kq} (s : State) (l : List Held) (u : Upset) (job gen : Nat) (hs : Queued kq s) : Queued kq (State.heldResidue s l u job gen) := by
  unfold State.heldResidue; simp +contextual (maxDischargeDepth := 60) [hs]

@[simp] theorem Queued.partFault {kq} (s : State) (job gen : Nat) (hs : Queued kq s) : Queued kq (State.partFault s job gen) := by
  unfold State.partFault; dsimp only; simp +contextual (maxDischargeDepth := 60) [hs]

@[simp] theorem Queued.normTake {kq} (s : State) (p : Packet) (m : NormMsg) (hs : Queued kq s) : Queued kq (State.normTake s p m) := by
  unfold State.normTake; simp +contextual (maxDischargeDepth := 60) [hs]

theorem Queued.stepTensor {kq} (x : Ctx) (n : NormRes) (a : State × StepRun) (e : Nat × Rec) (hs : Queued kq a.1) :
    Queued kq (State.stepTensor x n a e).1 := by
  unfold State.stepTensor
  dsimp only
  (repeat' split) <;> simp +contextual (maxDischargeDepth := 60) [hs]

@[simp] theorem Queued.passTensor {kq} (gen job : Nat) (s : State) (e : Nat × Rec) (hs : Queued kq s) : Queued kq (State.passTensor gen job s e) := by
  unfold State.passTensor; simp [hs]

@[simp] theorem Queued.sendStats {kq} (x : Ctx) (n : NormRes) (s : State) (e : Nat × Rec) (hs : Queued kq s) : Queued kq (State.sendStats x n s e) := by
  unfold State.sendStats; simp +contextual (maxDischargeDepth := 60) [hs]

@[simp] theorem Queued.sendRows {kq} (x : Ctx) (n : NormRes) (s : State) (e : Nat × Rec) (hs : Queued kq s) : Queued kq (State.sendRows x n s e) := by
  unfold State.sendRows; simp +contextual (maxDischargeDepth := 60) [hs]

@[simp] theorem Queued.stepEnd {kq} (s : State) (x : Ctx) (n : NormRes) (st outcome : Nat) (sc clip : Nat) (r : StepRun) (hs : Queued kq s) : Queued kq (State.stepEnd s x n st outcome sc clip r) := by
  unfold State.stepEnd; simp [hs]

@[simp] theorem Queued.uncoverLost {kq} (s : State) (j : Nat) (e : Nat × Rec) (hs : Queued kq s) : Queued kq (State.uncoverLost s j e) := by
  unfold State.uncoverLost; dsimp only; (repeat' split) <;> simp +contextual (maxDischargeDepth := 60) [*]

@[simp] theorem Queued.stepFault {kq} (s : State) (j gen st : Nat) (r : StepRun) (hs : Queued kq s) : Queued kq (State.stepFault s j gen st r) := by
  unfold State.stepFault; dsimp only; (repeat' split) <;> simp +contextual (maxDischargeDepth := 60) [hs]

@[simp] theorem Queued.stepRun {kq} (s : State) (x : Ctx) (n : NormRes) (fault : Option (Nat × Upset)) (hs : Queued kq s) :
    Queued kq (s.stepRun x n fault) := by
  unfold State.stepRun
  dsimp only
  split
  · simp +contextual (maxDischargeDepth := 60) [hs]
  · generalize ha : List.foldl (State.stepTensor x n) _ _ = a
    have h1 : Queued kq a.1 := ha ▸ Queued.foldFst (fun a b h => Queued.stepTensor x n a b h) (by simp +contextual (maxDischargeDepth := 60) [hs])
    clear ha
    (repeat' split) <;> simp +contextual (maxDischargeDepth := 60) [h1]

@[simp] theorem Queued.stepGo {kq} (s : State) (x : Ctx) (fault : Option (Nat × Upset)) (hs : Queued kq s) :
    Queued kq (s.stepGo x fault) := by
  unfold State.stepGo
  dsimp only
  split
  · simp [hs]
  · split
    · exact hs
    · rename_i n _
      have h0 : Queued kq (if x.phase == .run then s else s.modCtx x.ref (Ctx.start s.now)) := by split <;> simp [hs]
      generalize (if x.phase == .run then s else s.modCtx x.ref (Ctx.start s.now)) = t at h0
      have h1 : ∀ {l}, Queued kq (t.each l (State.sendStats x n)) := Queued.each (fun s e h => Queued.sendStats x n s e h) h0
      have h2 : ∀ {l m}, Queued kq ((t.each l (State.sendStats x n)).each m (State.sendRows x n)) :=
        Queued.each (fun s e h => Queued.sendRows x n s e h) h1
      (repeat' split) <;> simp [h0, h2]

@[simp] theorem Queued.pubTell {kq} (s : State) (x : Ctx) (gen : Nat) (e : Nat × Rec) (hs : Queued kq s) : Queued kq (State.pubTell s x gen e) := by
  unfold State.pubTell; simp +contextual (maxDischargeDepth := 60) [hs]

theorem Queued.pubTensor {kq} (x : Ctx) (gen : Nat) (a : State × PubRun) (e : Nat × Rec) (hs : Queued kq a.1) :
    Queued kq (State.pubTensor x gen a e).1 := by
  unfold State.pubTensor
  refine Queued.foldFst (fun b i hb => ?_) (by simp +contextual (maxDischargeDepth := 60) [hs])
  simp +contextual (maxDischargeDepth := 60) [hb]

@[simp] theorem Queued.pubGo {kq} (s : State) (x : Ctx) (hs : Queued kq s) : Queued kq (s.pubGo x) := by
  unfold State.pubGo
  dsimp only
  (repeat' split)
  · simp +contextual (maxDischargeDepth := 60) [hs]
  · simp +contextual (maxDischargeDepth := 60) [hs]
  · exact hs
  all_goals
    refine Queued.modCtx _ _ _ ?_
    exact Queued.foldFst (fun a b h => Queued.pubTensor x _ a b h) (by simp +contextual (maxDischargeDepth := 60) [hs])

@[simp] theorem Queued.pubBegin {kq} (s : State) (x : Ctx) (hs : Queued kq s) : Queued kq (State.pubBegin s x) := by
  unfold State.pubBegin; simp +contextual (maxDischargeDepth := 60) [hs]

@[simp] theorem Queued.pubAll {kq} (s : State) (j : Nat) (hs : Queued kq s) : Queued kq (State.pubAll s j) := by
  unfold State.pubAll; simp +contextual (maxDischargeDepth := 60) [hs]

@[simp] theorem Queued.parkDone {kq} (s : State) (x : Ctx) (h : Handle) (hs : Queued kq s) : Queued kq (State.parkDone s x h) := by
  unfold State.parkDone; simp [hs]

@[simp] theorem Queued.checkpointGo {kq} (s : State) (x : Ctx) (startTick : Nat) (hs : Queued kq s) : Queued kq (State.checkpointGo s x startTick) := by
  unfold State.checkpointGo; simp +contextual (maxDischargeDepth := 60) [hs]

@[simp] theorem Queued.mend {kq} (s : State) (j : Nat) (wrote : List (Nat × Nat × Nat)) (hs : Queued kq s) :
    Queued kq (s.mend j wrote) := by
  unfold State.mend
  split
  · exact hs
  · exact Queued.fold (fun a b h => by simp [h]) hs

@[simp] theorem Queued.restoreGo {kq} (s : State) (x : Ctx) (img : Bytes) (hs : Queued kq s) : Queued kq (State.restoreGo s x img) := by
  unfold State.restoreGo; dsimp only; (repeat' split) <;> simp +contextual (maxDischargeDepth := 60) [*]

@[simp] theorem Queued.vyEnd {kq} (s : State) (p : VyProg) (st : Nat) (f : Option VyFault) (lib2 : Nat) (hs : Queued kq s) : Queued kq (State.vyEnd s p st f lib2) := by
  unfold State.vyEnd; simp +contextual (maxDischargeDepth := 60) [hs]

@[simp] theorem Queued.toBuffer {kq} (s : State) (job : Nat) (b : VyBuf) (off : Nat) (data : Bytes) (hs : Queued kq s) : Queued kq (State.toBuffer s job b off data) := by
  unfold State.toBuffer; simp +contextual (maxDischargeDepth := 60) [hs]

@[simp] theorem Queued.logBuffer {kq} (s : State) (p : VyProg) (b : VyBuf) (off len : Nat) (hs : Queued kq s) : Queued kq (State.logBuffer s p b off len) := by
  unfold State.logBuffer; simp [hs]

@[simp] theorem Queued.outTransfers {kq} (s : State) (p : VyProg) (hs : Queued kq s) : Queued kq (State.outTransfers s p) := by
  unfold State.outTransfers; simp +contextual (maxDischargeDepth := 60) [hs]

@[simp] theorem Queued.vySettle {kq} (s : State) (p : VyProg) (hs : Queued kq s) : Queued kq (State.vySettle s p) := by
  unfold State.vySettle; dsimp only; (repeat' split) <;> simp +contextual (maxDischargeDepth := 60) [*]

@[simp] theorem Queued.vyTick {kq} (s : State) (hs : Queued kq s) : Queued kq (State.vyTick s) := by
  unfold State.vyTick; split <;> simp [hs]

@[simp] theorem Queued.vyResume {kq} (s : State) (hs : Queued kq s) : Queued kq (State.vyResume s) := by
  unfold State.vyResume; split <;> simp [hs]

@[simp] theorem Queued.vyUpset {kq} (s : State) (p : VyProg) (tile : Nat) (u : Upset) (hs : Queued kq s) : Queued kq (State.vyUpset s p tile u) := by
  unfold State.vyUpset; simp +contextual (maxDischargeDepth := 60) [hs]

@[simp] theorem Queued.vyFault {kq} (s : State) (p : VyProg) (v : VyIns) (pc kind addr : Nat) (tile : Option Nat) (hs : Queued kq s) : Queued kq (State.vyFault s p v pc kind addr tile) := by
  unfold State.vyFault; simp [hs]

@[simp] theorem Queued.telemOff {kq} (s : State) (hs : Queued kq s) : Queued kq (State.telemOff s) := by
  unfold State.telemOff; simp +contextual (maxDischargeDepth := 60) [hs]

@[simp] theorem Queued.mirrorOff {kq} (s : State) (n : Nat) (hs : Queued kq s) : Queued kq (State.mirrorOff s n) := by
  unfold State.mirrorOff; simp +contextual (maxDischargeDepth := 60) [hs]

@[simp] theorem Queued.evict {kq} (s : State) (e : Nat) (hs : Queued kq s) : Queued kq (State.evict s e) := by
  unfold State.evict; simp +contextual (maxDischargeDepth := 60) [hs]

@[simp] theorem Queued.resGrab {kq} (s : State) (e user : Nat) (hs : Queued kq s) : Queued kq (State.resGrab s e user) := by
  unfold State.resGrab; (repeat' split) <;> simp [hs]

@[simp] theorem Queued.mirrorFields {kq} (s : State) (n : Nat) (v : Word32) (hs : Queued kq s) : Queued kq (State.mirrorFields s n v) := by
  unfold State.mirrorFields; simp +contextual (maxDischargeDepth := 60) [hs]

@[simp] theorem Queued.mirrorAfresh {kq} (s : State) (n : Nat) (hs : Queued kq s) : Queued kq (State.mirrorAfresh s n) := by
  unfold State.mirrorAfresh; simp [hs]

@[simp] theorem Queued.sendMap {kq} (s : State) (map : Bytes) (seq : Nat) (hs : Queued kq s) : Queued kq (State.sendMap s map seq) := by
  unfold State.sendMap; simp +contextual (maxDischargeDepth := 60) [hs]

@[simp] theorem Queued.rollTelem {kq} (s : State) (hs : Queued kq s) : Queued kq (State.rollTelem s) := by
  unfold State.rollTelem; simp [hs]

@[simp] theorem Queued.encode {kq} (s : State) (l lane : Nat) (flit : Bytes) (hs : Queued kq s) : Queued kq (State.encode s l lane flit) := by
  unfold State.encode; simp +contextual (maxDischargeDepth := 60) [hs]

@[simp] theorem Queued.putFlit {kq} (s : State) (l lane : Nat) (flit : Bytes) (hs : Queued kq s) : Queued kq (State.putFlit s l lane flit) := by
  unfold State.putFlit; simp [hs]

@[simp] theorem Queued.deal {kq} (s : State) (l : Nat) (idle flit : Bytes) (hs : Queued kq s) : Queued kq (State.deal s l idle flit) := by
  unfold State.deal; simp +contextual (maxDischargeDepth := 60) [hs]

@[simp] theorem Queued.arrived {kq} (s : State) (l lane : Nat) (bad : Bool) (flit : Bytes) (hs : Queued kq s) : Queued kq (State.arrived s l lane bad flit) := by
  unfold State.arrived; simp [hs]

@[simp] theorem Queued.pullFlit {kq} (s : State) (l : Nat) (e : Nat × Bool × Bytes) (hs : Queued kq s) : Queued kq (State.pullFlit s l e) := by
  unfold State.pullFlit; simp [hs]

@[simp] theorem Queued.adaptTap {kq} (s : State) (l : Nat) (x : Nat × Nat × Word32 × Bool) (hs : Queued kq s) : Queued kq (State.adaptTap s l x) := by
  unfold State.adaptTap; simp +contextual (maxDischargeDepth := 60) [hs]

@[simp] theorem Queued.takeTaps {kq} (s : State) (l lane : Nat) (x : LaneTrained) (hs : Queued kq s) : Queued kq (State.takeTaps s l lane x) := by
  unfold State.takeTaps; simp +contextual (maxDischargeDepth := 60) [hs]

theorem Queued.takeId {kq} (s : State) (hs : Queued kq s) : Queued kq s.takeId.2 := hs

@[simp] theorem Queued.capTokens {kq} (s : State) (a : Nat) (hs : Queued kq s) : Queued kq (State.capTokens s a) := by
  unfold State.capTokens; simp +contextual (maxDischargeDepth := 60) [hs]

@[simp] theorem Queued.enterCell {kq} (s : State) (cp : Copy) (cls i d : Nat) (hs : Queued kq s) : Queued kq (State.enterCell s cp cls i d) := by
  unfold State.enterCell; simp +contextual (maxDischargeDepth := 60) [hs]

@[simp] theorem Queued.spendPolice {kq} (s : State) (p c n : Nat) (hs : Queued kq s) : Queued kq (State.spendPolice s p c n) := by
  unfold State.spendPolice; simp [hs]

@[simp] theorem Queued.spendShape {kq} (s : State) (out c : Nat) (hs : Queued kq s) : Queued kq (State.spendShape s out c) := by
  unfold State.spendShape; simp [hs]

@[simp] theorem Queued.telemDropped {kq} (s : State) (k : Pk) (n : Nat) (policed : Bool) (hs : Queued kq s) : Queued kq (State.telemDropped s k n policed) := by
  unfold State.telemDropped; (repeat' split) <;> simp [hs]

@[simp] theorem Queued.dropPk {kq} (s : State) (k : Pk) (reg : Nat → Nat) (reason : Nat) (hs : Queued kq s) :
    Queued kq (s.dropPk k reg reason) := by
  unfold State.dropPk
  have h1 := Queued.mirror s k 2 reason 0x1FF k.hdr0 hs
  generalize s.mirror k 2 reason 0x1FF k.hdr0 = a at h1
  obtain ⟨s', k'⟩ := a
  dsimp only at h1 ⊢
  (repeat' split) <;> simp +contextual (maxDischargeDepth := 60) [h1]

@[simp] theorem Queued.dropPart {kq} (s : State) (k : Pk) (reg : Nat → Nat) (io out reason n : Nat) (hs : Queued kq s) :
    Queued kq (State.dropPart s k reg io out reason n) := by
  unfold State.dropPart
  have h1 := Queued.mirror s k 2 reason (s.ioCode out) k.hdr0 hs
  generalize s.mirror k 2 reason (s.ioCode out) k.hdr0 = a at h1
  obtain ⟨s', k'⟩ := a
  dsimp only at h1 ⊢
  simp +contextual (maxDischargeDepth := 60) [h1]

@[simp] theorem Queued.dropCopyAt {kq} (s : State) (c : Copy) (reg : Nat → Nat) (reason : Nat) (hs : Queued kq s) :
    Queued kq (s.dropCopyAt c reg reason) := by
  unfold State.dropCopyAt; split <;> simp [hs]

@[simp] theorem Queued.nameFenced {kq} (s : State) (p : Packet) (port : Nat) (hs : Queued kq s) : Queued kq (State.nameFenced s p port) := by
  unfold State.nameFenced; (repeat' split) <;> simp +contextual (maxDischargeDepth := 60) [hs]

@[simp] theorem Queued.fenceCopy {kq} (s : State) (c : Copy) (hs : Queued kq s) : Queued kq (State.fenceCopy s c) := by
  unfold State.fenceCopy; (repeat' split) <;> simp +contextual (maxDischargeDepth := 60) [hs]

@[simp] theorem Queued.fenceSweep {kq} (s : State) (hs : Queued kq s) : Queued kq (State.fenceSweep s) := by
  unfold State.fenceSweep; simp +contextual (maxDischargeDepth := 60) [hs]

@[simp] theorem Queued.addCopy {kq} (s : State) (k : Pk) (out : Nat) (ports : List Nat) (hs : Queued kq s) :
    Queued kq (s.addCopy k out ports) := by
  unfold State.addCopy
  refine Queued.ite (by simp [hs]) ?_
  have h1 := Queued.takeId s hs
  generalize s.takeId = a at h1
  obtain ⟨i, s'⟩ := a
  dsimp only at h1 ⊢
  have h2 : ∀ l, Queued kq ({ s'.holdPk k.pid with xb := l } : State) := fun _ => Queued.holdPk s' k.pid h1
  refine Queued.ite (Queued.dropCopyAt _ _ _ _ (h2 _)) (Queued.fenceCopy _ _ (Queued.each (fun s x h => ?_) (h2 _)))
  simp [h]

@[simp] theorem Queued.dropOrphan {kq} (s : State) (pid q n : Nat) (hs : Queued kq s) : Queued kq (State.dropOrphan s pid q n) := by
  unfold State.dropOrphan; (repeat' split) <;> simp [hs]

theorem Queued.markLast {kq} (s : State) (k : Pk) (hs : Queued kq s) : Queued kq (s.markLast k).1 := by
  unfold State.markLast
  split
  · dsimp only
    split <;> simp [hs]
  · exact hs

@[simp] theorem Queued.place {kq} (s : State) (k : Pk) (r : Routed) (hs : Queued kq s) : Queued kq (State.place s k r) := by
  unfold State.place
  refine Queued.settlePk _ _ (Queued.releaseFrom _ _ _ (Queued.modPk _ _ _ (Queued.each (fun s x h => ?_) (Queued.each (fun s x h => ?_) ?_))))
  · split <;> simp [h]
  · simp [h]
  · simp [hs]

@[simp] theorem Queued.sendOn {kq} (s : State) (k : Pk) (hs : Queued kq s) : Queued kq (State.sendOn s k) := by
  unfold State.sendOn
  split
  · simp [hs]
  · have h1 := Queued.markLast s k hs
    generalize s.markLast k = a at h1
    obtain ⟨s', k'⟩ := a
    dsimp only at h1 ⊢
    simp [h1]

@[simp] theorem Queued.routePk {kq} (s : State) (k : Pk) (hs : Queued kq s) : Queued kq (s.routePk k) := by
  unfold State.routePk
  have h1 : Queued kq (if isEdgeIo k.inp then (s, k) else s.mirror k 0 0 0x1FF k.hdr0).1 := by
    split
    · exact hs
    · exact Queued.mirror _ _ _ _ _ _ hs
  generalize (if isEdgeIo k.inp then (s, k) else s.mirror k 0 0 0x1FF k.hdr0) = a at h1
  obtain ⟨t, k2⟩ := a
  dsimp only at h1 ⊢
  simp +contextual (maxDischargeDepth := 60) [h1]

theorem Queued.newPk {kq} (s : State) (inp : Nat) (p : Packet) (lens : List Nat) (hs : Queued kq s) :
    Queued kq (s.newPk inp p lens).1 := hs

@[simp] theorem Queued.enterOwn {kq} (s : State) (e : Nat) (p : Packet) (unit : Nat) (hs : Queued kq s) : Queued kq (State.enterOwn s e p unit) := by
  unfold State.enterOwn
  exact Queued.routePk _ _ (Queued.newPk _ _ _ _ (by simp [hs]))

@[simp] theorem Queued.routeOwn {kq} (s : State) (p : Packet) (unit : Nat) (hs : Queued kq s) : Queued kq (State.routeOwn s p unit) := by
  unfold State.routeOwn
  split
  · exact Queued.poolQueue _ _ _ _ (Queued.bump _ hs)
  · exact Queued.enterOwn _ _ _ _ (Queued.bump _ hs)

@[simp] theorem Queued.routeWhole {kq} (s : State) (inp : Nat) (p : Packet) (hs : Queued kq s) : Queued kq (State.routeWhole s inp p) := by
  unfold State.routeWhole
  exact Queued.routePk _ _ (Queued.countAt _ _ _ _ (Queued.newPk _ _ _ _ hs))

@[simp] theorem Queued.spendDeficit {kq} (s : State) (l : List Head) (m : Matching) (h : Head) (hs : Queued kq s) : Queued kq (State.spendDeficit s l m h) := by
  unfold State.spendDeficit; simp [hs]

@[simp] theorem Queued.loseDeficits {kq} (s : State) (l : List Head) (m : Matching) (hs : Queued kq s) : Queued kq (State.loseDeficits s l m) := by
  unfold State.loseDeficits; simp [hs]

theorem Queued.matchRound {kq} (l : List Head) (outs : List Nat) (first : Bool) (x : State × Matching) (hs : Queued kq x.1) :
    Queued kq (State.matchRound l outs first x).1 := by
  unfold State.matchRound
  refine Queued.foldFst (fun a i ha => ?_) hs
  dsimp only
  (repeat' split) <;> simp +contextual (maxDischargeDepth := 60) [ha]

@[simp] theorem Queued.reachStop {kq} (s : State) (c : Copy) (hs : Queued kq s) : Queued kq (State.reachStop s c) := by
  unfold State.reachStop; dsimp only; (repeat' split) <;> simp +contextual (maxDischargeDepth := 60) [hs]

@[simp] theorem Queued.crossCell {kq} (s : State) (h : Head) (hs : Queued kq s) : Queued kq (State.crossCell s h) := by
  unfold State.crossCell; simp +contextual (maxDischargeDepth := 60) [hs]

@[simp] theorem Queued.cellTime {kq} (s : State) (hs : Queued kq s) : Queued kq s.cellTime := by
  unfold State.cellTime
  have h0 := Queued.fenceSweep s hs
  generalize s.fenceSweep = t at h0
  dsimp only
  generalize State.scheduled t _ _ = m
  have h1 := Queued.matchRound t.heads (dedup (t.heads.map (fun h => h.copy.out))) true (t.loseDeficits t.heads m, m)
    (Queued.loseDeficits t t.heads m h0)
  generalize State.matchRound _ _ true (_, m) = a at h1
  have h2 := Queued.matchRound t.heads (dedup (t.heads.map (fun h => h.copy.out))) false a h1
  generalize State.matchRound _ _ false a = b at h2
  have h3 := Queued.matchRound t.heads (dedup (t.heads.map (fun h => h.copy.out))) false b h2
  generalize State.matchRound _ _ false b = c at h3
  exact Queued.each (fun s x h => Queued.crossCell s x h) h3

@[simp] theorem Queued.serve {kq} (s : State) (die pool : Nat) (u : PoolUse) (hs : Queued kq s) : Queued kq (State.serve s die pool u) := by
  unfold State.serve; (repeat' split) <;> simp [hs]

@[simp] theorem Queued.runLibrary {kq} (s : State) (p : VyProg) (hs : Queued kq s) : Queued kq (State.runLibrary s p) := by
  unfold State.runLibrary; simp +contextual (maxDischargeDepth := 60) [hs]

@[simp] theorem Queued.sieveReject {kq} (s : State) (x : Ctx) (st : Nat) (hs : Queued kq s) : Queued kq (State.sieveReject s x st) := by
  unfold State.sieveReject; simp [hs]

@[simp] theorem Queued.dropSieve {kq} (s : State) (c : Ref) (hs : Queued kq s) : Queued kq (State.dropSieve s c) := by
  unfold State.dropSieve; simp [hs]

@[simp] theorem Queued.progReads {kq} (s : State) (x : Ctx) (b : Bytes) (hs : Queued kq s) : Queued kq (State.progReads s x b) := by
  unfold State.progReads; simp +contextual (maxDischargeDepth := 60) [hs]

@[simp] theorem Queued.startProg {kq} (s : State) (x : Ctx) (r : SieveReq) (text : Option Bytes) (bufs : List Bytes) (hs : Queued kq s) : Queued kq (State.startProg s x r text bufs) := by
  unfold State.startProg; simp +contextual (maxDischargeDepth := 60) [hs]

@[simp] theorem Queued.tilesShort {kq} (s : State) (x : Ctx) (r : SieveReq) (hs : Queued kq s) : Queued kq (State.tilesShort s x r) := by
  unfold State.tilesShort; simp +contextual (maxDischargeDepth := 60) [hs]

@[simp] theorem Queued.activate {kq} (s : State) (j : Nat) (hs : Queued kq s) : Queued kq (State.activate s j) := by
  unfold State.activate; simp +contextual (maxDischargeDepth := 60) [hs]

@[simp] theorem Queued.layoutShow {kq} (s : State) (hs : Queued kq s) : Queued kq (State.layoutShow s) := by
  unfold State.layoutShow; simp [hs]

@[simp] theorem Queued.haltJobRings {kq} (s : State) (j : Nat) (hs : Queued kq s) : Queued kq (State.haltJobRings s j) := by
  unfold State.haltJobRings; simp +contextual (maxDischargeDepth := 60) [hs]

@[simp] theorem Queued.wipePages {kq} (s : State) (j : Nat) (hs : Queued kq s) : Queued kq (State.wipePages s j) := by
  unfold State.wipePages; simp [hs]

@[simp] theorem Queued.dropWaits {kq} (s : State) (mine : Ref → Bool) (hs : Queued kq s) : Queued kq (State.dropWaits s mine) := by
  unfold State.dropWaits; dsimp only; (repeat' split) <;> simp +contextual (maxDischargeDepth := 60) [hs]

@[simp] theorem Queued.dropJobWaits {kq} (s : State) (j : Nat) (hs : Queued kq s) : Queued kq (State.dropJobWaits s j) := by
  unfold State.dropJobWaits; simp [hs]

@[simp] theorem Queued.endJob {kq} (s : State) (j : Nat) (hs : Queued kq s) : Queued kq (s.endJob j) := by
  unfold State.endJob
  have h1 : Queued kq ((s.wipePages j).modJob j (fun b => (b.put J.enable 0).put J.state jobEnding)) := by simp +contextual (maxDischargeDepth := 60) [hs]
  generalize (s.wipePages j).modJob j (fun b => (b.put J.enable 0).put J.state jobEnding) = t at h1
  dsimp only
  have h2 : Queued kq (t.each (t.ops.filter (fun o => o.job == j && o.live)) (fun s o =>
      match s.findOp j o.tag with
      | some o => if o.live then s.abortOwn o stCancelled else s
      | none => s)) := by
    refine Queued.each (fun s x h => ?_) h1
    (repeat' split) <;> simp +contextual (maxDischargeDepth := 60) [h]
  generalize State.each t _ _ = t2 at h2
  have h3 : ∀ (t : State) (c : Ctx), Queued kq t → Queued kq ((t.opOf c.ref).elim t t.withdraw) := fun t c h => by
    cases t.opOf c.ref <;> simp [h]
  (repeat' split) <;> simp +contextual (maxDischargeDepth := 60) [h2, h3]

@[simp] theorem Queued.layoutRefused {kq} (s : State) (cause : Nat) (hs : Queued kq s) : Queued kq (State.layoutRefused s cause) := by
  unfold State.layoutRefused; simp [hs]

@[simp] theorem Queued.setUnitState {kq} (s : State) (u st : Nat) (hs : Queued kq s) : Queued kq (State.setUnitState s u st) := by
  unfold State.setUnitState; simp [hs]

@[simp] theorem Queued.showStore {kq} (s : State) (hs : Queued kq s) : Queued kq (State.showStore s) := by
  unfold State.showStore; simp [hs]

@[simp] theorem Queued.tryStoreReady {kq} (s : State) (hs : Queued kq s) : Queued kq (State.tryStoreReady s) := by
  unfold State.tryStoreReady; simp [hs]

@[simp] theorem Queued.pprGo {kq} (s : State) (stack : Nat) (v : Word32) (hard : Bool) (hs : Queued kq s) : Queued kq (State.pprGo s stack v hard) := by
  have shed (t : State) (x : ShedSt) (ht : Queued kq t) : Queued kq { t with shed := x } := ht
  unfold State.pprGo
  have set := Queued.fset _ (Reg.pprCtrl stack) F.pprCtrl_hard (if hard then 1 else 0)
    (Queued.fset _ (Reg.pprCtrl stack) F.pprCtrl_pc (bget F.pprCtrl_pc v) hs)
  exact Queued.ite (Queued.denied _ hs) (Queued.ite set (Queued.ite (Queued.fset _ _ _ _ set)
    (shed _ _ (Queued.fset _ _ _ _ (Queued.resTake _ _ _ set)))))

@[simp] theorem Queued.countBeds {kq} (s : State) (hs : Queued kq s) : Queued kq (State.countBeds s) := by
  unfold State.countBeds; simp +contextual (maxDischargeDepth := 60) [hs]

@[simp] theorem Queued.setBed {kq} (s : State) (b st : Nat) (hs : Queued kq s) : Queued kq (State.setBed s b st) := by
  unfold State.setBed; simp [hs]

@[simp] theorem Queued.mapBed {kq} (s : State) (r : Nat × Nat) (hs : Queued kq s) : Queued kq (State.mapBed s r) := by
  unfold State.mapBed; simp +contextual (maxDischargeDepth := 60) [hs]

@[simp] theorem Queued.restoreTo {kq} (s : State) (bed spare : Nat) (hs : Queued kq s) : Queued kq (State.restoreTo s bed spare) := by
  unfold State.restoreTo; simp [hs]

@[simp] theorem Queued.spillBed {kq} (s : State) (bed : Nat) (hs : Queued kq s) : Queued kq (State.spillBed s bed) := by
  unfold State.spillBed; simp +contextual (maxDischargeDepth := 60) [hs]

@[simp] theorem Queued.scoreRise {kq} (s : State) (u old new : Nat) (hs : Queued kq s) : Queued kq (State.scoreRise s u old new) := by
  unfold State.scoreRise; dsimp only; simp +contextual (maxDischargeDepth := 60) [hs]

@[simp] theorem Queued.failScore {kq} (s : State) (u : Nat) (hs : Queued kq s) : Queued kq (State.failScore s u) := by
  unfold State.failScore; simp [hs]

@[simp] theorem Queued.failBed {kq} (s : State) (u st : Nat) (hs : Queued kq s) : Queued kq (State.failBed s u st) := by
  unfold State.failBed; dsimp only; simp +contextual (maxDischargeDepth := 60) [hs]

@[simp] theorem Queued.repairBed {kq} (s : State) (bed : Nat) (hs : Queued kq s) :
    Queued kq (s.repairBed bed) := by
  unfold State.repairBed
  dsimp only
  have hn : ∀ (t : State) l, Queued kq t → Queued kq { t with nv := { t.nv with softBeds := l } } := fun _ _ h => h
  split <;> (refine Queued.logUnit _ _ _ _ _ _ (hn _ _ ?_); simp +contextual (maxDischargeDepth := 60) [hs])

@[simp] theorem Queued.remapRow {kq} (s : State) (stack p row : Nat) (hs : Queued kq s) : Queued kq (s.remapRow stack p row) := by
  unfold State.remapRow
  dsimp only
  have hn : ∀ l, Queued kq { s with nv := { s.nv with softRows := l } } := fun _ => hs
  refine Queued.ite ?_ ?_
  · exact Queued.showStore _ (Queued.logUnit _ _ _ _ _ _ (Queued.logUnit _ _ _ _ _ _ (Queued.setUnitState _ _ _ (hn _))))
  · refine Queued.fset _ _ _ _ (Queued.logUnit _ _ _ _ _ _ (Queued.addPoints _ _ _ (Queued.ite ?_ (Queued.setUnitState _ _ _ ?_))))
    all_goals exact Queued.fset _ _ _ _ (Queued.fset _ _ _ _ (hn _))

@[simp] theorem Queued.applyRow {kq} (s : State) (r : Nat × Nat × Nat) (hs : Queued kq s) : Queued kq (State.applyRow s r) := by
  unfold State.applyRow; simp +contextual (maxDischargeDepth := 60) [hs]

@[simp] theorem Queued.applyRepairs {kq} (s : State) (beds : List (Nat × Nat)) (rows : List (Nat × Nat × Nat)) (hs : Queued kq s) :
    Queued kq (State.applyRepairs s beds rows) := by
  unfold State.applyRepairs; simp +contextual (maxDischargeDepth := 60) [hs]

@[simp] theorem Queued.pstat {kq} (s : State) (p : Nat) (f : Bits) (v : Nat) (hs : Queued kq s) : Queued kq (State.pstat s p f v) := by
  unfold State.pstat; simp [hs]

@[simp] theorem Queued.stageLanes {kq} (s : State) (l : List Nat) (st : Nat) (hs : Queued kq s) : Queued kq (State.stageLanes s l st) := by
  unfold State.stageLanes; simp +contextual (maxDischargeDepth := 60) [hs]

@[simp] theorem Queued.toStage {kq} (s : State) (p st : Nat) (hs : Queued kq s) : Queued kq (State.toStage s p st) := by
  unfold State.toStage; simp [hs]

@[simp] theorem Queued.idleLanes {kq} (s : State) (l : List Nat) (hs : Queued kq s) : Queued kq (State.idleLanes s l) := by
  unfold State.idleLanes; simp +contextual (maxDischargeDepth := 60) [hs]

@[simp] theorem Queued.logLane {kq} (s : State) (code lane : Nat) (hs : Queued kq s) : Queued kq (State.logLane s code lane) := by
  unfold State.logLane; simp [hs]

@[simp] theorem Queued.sendTraining {kq} (s : State) (l n : Nat) (hs : Queued kq s) : Queued kq (State.sendTraining s l n) := by
  unfold State.sendTraining
  exact Queued.bump _ (Queued.each (fun s x h => by simp [h]) hs)

@[simp] theorem Queued.closeAborted {kq} (s : State) (pid : Nat) (hs : Queued kq s) : Queued kq (s.closeAborted pid) := by
  unfold State.closeAborted
  split
  · exact hs
  · refine Queued.ite hs (Queued.settlePk _ _ ?_)
    have h1 := Queued.takeId _ (Queued.each (l := (s.copiesOf pid).filter (fun c => c.next == 0)) (f := State.dropCopy) (fun s x h => by simp [h]) hs)
    exact Queued.ite (Queued.telemDrops _ _ _ (Queued.countAt _ _ _ _ (Queued.mirrorAt _ _ _ _ _ (Queued.each (fun s x h => by simp [h]) (Queued.modPk _ _ _ h1)))))
      (Queued.each (fun s x h => by simp [h]) (Queued.modPk _ _ _ h1))

@[simp] theorem Queued.dropLink {kq} (s : State) (l : Nat) (hs : Queued kq s) : Queued kq (State.dropLink s l) := by
  unfold State.dropLink; simp +contextual (maxDischargeDepth := 60) [hs]

@[simp] theorem Queued.toTime {kq} (s : State) (st : Nat) (hs : Queued kq s) : Queued kq (State.toTime s st) := by
  unfold State.toTime; simp +contextual (maxDischargeDepth := 60) [hs]

@[simp] theorem Queued.checkUpstream {kq} (s : State) (hs : Queued kq s) : Queued kq (State.checkUpstream s) := by
  unfold State.checkUpstream; simp [hs]

@[simp] theorem Queued.freeOwned {kq} (s : State) (m : Nat) (hs : Queued kq s) : Queued kq (State.freeOwned s m) := by
  unfold State.freeOwned; simp +contextual (maxDischargeDepth := 60) [hs]

@[simp] theorem Queued.split {kq} (s : State) (hs : Queued kq s) : Queued kq s.split := by
  unfold State.split
  dsimp only
  have h2 : Queued kq (s.each (s.ops.filter (fun o => o.live && s.spansPeer o)) (fun t o =>
      match t.findOp o.job o.tag with
      | some o => if o.live then t.abortOp o stPeerAbort .own (some (0xFFFF, s.fget Reg.graftPeer F.graftPeer_coord)) else t
      | none => t)) := by
    refine Queued.each (fun s x h => ?_) hs
    (repeat' split) <;> simp +contextual (maxDischargeDepth := 60) [h]
  generalize State.each s _ _ = t at h2
  refine Queued.ite ?_ ?_ <;> simp +contextual (maxDischargeDepth := 60) [h2]

@[simp] theorem Queued.setTrunk {kq} (s : State) (d : Nat) (t : TrunkSt) (hs : Queued kq s) : Queued kq (State.setTrunk s d t) := by
  unfold State.setTrunk; simp [hs]

@[simp] theorem Queued.toGraft {kq} (s : State) (st : Nat) (hs : Queued kq s) : Queued kq (State.toGraft s st) := by
  unfold State.toGraft; simp [hs]

@[simp] theorem Queued.showGraft {kq} (s : State) (hs : Queued kq s) : Queued kq (State.showGraft s) := by
  unfold State.showGraft; simp [hs]

@[simp] theorem Queued.showDrop {kq} (s : State) (p : Nat) (hs : Queued kq s) : Queued kq (State.showDrop s p) := by
  unfold State.showDrop; simp +contextual (maxDischargeDepth := 60) [hs]

@[simp] theorem Queued.losePort {kq} (s : State) (p : Nat) (hs : Queued kq s) : Queued kq (State.losePort s p) := by
  unfold State.losePort; simp +contextual (maxDischargeDepth := 60) [hs]

@[simp] theorem Queued.lossPoints {kq} (s : State) (l n : Nat) (hs : Queued kq s) : Queued kq (State.lossPoints s l n) := by
  unfold State.lossPoints
  exact Queued.each (fun s x h => by simp [h]) hs

@[simp] theorem Queued.moveCopies {kq} (s : State) (d : Nat) (hs : Queued kq s) : Queued kq (State.moveCopies s d) := by
  unfold State.moveCopies; simp [hs]

@[simp] theorem Queued.loseTrunk {kq} (s : State) (d : Nat) (hs : Queued kq s) : Queued kq (State.loseTrunk s d) := by
  unfold State.loseTrunk; simp +contextual (maxDischargeDepth := 60) [hs]

@[simp] theorem Queued.tapGone {kq} (s : State) (card : Nat) (hs : Queued kq s) : Queued kq (State.tapGone s card) := by
  unfold State.tapGone; simp [hs]

@[simp] theorem Queued.loseTap {kq} (s : State) (card : Nat) (hs : Queued kq s) : Queued kq (State.loseTap s card) := by
  unfold State.loseTap; simp +contextual (maxDischargeDepth := 60) [hs]

@[simp] theorem Queued.loseLink {kq} (s : State) (l : Nat) (hs : Queued kq s) : Queued kq (State.loseLink s l) := by
  unfold State.loseLink; split <;> simp [hs]

@[simp] theorem Queued.startRetrain {kq} (s : State) (p rate : Nat) (hs : Queued kq s) : Queued kq (State.startRetrain s p rate) := by
  unfold State.startRetrain; simp +contextual (maxDischargeDepth := 60) [hs]

@[simp] theorem Queued.startImage {kq} (s : State) (hs : Queued kq s) : Queued kq (State.startImage s) := by
  unfold State.startImage; simp [hs]

@[simp] theorem Queued.refusePair {kq} (s : State) (cause : Nat) (hs : Queued kq s) : Queued kq (State.refusePair s cause) := by
  unfold State.refusePair; simp +contextual (maxDischargeDepth := 60) [hs]

@[simp] theorem Queued.pairTimeout {kq} (s : State) (hs : Queued kq s) : Queued kq (State.pairTimeout s) := by
  unfold State.pairTimeout; simp [hs]

@[simp] theorem Queued.pairAgain {kq} (s : State) (hs : Queued kq s) : Queued kq (State.pairAgain s) := by
  unfold State.pairAgain; simp +contextual (maxDischargeDepth := 60) [hs]

@[simp] theorem Queued.trunkAgain {kq} (s : State) (d : Nat) (hs : Queued kq s) : Queued kq (State.trunkAgain s d) := by
  unfold State.trunkAgain; simp +contextual (maxDischargeDepth := 60) [hs]

@[simp] theorem Queued.trunkTrained {kq} (s : State) (d : Nat) (hs : Queued kq s) : Queued kq (State.trunkTrained s d) := by
  unfold State.trunkTrained; simp +contextual (maxDischargeDepth := 60) [hs]

@[simp] theorem Queued.trunkLocked {kq} (s : State) (d : Nat) (hs : Queued kq s) : Queued kq (State.trunkLocked s d) := by
  unfold State.trunkLocked; simp +contextual (maxDischargeDepth := 60) [hs]

@[simp] theorem Queued.setPeer {kq} (s : State) (b : Bytes) (hs : Queued kq s) : Queued kq (State.setPeer s b) := by
  unfold State.setPeer; simp +contextual (maxDischargeDepth := 60) [hs]

@[simp] theorem Queued.pairOwners {kq} (s : State) (card0 card1 : Bool) (hs : Queued kq s) : Queued kq (State.pairOwners s card0 card1) := by
  unfold State.pairOwners; simp +contextual (maxDischargeDepth := 60) [hs]

@[simp] theorem Queued.swapCards {kq} (s : State) (hs : Queued kq s) : Queued kq (State.swapCards s) := by
  unfold State.swapCards; simp +contextual (maxDischargeDepth := 60) [hs]

@[simp] theorem Queued.showPeerBeds {kq} (s : State) (hs : Queued kq s) : Queued kq (State.showPeerBeds s) := by
  unfold State.showPeerBeds; simp +contextual (maxDischargeDepth := 60) [hs]

@[simp] theorem Queued.merge {kq} (s : State) (b : Bytes) (hs : Queued kq s) : Queued kq (State.merge s b) := by
  unfold State.merge; simp +contextual (maxDischargeDepth := 60) [hs]

@[simp] theorem Queued.unmerge {kq} (s : State) (hs : Queued kq s) : Queued kq (State.unmerge s) := by
  unfold State.unmerge; simp +contextual (maxDischargeDepth := 60) [hs]

@[simp] theorem Queued.judgePair {kq} (s : State) (hs : Queued kq s) : Queued kq (State.judgePair s) := by
  unfold State.judgePair; dsimp only; (repeat' split) <;> simp +contextual (maxDischargeDepth := 60) [hs]

@[simp] theorem Queued.pairSent {kq} (s : State) (d : Nat) (seen : Bool) (hs : Queued kq s) : Queued kq (State.pairSent s d seen) := by
  unfold State.pairSent; simp +contextual (maxDischargeDepth := 60) [hs]

@[simp] theorem Queued.afterWrite {kq} (s : State) (m : Master) (a : Nat) (r : RegRow) (hs : Queued kq s) : Queued kq (State.afterWrite s m a r) := by
  unfold State.afterWrite; simp +contextual (maxDischargeDepth := 60) [hs]

@[simp] theorem Queued.cfgIgnored {kq} (s : State) (a : Nat) (r : RegRow) (want got : Word64) (hs : Queued kq s) : Queued kq (State.cfgIgnored s a r want got) := by
  unfold State.cfgIgnored; simp [hs]

@[simp] theorem Queued.keepQos {kq} (s : State) (a : Nat) (hs : Queued kq s) : Queued kq (State.keepQos s a) := by
  unfold State.keepQos; simp [hs]

@[simp] theorem Queued.writeReg {kq} (s : State) (m : Master) (a : Nat) (r : RegRow) (half v : Nat) (hs : Queued kq s) : Queued kq (State.writeReg s m a r half v) := by
  unfold State.writeReg; simp +contextual (maxDischargeDepth := 60) [hs]

@[simp] theorem Queued.writeOwn {kq} (s : State) (m : Master) (half v : Nat) (hs : Queued kq s) : Queued kq (State.writeOwn s m half v) := by
  unfold State.writeOwn; (repeat' split) <;> simp +contextual (maxDischargeDepth := 60) [hs]

@[simp] theorem Queued.writeHalf {kq} (s : State) (m : Master) (half v : Nat) (hs : Queued kq s) : Queued kq (State.writeHalf s m half v) := by
  unfold State.writeHalf; (repeat' split) <;> simp +contextual (maxDischargeDepth := 60) [hs]

@[simp] theorem Queued.readClear {kq} (s : State) (m : Master) (half : Nat) (hs : Queued kq s) : Queued kq (State.readClear s m half) := by
  unfold State.readClear; (repeat' split) <;> simp +contextual (maxDischargeDepth := 60) [hs]

@[simp] theorem Queued.fuseRegs {kq} (s : State) (hs : Queued kq s) : Queued kq (State.fuseRegs s) := by
  unfold State.fuseRegs; simp +contextual (maxDischargeDepth := 60) [hs]

@[simp] theorem Queued.resetTo {kq} (s : State) (hs : Queued kq s) : Queued kq s.resetTo := Queued.fuseRegs _ hs

@[simp] theorem Queued.tapDown {kq} (s : State) (wasUp : Bool) (hs : Queued kq s) : Queued kq (State.tapDown s wasUp) := by
  unfold State.tapDown; simp +contextual (maxDischargeDepth := 60) [hs]

@[simp] theorem Queued.refOk {kq} (s : State) (hs : Queued kq s) : Queued kq (State.refOk s) := by
  unfold State.refOk; simp [hs]

@[simp] theorem Queued.toBoot {kq} (s : State) (v : Nat) (hs : Queued kq s) : Queued kq (State.toBoot s v) := by
  unfold State.toBoot; simp [hs]

@[simp] theorem Queued.bootRepairs {kq} (s : State) (hs : Queued kq s) : Queued kq (State.bootRepairs s) := by
  unfold State.bootRepairs
  have h1 := Queued.applyRepairs s s.nv.softBeds (s.nv.fusedRows ++ s.nv.softRows) hs
  refine Queued.ite h1 ?_
  split
  · exact Queued.restartTick _ _ (Queued.applyRepairs _ _ _ h1)
  · exact Queued.fset _ Reg.shedStatus F.shedStatus_bootBist 1 (Queued.logEvent 0x0A 4 0 0 0 none h1)

@[simp] theorem Queued.checkTick {kq} (s : State) (hs : Queued kq s) : Queued kq (State.checkTick s) := by
  unfold State.checkTick
  exact Queued.ite (Queued.tryStoreReady _ (Queued.fset _ _ _ _ hs)) hs

@[simp] theorem Queued.closeGate {kq} (s : State) (hs : Queued kq s) : Queued kq (State.closeGate s) := by
  unfold State.closeGate; split <;> simp [hs]

@[simp] theorem Queued.stopAll {kq} (s : State) (why : Stopped) (hs : Queued kq s) : Queued kq (State.stopAll s why) := by
  unfold State.stopAll; simp +contextual (maxDischargeDepth := 60) [hs]

@[simp] theorem Queued.outOfPort {kq} (s : State) (lane : Nat) (hs : Queued kq s) : Queued kq (State.outOfPort s lane) := by
  unfold State.outOfPort; simp +contextual (maxDischargeDepth := 60) [hs]

@[simp] theorem Queued.toTrain {kq} (s : State) (p : Nat) (lanes : List Nat) (hs : Queued kq s) : Queued kq (State.toTrain s p lanes) := by
  unfold State.toTrain; simp +contextual (maxDischargeDepth := 60) [hs]

@[simp] theorem Queued.testLane {kq} (s : State) (p : Nat) (any : Bool) (x : Nat × Nat) (hs : Queued kq s) : Queued kq (State.testLane s p any x) := by
  unfold State.testLane; simp +contextual (maxDischargeDepth := 60) [hs]

@[simp] theorem Queued.toTap {kq} (s : State) (stage : Nat) (hs : Queued kq s) : Queued kq (State.toTap s stage) := by
  unfold State.toTap; simp [hs]

@[simp] theorem Queued.stageFail {kq} (s : State) (p cause : Nat) (hs : Queued kq s) : Queued kq (State.stageFail s p cause) := by
  unfold State.stageFail; simp +contextual (maxDischargeDepth := 60) [hs]

@[simp] theorem Queued.laneTrained {kq} (s : State) (lane : Nat) (x : LaneTrained) (hs : Queued kq s) : Queued kq (State.laneTrained s lane x) := by
  unfold State.laneTrained; simp +contextual (maxDischargeDepth := 60) [hs]

@[simp] theorem Queued.setFar {kq} (s : State) (p : Nat) (b : Bytes) (hs : Queued kq s) : Queued kq (State.setFar s p b) := by
  unfold State.setFar; simp +contextual (maxDischargeDepth := 60) [hs]

@[simp] theorem Queued.linkActive {kq} (s : State) (p k : Nat) (hs : Queued kq s) : Queued kq (State.linkActive s p k) := by
  unfold State.linkActive; simp +contextual (maxDischargeDepth := 60) [hs]

@[simp] theorem Queued.freshLink {kq} (s : State) (p : Nat) (b : Bytes) (hs : Queued kq s) : Queued kq (State.freshLink s p b) := by
  unfold State.freshLink; simp [hs]

@[simp] theorem Queued.tryFullRate {kq} (s : State) (p : Nat) (hs : Queued kq s) : Queued kq (State.tryFullRate s p) := by
  unfold State.tryFullRate; simp [hs]

@[simp] theorem Queued.tapCap {kq} (s : State) (cap : Bytes) (hs : Queued kq s) : Queued kq (State.tapCap s cap) := by
  unfold State.tapCap; simp +contextual (maxDischargeDepth := 60) [hs]

@[simp] theorem Queued.advertise {kq} (s : State) (p : Nat) (hs : Queued kq s) : Queued kq (State.advertise s p) := by
  unfold State.advertise; simp +contextual (maxDischargeDepth := 60) [hs]

@[simp] theorem Queued.noteSent {kq} (s : State) (o : TimeOut) (hs : Queued kq s) : Queued kq (s.noteSent o) := by
  cases o <;> exact hs

@[simp] theorem Queued.countNak {kq} (s : State) (l : Nat) (hs : Queued kq s) : Queued kq (State.countNak s l) := by
  unfold State.countNak; (repeat' split) <;> simp [hs]

@[simp] theorem Queued.sendFlit {kq} (s : State) (l kind seq : Nat) (payload : Bytes) (hs : Queued kq s) : Queued kq (State.sendFlit s l kind seq payload) := by
  unfold State.sendFlit; simp +contextual (maxDischargeDepth := 60) [hs]

@[simp] theorem Queued.countOut {kq} (s : State) (out cls : Nat) (hs : Queued kq s) : Queued kq (State.countOut s out cls) := by
  unfold State.countOut; simp +contextual (maxDischargeDepth := 60) [hs]

@[simp] theorem Queued.sendCell {kq} (s : State) (l : Nat) (c : Copy) (hs : Queued kq s) : Queued kq (s.sendCell l c) := by
  unfold State.sendCell
  split
  · exact hs
  · rename_i k _
    extract_lets x ctx i mark cell
    have h1 : Queued kq (if i = 0 then s.mirror k 1 0 (s.ioCode c.out) (numAt cell 0 8) else (s, k)).1 := by
      split
      · exact Queued.mirror _ _ _ _ _ _ hs
      · exact hs
    generalize (if i = 0 then s.mirror k 1 0 (s.ioCode c.out) (numAt cell 0 8) else (s, k)) = a at h1
    obtain ⟨t, k2⟩ := a
    dsimp only at h1 ⊢
    split <;> simp +contextual (maxDischargeDepth := 60) [h1]

@[simp] theorem Queued.flitSlot {kq} (s : State) (l : Nat) (hs : Queued kq s) : Queued kq (State.flitSlot s l) := by
  unfold State.flitSlot
  have h0 := Queued.fenceSweep s hs
  generalize s.fenceSweep = t at h0
  dsimp only
  (repeat' split) <;> simp +contextual (maxDischargeDepth := 60) [h0]

@[simp] theorem Queued.discardCell {kq} (s : State) (l : Nat) (hs : Queued kq s) : Queued kq (State.discardCell s l) := by
  unfold State.discardCell; simp [hs]

@[simp] theorem Queued.badCell {kq} (s : State) (l cls ctx : Nat) (hs : Queued kq s) : Queued kq (State.badCell s l cls ctx) := by
  unfold State.badCell; dsimp only; (repeat' split) <;> simp +contextual (maxDischargeDepth := 60) [*]

@[simp] theorem Queued.firstCell {kq} (s : State) (l hdr : Nat) (cell : Bytes) (hs : Queued kq s) :
    Queued kq (s.firstCell l hdr cell) := by
  unfold State.firstCell
  have h1 := Queued.takeId s hs
  generalize s.takeId = a at h1
  obtain ⟨i, s'⟩ := a
  dsimp only at h1 ⊢
  split <;> simp +contextual (maxDischargeDepth := 60) [h1]

@[simp] theorem Queued.badFirst {kq} (s : State) (l hdr : Nat) (cell : Bytes) (hs : Queued kq s) : Queued kq (State.badFirst s l hdr cell) := by
  unfold State.badFirst
  exact Queued.badCell _ _ _ _ (Queued.mirror _ _ _ _ _ _ hs)

@[simp] theorem Queued.countLater {kq} (s : State) (k : Pk) (hs : Queued kq s) : Queued kq (State.countLater s k) := by
  unfold State.countLater; (repeat' split) <;> simp +contextual (maxDischargeDepth := 60) [hs]

@[simp] theorem Queued.orphanCopy {kq} (s : State) (k : Pk) (c : Copy) (hs : Queued kq s) : Queued kq (State.orphanCopy s k c) := by
  unfold State.orphanCopy; simp +contextual (maxDischargeDepth := 60) [hs]

@[simp] theorem Queued.laterCell {kq} (s : State) (l hdr : Nat) (cell : Bytes) (k : Pk) (hs : Queued kq s) :
    Queued kq (s.laterCell l hdr cell k) := by
  unfold State.laterCell
  have h1 := Queued.takeId s hs
  generalize s.takeId = a at h1
  obtain ⟨i, s'⟩ := a
  dsimp only at h1 ⊢
  (repeat' split) <;> simp +contextual (maxDischargeDepth := 60) [h1]

@[simp] theorem Queued.epochCell {kq} (s : State) (l hdr : Nat) (k : Pk) (hs : Queued kq s) : Queued kq (State.epochCell s l hdr k) := by
  unfold State.epochCell
  have h1 := Queued.creditBack _ l (nbits hdr 2 2) 1 (Queued.telemDrops _ (linkIo l) 1 (Queued.countAt _ Reg.epochDrop (linkIo l) 1
    (Queued.mirrorAt s k.pid 2 mrEpochDrop 0x1FF hs)))
  exact Queued.closeAborted _ _ (Queued.ite (Queued.setLink _ _ _ h1) (Queued.setLink _ _ _ h1))

@[simp] theorem Queued.takeCell {kq} (s : State) (l : Nat) (cell : Bytes) (hs : Queued kq s) : Queued kq (State.takeCell s l cell) := by
  unfold State.takeCell; dsimp only; (repeat' split) <;> simp +contextual (maxDischargeDepth := 60) [*]

@[simp] theorem Queued.cellFlit {kq} (s : State) (l : Nat) (t : Trailer) (cell : Bytes) (hs : Queued kq s) : Queued kq (State.cellFlit s l t cell) := by
  unfold State.cellFlit; simp +contextual (maxDischargeDepth := 60) [hs]

@[simp] theorem Queued.nakRetrain {kq} (s : State) (l : Nat) (hs : Queued kq s) : Queued kq (State.nakRetrain s l) := by
  unfold State.nakRetrain; simp [hs]

@[simp] theorem Queued.fecFixed {kq} (s : State) (l : Nat) (x : Nat × Nat × Nat) (hs : Queued kq s) : Queued kq (State.fecFixed s l x) := by
  unfold State.fecFixed; simp +contextual (maxDischargeDepth := 60) [hs]

@[simp] theorem Queued.fecLost {kq} (s : State) (l lane : Nat) (hs : Queued kq s) : Queued kq (State.fecLost s l lane) := by
  unfold State.fecLost; simp +contextual (maxDischargeDepth := 60) [hs]

@[simp] theorem Queued.countFec {kq} (s : State) (l : Nat) (f : Fec) (hs : Queued kq s) : Queued kq (State.countFec s l f) := by
  unfold State.countFec; simp +contextual (maxDischargeDepth := 60) [hs]

@[simp] theorem Queued.takeFlit {kq} (s : State) (port : Nat) (bad : Bool) (flit : Bytes) (hs : Queued kq s) : Queued kq (State.takeFlit s port bad flit) := by
  unfold State.takeFlit; simp +contextual (maxDischargeDepth := 60) [hs]

/-- Every flit whose slot has come keeps the invariant, however many there are. -/
@[simp] theorem Queued.takeSlots {kq} (n l : Nat) {s : State} (hs : Queued kq s) : Queued kq (s.takeSlots l n) := by
  induction n generalizing s with
  | zero => exact hs
  | succ n ih =>
    unfold State.takeSlots
    split
    · exact ih (Queued.takeFlit _ l _ _ (by simp [hs]))
    · exact hs

@[simp] theorem Queued.takeDesc {kq} (s : State) (ring : Nat) (d : BitVec 512) (hs : Queued kq s) : Queued kq (State.takeDesc s ring d) := by
  unfold State.takeDesc; split <;> simp [hs]

@[simp] theorem Queued.jobTableLost {kq} (s : State) (j : Nat) (hs : Queued kq s) : Queued kq (State.jobTableLost s j) := by
  unfold State.jobTableLost; simp [hs]

@[simp] theorem Queued.freeWaits {kq} (s : State) (c : Ref) (hs : Queued kq s) : Queued kq (State.freeWaits s c) := by
  unfold State.freeWaits; simp [hs]

@[simp] theorem Queued.ctxLost {kq} (s : State) (x : Ctx) (hs : Queued kq s) : Queued kq (State.ctxLost s x) := by
  unfold State.ctxLost; dsimp only; (repeat' split) <;> simp +contextual (maxDischargeDepth := 60) [hs]

@[simp] theorem Queued.respondTo {kq} (s : State) (m : Master) (respOk : Bool) (op package seq status : Nat) (payload : Bytes) (hs : Queued kq s) : Queued kq (State.respondTo s m respOk op package seq status payload) := by
  unfold State.respondTo; simp +contextual (maxDischargeDepth := 60) [hs]

@[simp] theorem Queued.respond {kq} (s : State) (m : Master) (respOk : Bool) (q : Mail) (status : Nat) (payload : Bytes) (hs : Queued kq s) : Queued kq (State.respond s m respOk q status payload) := by
  unfold State.respond; simp [hs]

@[simp] theorem Queued.readRequest {kq} (s : State) (m : Master) (len : Nat) (hs : Queued kq s) : Queued kq (State.readRequest s m len) := by
  unfold State.readRequest; simp +contextual (maxDischargeDepth := 60) [hs]

@[simp] theorem Queued.dropSlice {kq} (s : State) (u : Nat) (hs : Queued kq s) : Queued kq (State.dropSlice s u) := by
  unfold State.dropSlice; simp [hs]

@[simp] theorem Queued.sliceTake {kq} (s : State) (e user : Nat) (hs : Queued kq s) : Queued kq (State.sliceTake s e user) := by
  unfold State.sliceTake; simp +contextual (maxDischargeDepth := 60) [hs]

@[simp] theorem Queued.startSlice {kq} (s : State) (r : SliceRun) (user : Nat) (hs : Queued kq s) : Queued kq (State.startSlice s r user) := by
  unfold State.startSlice; simp +contextual (maxDischargeDepth := 60) [hs]

@[simp] theorem Queued.freeSlice {kq} (s : State) (r : SliceRun) (hs : Queued kq s) : Queued kq (State.freeSlice s r) := by
  unfold State.freeSlice; simp +contextual (maxDischargeDepth := 60) [hs]

@[simp] theorem Queued.answerSlice {kq} (s : State) (r : SliceRun) (status : Nat) (hs : Queued kq s) : Queued kq (State.answerSlice s r status) := by
  unfold State.answerSlice; simp [hs]

@[simp] theorem Queued.bedFailed {kq} (s : State) (b : Nat) (hs : Queued kq s) : Queued kq (s.bedFailed b) := by
  unfold State.bedFailed
  have hn : ∀ (t : State) l, Queued kq t → Queued kq { t with nv := { t.nv with softBeds := l } } := fun _ _ h => h
  dsimp only
  (repeat' split)
  · simp +contextual (maxDischargeDepth := 60) [hs]
  · refine Queued.logUnit _ _ _ _ _ _ (hn _ _ ?_)
    simp +contextual (maxDischargeDepth := 60) [hs]
  · exact hs

@[simp] theorem Queued.pcFailed {kq} (s : State) (u : Nat) (hs : Queued kq s) : Queued kq (State.pcFailed s u) := by
  unfold State.pcFailed; simp +contextual (maxDischargeDepth := 60) [hs]

@[simp] theorem Queued.unitFailed {kq} (s : State) (u : Nat) (hs : Queued kq s) : Queued kq (State.unitFailed s u) := by
  unfold State.unitFailed; split <;> simp [hs]

@[simp] theorem Queued.correctedError {kq} (s : State) (u : Nat) (hs : Queued kq s) : Queued kq (State.correctedError s u) := by
  unfold State.correctedError; simp +contextual (maxDischargeDepth := 60) [hs]

@[simp] theorem Queued.loseLine {kq} (s : State) (line : Nat) (hs : Queued kq s) : Queued kq (State.loseLine s line) := by
  unfold State.loseLine; (repeat' split) <;> simp +contextual (maxDischargeDepth := 60) [hs]

@[simp] theorem Queued.scrubTick {kq} (s : State) (hs : Queued kq s) : Queued kq (State.scrubTick s) := by
  unfold State.scrubTick
  exact Queued.each (fun s x h => by simp [h]) hs

@[simp] theorem Queued.overtake {kq} (s : State) (u : Nat) (hs : Queued kq s) : Queued kq (State.overtake s u) := by
  unfold State.overtake; (repeat' split) <;> simp +contextual (maxDischargeDepth := 60) [hs]

@[simp] theorem Queued.setThrottle {kq} (s : State) (n : Nat) (hs : Queued kq s) : Queued kq (State.setThrottle s n) := by
  unfold State.setThrottle; simp [hs]

@[simp] theorem Queued.applyThrottle {kq} (s : State) (depth cause : Nat) (hs : Queued kq s) : Queued kq (State.applyThrottle s depth cause) := by
  unfold State.applyThrottle; simp +contextual (maxDischargeDepth := 60) [hs]

@[simp] theorem Queued.clearHealth {kq} (s : State) (hs : Queued kq s) : Queued kq (State.clearHealth s) := by
  unfold State.clearHealth; simp [hs]

@[simp] theorem Queued.restartShed {kq} (s : State) (hs : Queued kq s) : Queued kq (State.restartShed s) := by
  unfold State.restartShed; simp +contextual (maxDischargeDepth := 60) [hs]

@[simp] theorem Queued.shedRuns {kq} (s : State) (hs : Queued kq s) : Queued kq (State.shedRuns s) := by
  unfold State.shedRuns; simp +contextual (maxDischargeDepth := 60) [hs]

@[simp] theorem Queued.leaveRecovery {kq} (s : State) (hs : Queued kq s) : Queued kq (State.leaveRecovery s) := by
  unfold State.leaveRecovery; simp +contextual (maxDischargeDepth := 60) [hs]

@[simp] theorem Queued.flashWrite {kq} (s : State) (off : Nat) (b : Bytes) (hs : Queued kq s) : Queued kq (s.flashWrite off b) := hs

@[simp] theorem Queued.requestSlice {kq} (s : State) (m : Master) (respOk : Bool) (q : Mail) (u : Nat) (repair : Bool) (hs : Queued kq s) : Queued kq (State.requestSlice s m respOk q u repair) := by
  unfold State.requestSlice; split <;> simp [hs]

@[simp] theorem Queued.burn {kq} (s : State) (hs : Queued kq s) : Queued kq s.burn := hs

@[simp] theorem Queued.changeLife {kq} (s : State) (goal : Nat) (hs : Queued kq s) : Queued kq (s.changeLife goal) :=
  Queued.refOk _ (Queued.tapDown _ _ (Queued.resetTo _ (Queued.logEvent _ _ _ _ _ _ hs)))

@[simp] theorem Queued.request {kq} (s : State) (q : ClaimReq) (hs : Queued kq s) : Queued kq (State.request s q) := by
  unfold State.request; simp [hs]

@[simp] theorem Queued.claimResult {kq} (s : State) (q : ClaimReq) (st : Nat) (hs : Queued kq s) : Queued kq (State.claimResult s q st) := by
  unfold State.claimResult; (repeat' split) <;> simp +contextual (maxDischargeDepth := 60) [hs]

@[simp] theorem Queued.release {kq} (s : State) (q : ClaimReq) (hs : Queued kq s) : Queued kq (State.release s q) := by
  unfold State.release; simp +contextual (maxDischargeDepth := 60) [hs]

theorem Queued.claim {kq} (a : State × List Nat) (q : ClaimReq) (hs : Queued kq a.1) : Queued kq (State.claim a q).1 := by
  unfold State.claim
  dsimp only
  (repeat' split) <;> simp +contextual (maxDischargeDepth := 60) [hs]

@[simp] theorem Queued.applyClaims {kq} (s : State) (hs : Queued kq s) : Queued kq s.applyClaims := by
  unfold State.applyClaims
  have h : Queued kq ((s.requests false).foldl State.claim (s.each (s.requests true) State.release, [])).1 :=
    Queued.foldFst (fun a b h => Queued.claim a b h) (by simp +contextual (maxDischargeDepth := 60) [hs])
  exact h

@[simp] theorem Queued.svStart {kq} (s : State) (cmd : Option Ref) (card addr : Nat) (hs : Queued kq s) : Queued kq (State.svStart s cmd card addr) := by
  unfold State.svStart; simp [hs]

@[simp] theorem Queued.svTick {kq} (s : State) (hs : Queued kq s) : Queued kq (State.svTick s) := by
  unfold State.svTick; split <;> simp [hs]

@[simp] theorem Queued.stepped {kq} (s : State) (hs : Queued kq s) : Queued kq (State.stepped s) := by
  unfold State.stepped; simp +contextual (maxDischargeDepth := 60) [hs]

@[simp] theorem Queued.holdReleases {kq} (s : State) (hs : Queued kq s) : Queued kq (State.holdReleases s) := by
  unfold State.holdReleases; simp [hs]

@[simp] theorem Queued.loadNow {kq} (s : State) (v : Word64) (hs : Queued kq s) : Queued kq (State.loadNow s v) := by
  unfold State.loadNow; simp +contextual (maxDischargeDepth := 60) [hs]

@[simp] theorem Queued.loadRefused {kq} (s : State) (hs : Queued kq s) : Queued kq (State.loadRefused s) := by
  unfold State.loadRefused; simp [hs]

@[simp] theorem Queued.takeLoad {kq} (s : State) (hs : Queued kq s) : Queued kq (State.takeLoad s) := by
  unfold State.takeLoad; dsimp only; (repeat' split) <;> simp +contextual (maxDischargeDepth := 60) [hs]

@[simp] theorem Queued.newRole {kq} (s : State) (old : Nat) (hs : Queued kq s) : Queued kq (State.newRole s old) := by
  unfold State.newRole; simp +contextual (maxDischargeDepth := 60) [hs]

@[simp] theorem Queued.queueTime {kq} (s : State) (l : Nat) (o : TimeOut) (hs : Queued kq s) : Queued kq (State.queueTime s l o) := by
  unfold State.queueTime; simp [hs]

@[simp] theorem Queued.missedReply {kq} (s : State) (hs : Queued kq s) : Queued kq (State.missedReply s) := by
  unfold State.missedReply; simp +contextual (maxDischargeDepth := 60) [hs]

@[simp] theorem Queued.addSample {kq} (s : State) (offset delay : Int) (hs : Queued kq s) : Queued kq (State.addSample s offset delay) := by
  unfold State.addSample; simp +contextual (maxDischargeDepth := 60) [hs]

@[simp] theorem Queued.acquire {kq} (s : State) (hs : Queued kq s) : Queued kq (State.acquire s) := by
  unfold State.acquire; simp [hs]

@[simp] theorem Queued.showHops {kq} (s : State) (hops bound : Nat) (hs : Queued kq s) : Queued kq (State.showHops s hops bound) := by
  unfold State.showHops; simp [hs]

@[simp] theorem Queued.lockedSample {kq} (s : State) (offset : Int) (hs : Queued kq s) : Queued kq (State.lockedSample s offset) := by
  unfold State.lockedSample; simp +contextual (maxDischargeDepth := 60) [hs]

@[simp] theorem Queued.acquireSample {kq} (s : State) (offset : Int) (hs : Queued kq s) : Queued kq (State.acquireSample s offset) := by
  unfold State.acquireSample; simp +contextual (maxDischargeDepth := 60) [hs]

@[simp] theorem Queued.takeSample {kq} (s : State) (offset delay : Int) (hs : Queued kq s) : Queued kq (State.takeSample s offset delay) := by
  unfold State.takeSample; simp +contextual (maxDischargeDepth := 60) [hs]

@[simp] theorem Queued.restamp {kq} (s : State) (pid : Nat) (hs : Queued kq s) : Queued kq (State.restamp s pid) := by
  unfold State.restamp; dsimp only; (repeat' split) <;> simp +contextual (maxDischargeDepth := 60) [hs]

@[simp] theorem Queued.flip {kq} (s : State) (hs : Queued kq s) : Queued kq (State.flip s) := by
  unfold State.flip
  exact Queued.each (fun s x h => by simp [h]) (by simp [hs])

@[simp] theorem Queued.flipAt {kq} (s : State) (hs : Queued kq s) : Queued kq (State.flipAt s) := by
  unfold State.flipAt; simp [hs]

@[simp] theorem Queued.refill {kq} (s : State) (hs : Queued kq s) : Queued kq (State.refill s) := by
  unfold State.refill; simp +contextual (maxDischargeDepth := 60) [hs]

@[simp] theorem Queued.qosTick {kq} (s : State) (hs : Queued kq s) : Queued kq (State.qosTick s) := by
  unfold State.qosTick
  exact Queued.each (fun s x h => by simp [h]) hs

@[simp] theorem Queued.sampleDepths {kq} (s : State) (hs : Queued kq s) : Queued kq (State.sampleDepths s) := by
  unfold State.sampleDepths; simp +contextual (maxDischargeDepth := 60) [hs]

@[simp] theorem Queued.pulse {kq} (s : State) (hs : Queued kq s) : Queued kq (State.pulse s) := by
  unfold State.pulse; simp [hs]

@[simp] theorem Queued.slew {kq} (s : State) (hs : Queued kq s) : Queued kq (State.slew s) := by
  unfold State.slew; simp [hs]

@[simp] theorem Queued.ageBuffers {kq} (s : State) (hs : Queued kq s) : Queued kq (State.ageBuffers s) := by
  unfold State.ageBuffers; simp +contextual (maxDischargeDepth := 60) [hs]

@[simp] theorem Queued.countLines {kq} (s : State) (hs : Queued kq s) : Queued kq (State.countLines s) := by
  unfold State.countLines; dsimp only; split <;> simp +contextual (maxDischargeDepth := 60) [hs]

@[simp] theorem Queued.tick {kq} (s : State) (hs : Queued kq s) : Queued kq (State.tick s) := by
  unfold State.tick; simp +contextual (maxDischargeDepth := 60) [hs]

@[simp] theorem Queued.imageFault {kq} (s : State) (c : Ref) (hs : Queued kq s) : Queued kq (State.imageFault s c) := by
  unfold State.imageFault; simp [hs]

@[simp] theorem Queued.setBank {kq} (s : State) (n : Nat) (b : SchedBank) (hs : Queued kq s) : Queued kq (State.setBank s n b) := by
  unfold State.setBank; simp [hs]

@[simp] theorem Queued.loadBank {kq} (s : State) (c : Ref) (start slotLog2 n : Nat) (clear : Bool) (owners : Tab Nat) (hs : Queued kq s) : Queued kq (State.loadBank s c start slotLog2 n clear owners) := by
  unfold State.loadBank; simp +contextual (maxDischargeDepth := 60) [hs]

@[simp] theorem Queued.sense {kq} (s : State) (a : Nat) (v : Option Int) (hs : Queued kq s) : Queued kq (State.sense s a v) := by
  unfold State.sense; split <;> simp [hs]

@[simp] theorem Queued.takeReadings {kq} (s : State) (r : Readings) (hs : Queued kq s) : Queued kq (State.takeReadings s r) := by
  unfold State.takeReadings; simp +contextual (maxDischargeDepth := 60) [hs]

@[simp] theorem Queued.heatStack {kq} (s : State) (k : Nat) (v : Option Int) (hs : Queued kq s) : Queued kq (State.heatStack s k v) := by
  unfold State.heatStack; (repeat' split) <;> simp +contextual (maxDischargeDepth := 60) [hs]

@[simp] theorem Queued.inletCheck {kq} (s : State) (c : Option Int) (hs : Queued kq s) : Queued kq (State.inletCheck s c) := by
  unfold State.inletCheck; dsimp only; (repeat' split) <;> simp [hs]

@[simp] theorem Queued.evaluate {kq} (s : State) (r : Readings) (hs : Queued kq s) : Queued kq (State.evaluate s r) := by
  unfold State.evaluate; simp +contextual (maxDischargeDepth := 60) [hs]

@[simp] theorem Queued.scoreUnit {kq} (s : State) (u : Nat) (hs : Queued kq s) : Queued kq (State.scoreUnit s u) := by
  unfold State.scoreUnit; simp +contextual (maxDischargeDepth := 60) [hs]

@[simp] theorem Queued.xferError {kq} (s : State) (p : VyProg) (x : VyXfer) (st : Nat) (hs : Queued kq s) : Queued kq (State.xferError s p x st) := by
  unfold State.xferError; simp (maxDischargeDepth := 60) [hs]

@[simp] theorem Queued.xferRead {kq} (s : State) (p : VyProg) (x : VyXfer) (hs : Queued kq s) : Queued kq (State.xferRead s p x) := by
  unfold State.xferRead; simp [hs]

end Sys2Proof.Machine
end

section
/-! PROOF. Every row answers a next state, which keeps the queue and the invariant of registers, log and fuses (O52, O54). The shared
operations keep both by the laws `Kept` and `Queued`; a row is one of the shared shapes around them, or says which fuses and entries
it changes. -/
namespace Sys2Proof.Machine
open Sys2Proof.Safety

/-- From `s` to `t` the queue of waiting commands stays, and so does the invariant, wherever `s` kept it. -/
structure Good (s t : State) : Prop where
  queued : ∀ q, Queued q s → Queued q t
  kept : ∀ q n, Kept q n s → Kept q n t

/-- An answer is a next state, with the same queue and the same invariant. -/
def Keeps (s : State) (r : Res) : Prop := ∃ t, r = .next t ∧ Good s t

@[simp] theorem good_iff {s t : State} : Good s t ↔ (∀ q, Queued q s → Queued q t) ∧ ∀ q n, Kept q n s → Kept q n t :=
  ⟨fun h => ⟨h.queued, h.kept⟩, fun h => ⟨h.1, h.2⟩⟩

theorem Good.refl (s : State) : Good s s := ⟨fun _ h => h, fun _ _ h => h⟩

theorem Good.trans {s t u : State} (h : Good s t) (k : Good t u) : Good s u :=
  ⟨fun q hs => k.queued q (h.queued q hs), fun q n hs => k.kept q n (h.kept q n hs)⟩

theorem Good.ite {s t u : State} {c : Prop} [Decidable c] (ht : Good s t) (hu : Good s u) : Good s (if c then t else u) := by
  split <;> assumption

theorem keeps_next {s t : State} (h : Good s t) : Keeps s (.next t) := ⟨t, rfl, h⟩

theorem keeps_stay (s : State) : Keeps s (.next s) := keeps_next (.refl s)

theorem keeps_act {s t : State} {p : Bool} (h : Good s t) : Keeps s (s.act p t) := keeps_next (.ite h (.refl s))

theorem keeps_actShed {s t : State} {p : Bool} (h : Good s t) : Keeps s (s.actShed p t) := keeps_next (.ite h (.refl s))

theorem keeps_issue {s : State} {c : Ref} {op : Nat} {f : Ctx → State} (h : ∀ x, Good s (f x)) : Keeps s (s.issue c op f) := by
  unfold State.issue
  split
  · exact keeps_stay s
  · exact keeps_act (h _)

theorem keeps_fabric {s : State} {c : Ref} {op : Nat} {turn : Bool} {f : Ctx → State} (h : ∀ x, Good s (f x)) :
    Keeps s (s.fabric c op turn f) := by
  unfold State.fabric
  split
  · exact keeps_stay s
  · exact keeps_act (.ite ⟨fun _ hs => by simp [hs], fun _ _ hs => by simp [hs]⟩ (h _))

theorem keeps_mail {s : State} {m : Master} {req : MbxReq} {op need : Nat} {f : State → Mail → State}
    (h : ∀ t q, Good t (f t q)) : Keeps s (s.mail m req op need f) := by
  unfold State.mail
  refine keeps_act ⟨fun k hs => ?_, fun k n hs => ?_⟩
  · dsimp only
    refine .ite (by simp [hs]) ?_
    split
    · simp +contextual (maxDischargeDepth := 60) [hs]
    · refine .ite hs (.ite (by simp +contextual (maxDischargeDepth := 60) [hs]) ?_)
      split
      · simp [hs]
      · exact (h _ _).queued k (by simp [hs])
  · dsimp only
    refine .ite (by simp [hs]) ?_
    split
    · simp +contextual (maxDischargeDepth := 60) [hs]
    · refine .ite hs (.ite (by simp +contextual (maxDischargeDepth := 60) [hs]) ?_)
      split
      · simp [hs]
      · exact (h _ _).kept k n (by simp [hs])

theorem keeps_dataIn {s : State} {port : Nat} {p : Packet} {sub : Nat} {f : State → Op → State}
    (h : ∀ t o, Good t (f t o)) : Keeps s (s.dataIn port p sub f) := by
  unfold State.dataIn
  refine keeps_act ⟨fun k hs => ?_, fun k n hs => ?_⟩
  · dsimp only
    refine .ite (by simp [hs]) ?_
    split
    · exact .ite (by simp [hs]) (by simp [hs])
    · exact .ite (by simp [hs]) (.ite (by simp [hs]) ((h _ _).queued k (by simp [hs])))
  · dsimp only
    refine .ite (by simp [hs]) ?_
    split
    · exact .ite (by simp [hs]) (by simp [hs])
    · exact .ite (by simp [hs]) (.ite (by simp [hs]) ((h _ _).kept k n (by simp [hs])))

theorem good_arrive {s : State} {port : Nat} {p : Packet} {f : State → State} (h : ∀ t, Good t (f t)) : Good s (s.arrive port p f) :=
  ⟨fun k hs => Queued.arrive _ _ _ _ (fun t ht => (h t).queued k ht) hs, fun k n hs => Kept.arrive _ _ _ _ (fun t ht => (h t).kept k n ht) hs⟩

theorem good_acceptData {s : State} {o : Op} {q n : Nat} {f : State → Op → State} (h : ∀ t o, Good t (f t o)) :
    Good s (s.acceptData o q n f) :=
  ⟨fun k hs => Queued.acceptData _ _ _ _ _ (fun t o ht => (h t o).queued k ht) hs,
    fun k n hs => Kept.acceptData _ _ _ _ _ (fun t o ht => (h t o).kept k n ht) hs⟩

theorem keeps_vyIssue {s : State} {o : VOp} {cls place : Nat} {use : VyUse} {f} : Keeps s (s.vyIssue o cls place use f) := by
  unfold State.vyIssue
  split
  · exact keeps_stay s
  · refine keeps_act ⟨fun _ hs => ?_, fun _ _ hs => ?_⟩
    · dsimp only
      (repeat' split) <;> simp [hs]
    · dsimp only
      (repeat' split) <;> simp [hs]

/-! ## Steps of a chain of operations -/

theorem Good.rset {s t : State} (h : Good s t) (a : Nat) (v : Word64) : Good s (t.rset a v) := h.trans (by simp +contextual (maxDischargeDepth := 60))

theorem Good.fset {s t : State} (h : Good s t) (a : Nat) (f : Bits) (v : Nat) : Good s (t.fset a f v) :=
  h.trans (by simp +contextual (maxDischargeDepth := 60))

/-- What lies outside registers, fuses, the always-on region and the queue may change. -/
theorem Good.shed {s t : State} (h : Good s t) (x : ShedSt) : Good s { t with shed := x } := ⟨h.queued, h.kept⟩
theorem Good.xb {s t : State} (h : Good s t) (x : Trellis) : Good s { t with xb := x } := ⟨h.queued, h.kept⟩
theorem Good.time {s t : State} (h : Good s t) (x : TimeSt) : Good s { t with time := x } := ⟨h.queued, h.kept⟩

/-- Fuses that only move one way may move. -/
theorem Good.nv {s t : State} (h : Good s t) {x : Nv} (y : ShedSt) (hx : fusesKept t.nv x) : Good s { t with nv := x, shed := y } :=
  ⟨h.queued, fun q n hs =>
    have ⟨regs, log, fuses, queue⟩ := h.kept q n hs
    ⟨regs, log, fusesKept.trans fuses hx, queue⟩⟩

/-- Fields of the always-on region and of power may change while the log does not grow. -/
theorem Good.aon {s t : State} (h : Good s t) {x : Aon} (y : Pwr) (hx : x.log.length ≤ t.aon.log.length) :
    Good s { t with aon := x, pwr := y } :=
  ⟨h.queued, fun q n hs =>
    have ⟨regs, log, fuses, queue⟩ := h.kept q n hs
    ⟨regs, Nat.le_trans hx log, fuses, queue⟩⟩

theorem Good.respond {s t : State} (h : Good s t) (m : Master) (ok : Bool) (q : Mail) (st : Nat) (pl : Bytes) : Good s (t.respond m ok q st pl) := h.trans (by simp +contextual (maxDischargeDepth := 60))
theorem Good.logEvent {s t : State} (h : Good s t) (source code sev unit detail : Nat) (banded : Option Nat) : Good s (t.logEvent source code sev unit detail banded) := h.trans (by simp +contextual (maxDischargeDepth := 60))
theorem Good.modCtx {s t : State} (h : Good s t) (c : Ref) (f : Ctx → Ctx) : Good s (t.modCtx c f) := h.trans (by simp +contextual (maxDischargeDepth := 60))
theorem Good.setJob {s t : State} (h : Good s t) (j : Nat) (b : Job) : Good s (t.setJob j b) := h.trans (by simp +contextual (maxDischargeDepth := 60))
theorem Good.endCmd {s t : State} (h : Good s t) (c : Ref) (st : Nat) : Good s (t.endCmd c st) := h.trans (by simp +contextual (maxDischargeDepth := 60))
theorem Good.logHbm {s t : State} (h : Good s t) (code job gen : Nat) (l : List Nat) : Good s (t.logHbm code job gen l) := h.trans (by simp +contextual (maxDischargeDepth := 60))
theorem Good.sendUnit {s t : State} (h : Good s t) (p : Packet) (n : Nat) : Good s (t.sendUnit p n) := h.trans (by simp +contextual (maxDischargeDepth := 60))
theorem Good.parkDone {s t : State} (hd : Good s t) (x : Ctx) (h : Handle) : Good s (t.parkDone x h) := hd.trans (by simp +contextual (maxDischargeDepth := 60))
theorem Good.resFree {s t : State} (h : Good s t) (e : Nat) : Good s (t.resFree e) := h.trans (by simp +contextual (maxDischargeDepth := 60))
theorem Good.emit {s t : State} (h : Good s t) (o : Output) : Good s (t.emit o) := h.trans (by simp +contextual (maxDischargeDepth := 60))
theorem Good.answerSlice {s t : State} (h : Good s t) (r : SliceRun) (st : Nat) : Good s (t.answerSlice r st) := h.trans (by simp +contextual (maxDischargeDepth := 60))
theorem Good.leaveRecovery {s t : State} (h : Good s t)  : Good s (t.leaveRecovery) := h.trans (by simp +contextual (maxDischargeDepth := 60))
theorem Good.stepped {s t : State} (h : Good s t)  : Good s (t.stepped) := h.trans (by simp +contextual (maxDischargeDepth := 60))
theorem Good.resetTo {s t : State} (h : Good s t)  : Good s (t.resetTo) := h.trans (by simp +contextual (maxDischargeDepth := 60))
theorem Good.fadd {s t : State} (h : Good s t) (a : Nat) (f : Bits) (n : Nat) : Good s (t.fadd a f n) := h.trans (by simp +contextual (maxDischargeDepth := 60))
theorem Good.logUnit {s t : State} (h : Good s t) (source code sev unit detail : Nat) : Good s (t.logUnit source code sev unit detail) := h.trans (by simp +contextual (maxDischargeDepth := 60))
theorem Good.unitFailed {s t : State} (h : Good s t) (u : Nat) : Good s (t.unitFailed u) := h.trans (by simp +contextual (maxDischargeDepth := 60))
theorem Good.failScore {s t : State} (h : Good s t) (u : Nat) : Good s (t.failScore u) := h.trans (by simp +contextual (maxDischargeDepth := 60))
theorem Good.toTrain {s t : State} (h : Good s t) (p : Nat) (l : List Nat) : Good s (t.toTrain p l) := h.trans (by simp +contextual (maxDischargeDepth := 60))
theorem Good.pstat {s t : State} (h : Good s t) (p : Nat) (f : Bits) (v : Nat) : Good s (t.pstat p f v) := h.trans (by simp +contextual (maxDischargeDepth := 60))
theorem Good.logLane {s t : State} (h : Good s t) (code lane : Nat) : Good s (t.logLane code lane) := h.trans (by simp +contextual (maxDischargeDepth := 60))

theorem Good.each {s t : State} {α : Type} {l : List α} {f : State → α → State} (h : Good s t) (hf : ∀ u x, Good u (f u x)) :
    Good s (t.each l f) :=
  ⟨fun q hs => Queued.each (fun u x hu => (hf u x).queued q hu) (h.queued q hs),
    fun q n hs => Kept.each (fun u x hu => (hf u x).kept q n hu) (h.kept q n hs)⟩

theorem Good.countPrbs {s t : State} (h : Good s t) (lane : Nat) : Good s (t.countPrbs lane) :=
  .ite (h.trans (by simp +contextual (maxDischargeDepth := 60))) h

theorem Good.readReg {s t : State} (h : Good s t) (m : Master) (a n : Nat) : Good s (t.readReg m a n).2 := by
  refine h.trans ?_
  unfold State.readReg
  dsimp only
  (repeat' split) <;> simp +contextual (maxDischargeDepth := 60)
theorem Good.setLink {s t : State} (h : Good s t) (l : Nat) (x : Link) : Good s (t.setLink l x) := h.trans (by simp +contextual)
theorem Good.setFar {s t : State} (h : Good s t) (p : Nat) (x : Bytes) : Good s (t.setFar p x) := h.trans (by simp +contextual)

/-! ## The rows -/

theorem keeps_execIrqDelay (ring : Nat) (s : State) : Keeps s (execIrqDelay ring s) := by
  unfold execIrqDelay
  split
  · exact keeps_stay s
  · exact keeps_act (by simp +contextual (maxDischargeDepth := 60))

theorem keeps_execDoorbell (m : Master) (ring : Nat) (half : Half) (value : Word64) (s : State) : Keeps s (execDoorbell m ring half value s) :=
  keeps_act (by simp +contextual (maxDischargeDepth := 60))

theorem keeps_execRingEnable (m : Master) (ring : Nat) (ctrl : Word32) (s : State) : Keeps s (execRingEnable m ring ctrl s) :=
  keeps_act (by simp +contextual (maxDischargeDepth := 60))

theorem keeps_execRingDisable (m : Master) (ring : Nat) (ctrl : Word32) (s : State) : Keeps s (execRingDisable m ring ctrl s) :=
  keeps_act (by simp +contextual (maxDischargeDepth := 60))

theorem keeps_execNop (c : Ref) (s : State) : Keeps s (execNop c s) :=
  keeps_issue fun x => (by simp +contextual (maxDischargeDepth := 60))

theorem keeps_execLaunchAt (c : Ref) (s : State) : Keeps s (execLaunchAt c s) :=
  keeps_issue fun x => (by simp +contextual (maxDischargeDepth := 60))

theorem keeps_execLaunchMature (c : Ref) (s : State) : Keeps s (execLaunchMature c s) := by
  unfold execLaunchMature
  split
  · exact keeps_stay s
  · exact keeps_act (by simp +contextual (maxDischargeDepth := 60))

theorem keeps_execCommandComplete (c : Ref) (s : State) : Keeps s (execCommandComplete c s) := by
  unfold execCommandComplete
  split
  · exact keeps_stay s
  · exact keeps_act (by simp +contextual (maxDischargeDepth := 60))

theorem keeps_execFence (c : Ref) (s : State) : Keeps s (execFence c s) :=
  keeps_issue fun x => (by simp +contextual (maxDischargeDepth := 60))

theorem keeps_execUnfence (c : Ref) (s : State) : Keeps s (execUnfence c s) :=
  keeps_issue fun x => (by simp +contextual (maxDischargeDepth := 60))

theorem keeps_execOpenBucket (c : Ref) (s : State) : Keeps s (execOpenBucket c s) :=
  keeps_issue fun x => (by simp +contextual (maxDischargeDepth := 60))

theorem keeps_execAllreduce (c : Ref) (s : State) : Keeps s (execAllreduce c s) :=
  keeps_issue fun x => (by simp +contextual (maxDischargeDepth := 60))

theorem keeps_execReduceScatter (c : Ref) (s : State) : Keeps s (execReduceScatter c s) :=
  keeps_issue fun x => (by simp +contextual (maxDischargeDepth := 60))

theorem keeps_execCloseBucket (c : Ref) (s : State) : Keeps s (execCloseBucket c s) :=
  keeps_issue fun x => (by
    dsimp only
    (repeat' split) <;> simp +contextual (maxDischargeDepth := 60))

theorem keeps_execContrib (port : Nat) (p : Packet) (s : State) : Keeps s (execContrib port p s) :=
  keeps_act (by
    (repeat' split) <;> simp +contextual (maxDischargeDepth := 60))

theorem keeps_execRakeAccumulate (bed : Nat) (upset : Upset) (s : State) : Keeps s (execRakeAccumulate bed upset s) := by
  unfold execRakeAccumulate
  split
  · exact keeps_stay s
  · exact keeps_act (by
      dsimp only
      (repeat' split) <;> simp +contextual (maxDischargeDepth := 60))

theorem keeps_execXp (port : Nat) (p : Packet) (upset : Upset) (s : State) : Keeps s (execXp port p upset s) :=
  keeps_act (good_arrive fun s => (by
    (repeat' split) <;> simp +contextual (maxDischargeDepth := 60)))

theorem keeps_execXpSend (job tag chunk : Nat) (upset : Upset) (s : State) : Keeps s (execXpSend job tag chunk upset s) := by
  unfold execXpSend
  split
  · exact keeps_stay s
  · exact keeps_act (by simp +contextual (maxDischargeDepth := 60))

theorem keeps_execChunkFinal (job tag chunk : Nat) (upset : Upset) (s : State) : Keeps s (execChunkFinal job tag chunk upset s) := by
  unfold execChunkFinal
  split
  · exact keeps_stay s
  · exact keeps_act (by
      dsimp only
      (repeat' split) <;> simp +contextual (maxDischargeDepth := 60))

theorem keeps_execSummary (port : Nat) (p : Packet) (s : State) : Keeps s (execSummary port p s) :=
  keeps_act (good_arrive fun s => (by
    dsimp only
    (repeat' split) <;> simp +contextual (maxDischargeDepth := 60)))

theorem keeps_execBucketComplete (job tag : Nat) (s : State) : Keeps s (execBucketComplete job tag s) := by
  unfold execBucketComplete
  split
  · exact keeps_stay s
  · exact keeps_act (by simp +contextual (maxDischargeDepth := 60))

theorem keeps_execNonrootComplete (job tag : Nat) (s : State) : Keeps s (execNonrootComplete job tag s) := by
  unfold execNonrootComplete
  split
  · exact keeps_stay s
  · exact keeps_act (by simp +contextual (maxDischargeDepth := 60))

theorem keeps_execResult (port : Nat) (p : Packet) (s : State) : Keeps s (execResult port p s) :=
  keeps_act (good_arrive fun s => (by
    (repeat' split) <;> simp +contextual (maxDischargeDepth := 60)))

theorem keeps_execReady (port : Nat) (p : Packet) (s : State) : Keeps s (execReady port p s) :=
  keeps_act (good_arrive fun s => (by
    (repeat' split) <;> simp +contextual (maxDischargeDepth := 60)))

theorem keeps_execAbort (port : Nat) (p : Packet) (s : State) : Keeps s (execAbort port p s) :=
  keeps_act (good_arrive fun s => (by
    (repeat' split) <;> simp +contextual (maxDischargeDepth := 60)))

theorem keeps_execBucketDeadline (job tag : Nat) (s : State) : Keeps s (execBucketDeadline job tag s) := by
  unfold execBucketDeadline
  split
  · exact keeps_stay s
  · exact keeps_act (by simp +contextual (maxDischargeDepth := 60))

theorem keeps_execAllgather (c : Ref) (s : State) : Keeps s (execAllgather c s) :=
  keeps_issue fun x => (by simp +contextual (maxDischargeDepth := 60))

theorem keeps_execShift (c : Ref) (s : State) : Keeps s (execShift c s) :=
  keeps_issue fun x => (by simp +contextual (maxDischargeDepth := 60))

theorem keeps_execPermute (c : Ref) (s : State) : Keeps s (execPermute c s) :=
  keeps_issue fun x => (by simp +contextual (maxDischargeDepth := 60))

theorem keeps_execAllgatherData (port : Nat) (p : Packet) (s : State) : Keeps s (execAllgatherData port p s) :=
  keeps_dataIn fun s o => by
    dsimp only
    refine .ite (by simp +contextual (maxDischargeDepth := 60)) (.ite (by simp +contextual (maxDischargeDepth := 60)) (good_acceptData fun t o => ?_))
    split <;> simp +contextual (maxDischargeDepth := 60)

theorem keeps_execShiftData (port : Nat) (p : Packet) (s : State) : Keeps s (execShiftData port p s) :=
  keeps_dataIn fun s o => .ite (by simp +contextual (maxDischargeDepth := 60)) (good_acceptData fun t o => by
    dsimp only
    (repeat' split) <;> simp +contextual (maxDischargeDepth := 60))

theorem keeps_execPermuteCounts (port : Nat) (p : Packet) (s : State) : Keeps s (execPermuteCounts port p s) :=
  keeps_dataIn fun s o => (by simp +contextual (maxDischargeDepth := 60))

theorem keeps_execReady2 (port : Nat) (p : Packet) (s : State) : Keeps s (execReady2 port p s) :=
  keeps_act (good_arrive fun s => (by
    (repeat' split) <;> simp +contextual (maxDischargeDepth := 60)))

theorem keeps_execPermuteRows (port : Nat) (p : Packet) (s : State) : Keeps s (execPermuteRows port p s) := by
  unfold execPermuteRows
  split
  · exact keeps_stay s
  · exact keeps_dataIn fun t o => .ite (by simp +contextual (maxDischargeDepth := 60)) (.ite
      (good_acceptData fun u o => .ite (by simp +contextual (maxDischargeDepth := 60)) (by simp +contextual (maxDischargeDepth := 60))) (by simp +contextual (maxDischargeDepth := 60)))

theorem keeps_execAdmitOp (c : Ref) (s : State) : Keeps s (execAdmitOp c s) := by
  unfold execAdmitOp
  dsimp only
  have stamped : Good s s.stampEligible := by simp +contextual (maxDischargeDepth := 60)
  split
  · exact keeps_stay s
  · next x _ =>
    apply keeps_act
    split
    · exact stamped.trans (by simp +contextual (maxDischargeDepth := 60))
    · refine .ite ?_ stamped
      split
      · exact stamped
      · next u hu =>
        have room : Good s.stampEligible u := ⟨fun _ hs => Queued.makeRoom hs hu, fun _ _ hs => Kept.makeRoom hs hu⟩
        split
        · exact stamped
        · exact (stamped.trans room).trans (.ite (by simp +contextual (maxDischargeDepth := 60)) (by simp +contextual (maxDischargeDepth := 60)))

theorem keeps_execNorm (c : Ref) (upset : Upset) (s : State) : Keeps s (execNorm c upset s) :=
  keeps_issue fun x => (by
    dsimp only
    (repeat' split) <;> simp +contextual (maxDischargeDepth := 60))

theorem keeps_execNormMax (port : Nat) (c : Checked) (s : State) : Keeps s (execNormMax port c s) := by
  refine keeps_act (good_arrive fun t => .ite ⟨fun q hs => ?_, fun q n hs => ?_⟩ (by simp +contextual (maxDischargeDepth := 60)))
  · exact Queued.fold (fun _ _ h => by simp [h]) hs
  · exact Kept.fold (fun _ _ h => by simp [h]) hs

theorem keeps_execNormSum (port : Nat) (p : Packet) (upset : Upset) (s : State) : Keeps s (execNormSum port p upset s) :=
  keeps_act (good_arrive fun s => (by simp +contextual (maxDischargeDepth := 60)))

theorem keeps_execNormDeadline (c : Ref) (s : State) : Keeps s (execNormDeadline c s) := by
  unfold execNormDeadline
  split
  · exact keeps_stay s
  · exact keeps_act (by simp +contextual (maxDischargeDepth := 60))

theorem keeps_execStep (c : Ref) (fault : Option (Nat × Upset)) (s : State) : Keeps s (execStep c fault s) :=
  keeps_issue fun x => (by simp +contextual (maxDischargeDepth := 60))

theorem keeps_execStepStart (c : Ref) (fault : Option (Nat × Upset)) (s : State) : Keeps s (execStepStart c fault s) := by
  unfold execStepStart
  split
  · exact keeps_stay s
  · exact keeps_act (by simp +contextual (maxDischargeDepth := 60))

theorem keeps_execStats (port : Nat) (p : Packet) (s : State) : Keeps s (execStats port p s) :=
  keeps_act (good_arrive fun s => (by simp +contextual (maxDischargeDepth := 60)))

theorem keeps_execPublish (c : Ref) (s : State) : Keeps s (execPublish c s) :=
  keeps_issue fun x => (by simp +contextual (maxDischargeDepth := 60))

theorem keeps_execPublishStart (c : Ref) (s : State) : Keeps s (execPublishStart c s) := by
  unfold execPublishStart
  split
  · exact keeps_stay s
  · exact keeps_act (by simp +contextual (maxDischargeDepth := 60))

theorem keeps_execPubMax (port : Nat) (p : Packet) (s : State) : Keeps s (execPubMax port p s) :=
  keeps_act (good_arrive fun s => (by simp +contextual (maxDischargeDepth := 60)))

theorem keeps_execBlock (port : Nat) (p : Packet) (s : State) : Keeps s (execBlock port p s) :=
  keeps_act (good_arrive fun s => (by simp +contextual (maxDischargeDepth := 60)))

theorem keeps_execPark (c : Ref) (s : State) : Keeps s (execPark c s) :=
  keeps_issue fun x => by
    refine .ite (by simp +contextual (maxDischargeDepth := 60)) (.ite (by simp +contextual (maxDischargeDepth := 60)) (.ite (by simp +contextual (maxDischargeDepth := 60)) (.ite (.refl s) ?_)))
    split
    · simp +contextual (maxDischargeDepth := 60)
    · refine .ite (.parkDone ?_ ..) ?_ <;> exact ((Good.refl s).setJob ..).modCtx ..

theorem keeps_execParkData (port : Nat) (p : Packet) (s : State) : Keeps s (execParkData port p s) :=
  keeps_act (good_arrive fun s => (by
    dsimp only
    (repeat' split) <;> simp +contextual (maxDischargeDepth := 60)))

theorem keeps_execFetch (c : Ref) (s : State) : Keeps s (execFetch c s) :=
  keeps_issue fun x => by
    refine .ite (by simp +contextual (maxDischargeDepth := 60)) (.ite (by simp +contextual (maxDischargeDepth := 60)) (.ite (.refl s) ?_))
    split
    · simp +contextual (maxDischargeDepth := 60)
    · refine .ite (by simp +contextual (maxDischargeDepth := 60)) (.ite (.refl s) (.ite (.endCmd (.logHbm ?_ ..) ..) (.modCtx (.each ?_ fun t y => .sendUnit (.refl t) ..) ..)))
        <;> exact .modCtx (.refl s) ..

theorem keeps_execCheckpoint (c : Ref) (s : State) : Keeps s (execCheckpoint c s) :=
  keeps_issue fun x => (by simp +contextual (maxDischargeDepth := 60))

theorem keeps_execCheckpointStart (c : Ref) (s : State) : Keeps s (execCheckpointStart c s) := by
  unfold execCheckpointStart
  split
  · exact keeps_stay s
  · exact keeps_act (by simp +contextual (maxDischargeDepth := 60))

theorem keeps_execRestore (c : Ref) (image : Option Bytes) (s : State) : Keeps s (execRestore c image s) :=
  keeps_issue fun x => (by
    (repeat' split) <;> simp +contextual (maxDischargeDepth := 60))

theorem keeps_execImageData (port : Nat) (p : Packet) (s : State) : Keeps s (execImageData port p s) :=
  keeps_act (good_arrive fun s => (by
    dsimp only
    (repeat' split) <;> simp +contextual (maxDischargeDepth := 60)))

theorem keeps_execSieveRun (c : Ref) (block : Option Bytes) (s : State) : Keeps s (execSieveRun c block s) :=
  keeps_issue fun x => (by
    dsimp only
    (repeat' split) <;> simp +contextual (maxDischargeDepth := 60))

theorem keeps_execProgramStart (c : Ref) (text : Option Bytes) (bufs : List Bytes) (s : State) : Keeps s (execProgramStart c text bufs s) := by
  unfold execProgramStart
  split
  · exact keeps_act (by simp +contextual (maxDischargeDepth := 60))
  · exact keeps_stay s

theorem keeps_execProgramDeadline (c : Ref) (s : State) : Keeps s (execProgramDeadline c s) := by
  unfold execProgramDeadline
  split
  · exact keeps_stay s
  · exact keeps_act (by simp +contextual (maxDischargeDepth := 60))

theorem keeps_execJobEnable (m : Master) (job : Nat) (s : State) : Keeps s (execJobEnable m job s) :=
  keeps_act (by simp +contextual (maxDischargeDepth := 60))

theorem keeps_execJobDisable (m : Master) (job : Nat) (s : State) : Keeps s (execJobDisable m job s) :=
  keeps_act (by simp +contextual (maxDischargeDepth := 60))

theorem keeps_execJobEndComplete (job : Nat) (s : State) : Keeps s (execJobEndComplete job s) :=
  keeps_act (by simp +contextual (maxDischargeDepth := 60))

theorem keeps_execLayoutCommit (m : Master) (value : Word32) (s : State) : Keeps s (execLayoutCommit m value s) :=
  keeps_act (by
    dsimp only
    (repeat' split) <;> simp +contextual (maxDischargeDepth := 60))

theorem keeps_execStackTraining (stack : Nat) (ok : Bool) (retries : Nat) (s : State) : Keeps s (execStackTraining stack ok retries s) :=
  keeps_act (by simp +contextual (maxDischargeDepth := 60))

theorem keeps_execHppr (_m : Master) (stack : Nat) (value : Word32) (s : State) : Keeps s (execHppr _m stack value s) :=
  keeps_act (by simp +contextual (maxDischargeDepth := 60))

theorem keeps_execSppr (_m : Master) (stack : Nat) (value : Word32) (s : State) : Keeps s (execSppr _m stack value s) :=
  keeps_act (by simp +contextual (maxDischargeDepth := 60))

theorem keeps_execPprComplete (stack : Nat) (ok : Bool) (left : Nat) (s : State) : Keeps s (execPprComplete stack ok left s) := by
  unfold execPprComplete
  split
  · exact keeps_stay s
  · have status := ((Good.refl s).fset (Reg.pprStatus stack) F.pprStatus_busy 0).fset (Reg.pprStatus stack) F.pprStatus_done 1
    have told := (Good.ite (c := ok = true) status (status.fset (Reg.pprStatus stack) F.pprStatus_fail 1)).fset
      (Reg.pprStatus stack) F.pprStatus_left left
    refine keeps_act (.ite (.nv (.ite (told.resFree _) told) _ ?_) (.shed (.ite (told.resFree _) told) _))
    exact ⟨rfl, rfl, rfl, Nat.le_refl _, id, List.prefix_append _ _⟩

theorem keeps_execMrSel (_m : Master) (stack : Nat) (value : Word32) (data : Nat) (s : State) : Keeps s (execMrSel _m stack value data s) :=
  keeps_act (by simp +contextual (maxDischargeDepth := 60))

theorem keeps_execTickOutEnable (m : Master) (value : Word32) (s : State) : Keeps s (execTickOutEnable m value s) :=
  keeps_act (by simp +contextual (maxDischargeDepth := 60))

theorem keeps_execDebugClockEnable (m : Master) (value : Word32) (s : State) : Keeps s (execDebugClockEnable m value s) :=
  keeps_act (by simp +contextual (maxDischargeDepth := 60))

theorem keeps_execMirrorEnable (m : Master) (session : Nat) (value : Word32) (s : State) : Keeps s (execMirrorEnable m session value s) :=
  keeps_act (by simp +contextual (maxDischargeDepth := 60))

theorem keeps_execMirrorDisable (m : Master) (session : Nat) (value : Word32) (s : State) : Keeps s (execMirrorDisable m session value s) :=
  keeps_act (by simp +contextual (maxDischargeDepth := 60))

theorem keeps_execMirHead (m : Master) (session : Nat) (value : Word32) (s : State) : Keeps s (execMirHead m session value s) :=
  keeps_act (by simp +contextual (maxDischargeDepth := 60))

theorem keeps_execTelemetryEnable (m : Master) (value : Word32) (s : State) : Keeps s (execTelemetryEnable m value s) := by
  refine keeps_act (.ite (by simp +contextual (maxDischargeDepth := 60)) ?_)
  have set : Good s (((s.fset Reg.telemCtrl F.telemCtrl_host (bget F.telemCtrl_host value)).fset
      Reg.telemCtrl F.telemCtrl_tlog2 (bget F.telemCtrl_tlog2 value)).fset Reg.telemCtrl F.telemCtrl_held 0) := by simp +contextual (maxDischargeDepth := 60)
  exact set.trans (.ite (by simp +contextual (maxDischargeDepth := 60)) (.ite (.refl _) (.ite
    (.xb (t := ((State.resGrab _ 0 ruTelemetry).resGrab 1 ruTelemetry).fset Reg.telemCtrl F.telemCtrl_enable 1) (by simp +contextual (maxDischargeDepth := 60)) _)
    (by simp +contextual (maxDischargeDepth := 60)))))

theorem keeps_execTelemetryInterval (s : State) : Keeps s (execTelemetryInterval s) := by
  unfold execTelemetryInterval
  split
  · exact keeps_stay s
  · exact keeps_act (by simp +contextual (maxDischargeDepth := 60))

theorem keeps_execPacketRoute (inp : Nat) (p : Packet) (s : State) : Keeps s (execPacketRoute inp p s) :=
  keeps_act (by
    (repeat' split) <;> simp +contextual (maxDischargeDepth := 60))

theorem keeps_execCellTime (s : State) : Keeps s (execCellTime s) :=
  keeps_act (by simp +contextual (maxDischargeDepth := 60))

theorem keeps_execPoolWaitGrant (die pool : Nat) (s : State) : Keeps s (execPoolWaitGrant die pool s) := by
  unfold execPoolWaitGrant
  split
  · exact keeps_stay s
  · exact keeps_act (by simp +contextual (maxDischargeDepth := 60))

theorem keeps_execGraftSense (volts : List Nat) (s : State) : Keeps s (execGraftSense volts s) :=
  keeps_act (by simp +contextual (maxDischargeDepth := 60))

theorem keeps_execPairFlit (trunk : Nat) (pair : Bytes) (s : State) : Keeps s (execPairFlit trunk pair s) :=
  keeps_act (by simp +contextual (maxDischargeDepth := 60))

theorem keeps_execPairingTimeout (trunk : Nat) (s : State) : Keeps s (execPairingTimeout trunk s) :=
  keeps_act (by simp +contextual (maxDischargeDepth := 60))

theorem keeps_execMergeComplete (s : State) : Keeps s (execMergeComplete s) :=
  keeps_act (by simp +contextual (maxDischargeDepth := 60))

theorem keeps_execRegisterWrite (m : Master) (addr size : Nat) (value : Word64) (s : State) : Keeps s (execRegisterWrite m addr size value s) :=
  keeps_act (by simp +contextual (maxDischargeDepth := 60))

theorem keeps_execLxPrbsErrRead (m : Master) (lane : Nat) (s : State) : Keeps s (execLxPrbsErrRead m lane s) :=
  keeps_act (.emit (.readReg (.countPrbs (.refl s) lane) ..) _)

theorem keeps_execPartReset (m : Master) (value : Word32) (s : State) : Keeps s (execPartReset m value s) :=
  keeps_act (by simp +contextual (maxDischargeDepth := 60))

theorem keeps_execPorAssert (s : State) : Keeps s (execPorAssert s) :=
  keeps_next (by simp +contextual (maxDischargeDepth := 60))

theorem keeps_execPorRelease (railsOk : Bool) (s : State) : Keeps s (execPorRelease railsOk s) :=
  keeps_next (by simp +contextual (maxDischargeDepth := 60))

theorem keeps_execRootPllLock (s : State) : Keeps s (execRootPllLock s) :=
  keeps_next (by simp +contextual (maxDischargeDepth := 60))

theorem keeps_execFirmwareBoot (s : State) : Keeps s (execFirmwareBoot s) :=
  keeps_act (by simp +contextual (maxDischargeDepth := 60))

theorem keeps_execWipeComplete (s : State) : Keeps s (execWipeComplete s) :=
  keeps_act (by simp +contextual (maxDischargeDepth := 60))

theorem keeps_execSeedlingExit (s : State) : Keeps s (execSeedlingExit s) :=
  keeps_act (by simp +contextual (maxDischargeDepth := 60))

theorem keeps_execInitDone (_m : Master) (s : State) : Keeps s (execInitDone _m s) :=
  keeps_act (by simp +contextual (maxDischargeDepth := 60))

theorem keeps_execExpertGateClose (_m : Master) (s : State) : Keeps s (execExpertGateClose _m s) :=
  keeps_act (by simp +contextual (maxDischargeDepth := 60))

theorem keeps_execClockFailure (cause : Nat) (s : State) : Keeps s (execClockFailure cause s) :=
  keeps_act (by simp +contextual (maxDischargeDepth := 60))

theorem keeps_execRailCollapse (rail millivolts : Nat) (s : State) : Keeps s (execRailCollapse rail millivolts s) :=
  keeps_next (by simp +contextual (maxDischargeDepth := 60))

theorem keeps_execThermalTrip (sensor : Nat) (s : State) : Keeps s (execThermalTrip sensor s) :=
  keeps_next (by simp +contextual (maxDischargeDepth := 60))

theorem keeps_execStandbyPowerLoss (s : State) : Keeps s (execStandbyPowerLoss s) :=
  have lost := Good.aon (.refl s) (x := ⟨[], 0, 0, 0, none⟩) { s.pwr with thermtrip := false, standby := false } (Nat.zero_le _)
  keeps_next (lost.resetTo.aon _ (Nat.le_refl _))

theorem keeps_execStandbyPowerApplied (s : State) : Keeps s (execStandbyPowerApplied s) :=
  keeps_next (by simp +contextual (maxDischargeDepth := 60))

theorem keeps_execPortEnable (m : Master) (port : Nat) (s : State) : Keeps s (execPortEnable m port s) :=
  keeps_act (by
    dsimp only
    (repeat' split) <;> simp +contextual (maxDischargeDepth := 60))

theorem keeps_execPortDisable (m : Master) (port : Nat) (s : State) : Keeps s (execPortDisable m port s) :=
  keeps_act (by simp +contextual (maxDischargeDepth := 60))

theorem keeps_execPortRetrain (m : Master) (port : Nat) (s : State) : Keeps s (execPortRetrain m port s) :=
  keeps_act (by simp +contextual (maxDischargeDepth := 60))

theorem keeps_execLxCtrl (m : Master) (lane : Nat) (value : Word32) (s : State) : Keeps s (execLxCtrl m lane value s) := by
  have set := ((Good.refl s).countPrbs lane).rset (Reg.lxCtrl lane) (BitVec.ofNat 64 (value.toNat % 16))
  refine keeps_act (.ite (by simp +contextual (maxDischargeDepth := 60)) (.ite (by simp +contextual (maxDischargeDepth := 60)) (.ite set (set.trans ?_))))
  split
  · simp +contextual (maxDischargeDepth := 60)
  · exact .ite (by simp +contextual (maxDischargeDepth := 60)) (.refl _)

theorem keeps_execDetectTest (port : Nat) (lanes : List Nat) (s : State) : Keeps s (execDetectTest port lanes s) := by
  unfold execDetectTest
  split
  · exact keeps_act (.ite (by simp +contextual (maxDischargeDepth := 60)) (.refl s))
  · have tested (l : List (Nat × Nat)) (any : Bool) : Good s (s.each l (fun s x => s.testLane port any x)) := by simp +contextual (maxDischargeDepth := 60)
    have logged (l : List (Nat × Nat)) (any : Bool) (x : Option Nat) : Good s (match x with
      | some x => (s.each l (fun s x => s.testLane port any x)).logLane 1 x
      | none => s.each l (fun s x => s.testLane port any x)) := by
      cases x with
      | none => exact tested l any
      | some x => exact (tested l any).trans (by simp +contextual (maxDischargeDepth := 60))
    exact keeps_act (.ite (.each (.refl s) fun t x => .fset (.refl t) ..) (.ite (.toTrain (logged ..) ..) (.ite (logged ..)
      (.ite (.pstat (logged ..) ..) (.ite (logged ..) (.toTrain (logged ..) ..))))))

theorem keeps_execStageTimeout (port : Nat) (s : State) : Keeps s (execStageTimeout port s) := by
  unfold execStageTimeout
  split <;> exact keeps_act (by simp +contextual (maxDischargeDepth := 60))

theorem keeps_execSquelchEnd (port : Nat) (s : State) : Keeps s (execSquelchEnd port s) :=
  keeps_act (by simp +contextual (maxDischargeDepth := 60))

theorem keeps_execTrainComplete (port : Nat) (lanes : List LaneTrained) (s : State) : Keeps s (execTrainComplete port lanes s) := by
  unfold execTrainComplete
  split
  · split <;> exact keeps_act (by simp +contextual (maxDischargeDepth := 60))
  · exact keeps_act (by simp +contextual (maxDischargeDepth := 60))

theorem keeps_execLockComplete (port : Nat) (markers : List Nat) (s : State) : Keeps s (execLockComplete port markers s) := by
  unfold execLockComplete
  split
  · split <;> exact keeps_act (by simp +contextual (maxDischargeDepth := 60))
  · apply keeps_act
    dsimp only
    split
    · simp +contextual (maxDischargeDepth := 60)
    · simp +contextual (maxDischargeDepth := 60)

theorem keeps_execCapTimer (port : Nat) (s : State) : Keeps s (execCapTimer port s) :=
  keeps_act (by simp +contextual (maxDischargeDepth := 60))

theorem keeps_execCapFlit (port : Nat) (cap : Bytes) (s : State) : Keeps s (execCapFlit port cap s) := by
  unfold execCapFlit
  dsimp only
  split
  · exact keeps_act (by simp +contextual (maxDischargeDepth := 60))
  · refine keeps_act (.trans (((Good.refl s).setLink port { s.link port with cap := some cap }).setFar port cap) ?_)
    (repeat' split) <;> simp +contextual (maxDischargeDepth := 60)

theorem keeps_execFarRetrain (port : Nat) (s : State) : Keeps s (execFarRetrain port s) :=
  keeps_act (by simp +contextual (maxDischargeDepth := 60))

theorem keeps_execRetrainComplete (port : Nat) (s : State) : Keeps s (execRetrainComplete port s) := by
  unfold execRetrainComplete
  split
  · exact keeps_stay s
  · exact keeps_act (by
      (repeat' split) <;> simp +contextual (maxDischargeDepth := 60))

theorem keeps_execLinkLost (port : Nat) (replayEcc : Bool) (s : State) : Keeps s (execLinkLost port replayEcc s) :=
  keeps_act (by simp +contextual (maxDischargeDepth := 60))

theorem keeps_execFullRateAdvertise (s : State) : Keeps s (execFullRateAdvertise s) :=
  keeps_act (by simp +contextual (maxDischargeDepth := 60))

theorem keeps_execFullRateRetry (port : Nat) (s : State) : Keeps s (execFullRateRetry port s) :=
  keeps_act (by simp +contextual (maxDischargeDepth := 60))

theorem keeps_execFlitSlot (port : Nat) (s : State) : Keeps s (execFlitSlot port s) :=
  keeps_act (by simp +contextual (maxDischargeDepth := 60))

theorem keeps_execCellFlit (place : LaneAt) (fec : Fec) (flit : Bytes) (s : State) : Keeps s (execCellFlit place fec flit s) :=
  keeps_act (by simp +contextual (maxDischargeDepth := 60))

theorem keeps_execAckTimer (port : Nat) (s : State) : Keeps s (execAckTimer port s) :=
  keeps_act (by simp +contextual (maxDischargeDepth := 60))

theorem keeps_execDescriptorRead (ring : Nat) (desc : Option (BitVec 512)) (upset : Upset) (s : State) : Keeps s (execDescriptorRead ring desc upset s) :=
  keeps_act (by
    (repeat' split) <;> simp +contextual (maxDischargeDepth := 60))

theorem keeps_execWaitRelease (c : Ref) (upset : Upset) (s : State) : Keeps s (execWaitRelease c upset s) := by
  unfold execWaitRelease
  split
  · exact keeps_stay s
  · exact keeps_act (by simp +contextual (maxDischargeDepth := 60))

theorem keeps_execPeriodicSlice (die : Nat) (s : State) : Keeps s (execPeriodicSlice die s) :=
  keeps_act (by
    (repeat' split) <;> simp +contextual (maxDischargeDepth := 60))

theorem keeps_execSliceBegin (unit : Nat) (s : State) : Keeps s (execSliceBegin unit s) := by
  unfold execSliceBegin
  split
  · exact keeps_stay s
  · exact keeps_act (by simp +contextual (maxDischargeDepth := 60))

theorem keeps_execSliceDeferred (unit : Nat) (s : State) : Keeps s (execSliceDeferred unit s) := by
  unfold execSliceDeferred
  split
  · exact keeps_stay s
  · exact keeps_act (by simp +contextual (maxDischargeDepth := 60))

theorem keeps_execSliceEnd (unit : Nat) (passed : Bool) (s : State) : Keeps s (execSliceEnd unit passed s) := by
  unfold execSliceEnd
  split
  · exact keeps_stay s
  · next r _ =>
    have ended : Good s (((s.freeSlice r).dropSlice unit).setUnitState unit (s.restState unit)) := by
      simp +contextual (maxDischargeDepth := 60)
    exact keeps_act (.answerSlice (.ite (.shed (ended.fset ..) _)
      (.failScore (.unitFailed (.logUnit (.fset (.fadd (ended.fset ..) ..) ..) ..) _) _)) ..)

theorem keeps_execPatrolScrub (line found : Nat) (s : State) : Keeps s (execPatrolScrub line found s) :=
  keeps_act (by simp +contextual (maxDischargeDepth := 60))

theorem keeps_execFullBistComplete (failed : List Nat) (s : State) : Keeps s (execFullBistComplete failed s) := by
  unfold execFullBistComplete
  split <;> exact keeps_act (by simp +contextual (maxDischargeDepth := 60))

theorem keeps_execIdentity (m : Master) (req : MbxReq) (s : State) : Keeps s (execIdentity m req s) :=
  keeps_mail fun s q => (by simp +contextual (maxDischargeDepth := 60))

theorem keeps_execQuote (m : Master) (req : MbxReq) (s : State) : Keeps s (execQuote m req s) :=
  keeps_mail fun s q => (by simp +contextual (maxDischargeDepth := 60))

theorem keeps_execLogFetch (m : Master) (req : MbxReq) (s : State) : Keeps s (execLogFetch m req s) :=
  keeps_mail fun s q => (by simp +contextual (maxDischargeDepth := 60))

theorem keeps_execLogAck (m : Master) (req : MbxReq) (s : State) : Keeps s (execLogAck m req s) :=
  keeps_mail fun s _ => .respond (.aon (.refl s) s.pwr (List.length_filter_le _ _)) ..

theorem keeps_execSensors (m : Master) (req : MbxReq) (s : State) : Keeps s (execSensors m req s) :=
  keeps_mail fun s q => (by simp +contextual (maxDischargeDepth := 60))

theorem keeps_execHealthDetail (m : Master) (req : MbxReq) (s : State) : Keeps s (execHealthDetail m req s) :=
  keeps_mail fun s q => (by simp +contextual (maxDischargeDepth := 60))

theorem keeps_execPowerCap (m : Master) (req : MbxReq) (s : State) : Keeps s (execPowerCap m req s) :=
  keeps_mail fun s q => (by simp +contextual (maxDischargeDepth := 60))

theorem keeps_execGateChallenge (m : Master) (req : MbxReq) (s : State) : Keeps s (execGateChallenge m req s) :=
  keeps_mail fun s q => (by simp +contextual (maxDischargeDepth := 60))

theorem keeps_execGateGrant (m : Master) (req : MbxReq) (s : State) : Keeps s (execGateGrant m req s) :=
  keeps_mail fun s q => (by simp +contextual (maxDischargeDepth := 60))

theorem keeps_execFwBegin (m : Master) (req : MbxReq) (s : State) : Keeps s (execFwBegin m req s) :=
  keeps_mail fun s q => by
    refine .ite (by simp +contextual (maxDischargeDepth := 60)) (.ite (by simp +contextual (maxDischargeDepth := 60)) (.respond (.logEvent (.nv (.refl s) _ ?_) ..) ..))
    exact ⟨rfl, rfl, rfl, Nat.le_refl _, id, List.prefix_refl _⟩

theorem keeps_execFwChunk (m : Master) (req : MbxReq) (s : State) : Keeps s (execFwChunk m req s) :=
  keeps_mail fun s q => (by
    (repeat' split) <;> simp +contextual (maxDischargeDepth := 60))

theorem keeps_execFwCommit (m : Master) (req : MbxReq) (s : State) : Keeps s (execFwCommit m req s) :=
  keeps_mail fun s q => by
    split
    · simp +contextual (maxDischargeDepth := 60)
    · next h _ =>
      have floor : s.nv.svnFloor ≤ if q.field 0 1 = 1 then max s.nv.svnFloor (fwSvn h) else s.nv.svnFloor := by split <;> omega
      refine .ite (by simp +contextual (maxDischargeDepth := 60)) (.respond (.ite (.leaveRecovery (.logEvent (.nv (.refl s) _ ?_) ..))
        (.logEvent (.nv (.refl s) _ ?_) ..)) ..) <;> exact ⟨rfl, rfl, rfl, floor, id, List.prefix_refl _⟩

theorem keeps_execShutdown (m : Master) (req : MbxReq) (s : State) : Keeps s (execShutdown m req s) :=
  keeps_mail fun s q => (by simp +contextual (maxDischargeDepth := 60))

theorem keeps_execSlice (m : Master) (req : MbxReq) (s : State) : Keeps s (execSlice m req s) :=
  keeps_mail fun s q => (by simp +contextual (maxDischargeDepth := 60))

theorem keeps_execRepair (m : Master) (req : MbxReq) (s : State) : Keeps s (execRepair m req s) :=
  keeps_mail fun s q => (by simp +contextual (maxDischargeDepth := 60))

theorem keeps_execFuse (m : Master) (req : MbxReq) (s : State) : Keeps s (execFuse m req s) :=
  keeps_mail fun s q => (by simp +contextual (maxDischargeDepth := 60))

theorem keeps_execLifecycle (m : Master) (req : MbxReq) (s : State) : Keeps s (execLifecycle m req s) :=
  keeps_mail fun s q => (by
    dsimp only
    (repeat' split) <;> simp +contextual (maxDischargeDepth := 60))

theorem keeps_execOwnerEnroll (m : Master) (req : MbxReq) (s : State) : Keeps s (execOwnerEnroll m req s) :=
  keeps_mail fun s q => by
    refine .ite (.respond (.nv (.refl s) _ ?_) ..) (by simp +contextual (maxDischargeDepth := 60))
    exact ⟨rfl, rfl, rfl, Nat.le_refl _, id, List.prefix_refl _⟩

theorem keeps_execClaim (m : Master) (resource : Nat) (s : State) : Keeps s (execClaim m resource s) :=
  keeps_act (by simp +contextual (maxDischargeDepth := 60))

theorem keeps_execRelease (m : Master) (resource : Nat) (s : State) : Keeps s (execRelease m resource s) :=
  keeps_act (by simp +contextual (maxDischargeDepth := 60))

theorem keeps_execSurvey (c : Ref) (s : State) : Keeps s (execSurvey c s) :=
  keeps_issue fun x => (by simp +contextual (maxDischargeDepth := 60))

theorem keeps_execSurveyGo (m : Master) (s : State) : Keeps s (execSurveyGo m s) :=
  keeps_act (by simp +contextual (maxDischargeDepth := 60))

theorem keeps_execSurveyComplete (failed : Bool) (s : State) : Keeps s (execSurveyComplete failed s) := by
  unfold execSurveyComplete
  split
  · exact keeps_stay s
  · exact keeps_act (by
      (repeat' split) <;> simp +contextual (maxDischargeDepth := 60))

theorem keeps_execGcLoad (m : Master) (w : HalfWrite) (s : State) : Keeps s (execGcLoad m w s) :=
  keeps_act (by simp +contextual (maxDischargeDepth := 60))

theorem keeps_execTimeCtrl (m : Master) (value : Word32) (s : State) : Keeps s (execTimeCtrl m value s) :=
  keeps_act (by simp +contextual (maxDischargeDepth := 60))

theorem keeps_execTimeExchange (s : State) : Keeps s (execTimeExchange s) :=
  keeps_act (by
    dsimp only
    (repeat' split) <;> simp +contextual (maxDischargeDepth := 60))

theorem keeps_execTimeRequest (port : Nat) (flit : Bytes) (s : State) : Keeps s (execTimeRequest port flit s) :=
  keeps_act (by simp +contextual (maxDischargeDepth := 60))

theorem keeps_execTimeReply (port : Nat) (flit : Bytes) (s : State) : Keeps s (execTimeReply port flit s) := by
  unfold execTimeReply
  split
  · exact keeps_stay s
  · exact keeps_act (by
      dsimp only
      (repeat' split) <;> simp +contextual (maxDischargeDepth := 60))

theorem keeps_execCounterStep (s : State) : Keeps s (execCounterStep s) := by
  unfold execCounterStep
  split
  · exact keeps_stay s
  · exact keeps_act (.stepped (.fset (.time (.rset (.refl s) ..) _) ..))

theorem keeps_execTick (s : State) : Keeps s (execTick s) :=
  keeps_act (by simp +contextual (maxDischargeDepth := 60))

theorem keeps_execScheduleLoad (c : Ref) (image : Option Bytes) (s : State) : Keeps s (execScheduleLoad c image s) :=
  keeps_fabric fun x => (by
    (repeat' split) <;> simp +contextual (maxDischargeDepth := 60))

theorem keeps_execScheduleStart (s : State) : Keeps s (execScheduleStart s) := by
  unfold execScheduleStart
  split
  · exact keeps_stay s
  · exact keeps_act (by simp +contextual (maxDischargeDepth := 60))

theorem keeps_execSlotBoundary (s : State) : Keeps s (execSlotBoundary s) := by
  unfold execSlotBoundary
  split
  · exact keeps_stay s
  · exact keeps_act (by simp +contextual (maxDischargeDepth := 60))

theorem keeps_execRouteStage (c : Ref) (image : Option Bytes) (s : State) : Keeps s (execRouteStage c image s) :=
  keeps_fabric fun x => (by
    (repeat' split) <;> simp +contextual (maxDischargeDepth := 60))

theorem keeps_execRouteStageWrite (s : State) : Keeps s (execRouteStageWrite s) := by
  unfold execRouteStageWrite
  split
  · exact keeps_stay s
  · exact keeps_act (by simp +contextual (maxDischargeDepth := 60))

theorem keeps_execRouteStageTimeout (s : State) : Keeps s (execRouteStageTimeout s) := by
  unfold execRouteStageTimeout
  split
  · exact keeps_stay s
  · exact keeps_act (by simp +contextual (maxDischargeDepth := 60))

theorem keeps_execRouteSwap (c : Ref) (s : State) : Keeps s (execRouteSwap c s) :=
  keeps_fabric fun x => (by simp +contextual (maxDischargeDepth := 60))

theorem keeps_execRouteSwapAt (s : State) : Keeps s (execRouteSwapAt s) := by
  unfold execRouteSwapAt
  split
  · exact keeps_stay s
  · exact keeps_act (by simp +contextual (maxDischargeDepth := 60))

theorem keeps_execWatchdogExpiry (s : State) : Keeps s (execWatchdogExpiry s) :=
  keeps_actShed (by simp +contextual (maxDischargeDepth := 60))

theorem keeps_execShedSramUncorrectable (_addr : Nat) (s : State) : Keeps s (execShedSramUncorrectable _addr s) :=
  keeps_actShed (by simp +contextual (maxDischargeDepth := 60))

theorem keeps_execFirmwareRestarted (s : State) : Keeps s (execFirmwareRestarted s) :=
  keeps_actShed (by simp +contextual (maxDischargeDepth := 60))

theorem keeps_execHeartbeat (s : State) : Keeps s (execHeartbeat s) :=
  keeps_act (by simp +contextual (maxDischargeDepth := 60))

theorem keeps_execEvaluationInterval (r : Readings) (s : State) : Keeps s (execEvaluationInterval r s) :=
  keeps_act (by simp +contextual (maxDischargeDepth := 60))

theorem keeps_execScoringInterval (s : State) : Keeps s (execScoringInterval s) :=
  have scored : Good s (s.each (List.range unitTotal) State.scoreUnit) :=
    ⟨fun _ hs => Queued.each (fun t u ht => Queued.scoreUnit t u ht) hs, fun _ _ hs => Kept.each (fun t u ht => Kept.scoreUnit t u ht) hs⟩
  keeps_act (.shed (scored.trans ⟨fun _ hs => Queued.bump _ (Queued.restartTick _ _ hs), fun _ _ hs => Kept.bump _ (Kept.restartTick _ _ hs)⟩) _)

theorem keeps_execGrantExpiry (s : State) : Keeps s (execGrantExpiry s) := by
  unfold execGrantExpiry
  split
  · exact keeps_stay s
  · exact keeps_act (by simp +contextual (maxDischargeDepth := 60))

theorem keeps_execTaprootLinkDown (loss : TapLoss) (s : State) : Keeps s (execTaprootLinkDown loss s) :=
  keeps_act (by simp +contextual (maxDischargeDepth := 60))

theorem keeps_execTaprootLinkUp (card width : Nat) (mode : TapMode) (s : State) : Keeps s (execTaprootLinkUp card width mode s) :=
  keeps_act (by simp +contextual (maxDischargeDepth := 60))

theorem keeps_libraryHalt (o : VOp) (s : State) : Keeps s (s.libraryHalt o) := by
  unfold State.libraryHalt
  split
  · exact keeps_stay s
  · apply keeps_act
    (repeat' split) <;> simp +contextual (maxDischargeDepth := 60)

theorem keeps_execTransferComplete (tile tid : Nat) (data : Option Bytes) (s : State) : Keeps s (execTransferComplete tile tid data s) := by
  unfold execTransferComplete
  split
  · exact keeps_stay s
  · split
    · exact keeps_stay s
    · exact keeps_act (by
        dsimp only
        (repeat' split) <;> simp +contextual (maxDischargeDepth := 60))

/-- A row of R294 is an issue, or HALT in a program of the library. -/
theorem exec_word_cases {c : Instr} {r : VyRow} (row : rowOf c = some r) (s : State) :
    s.IsIssue r (exec c s) ∨ exec c s = s.libraryHalt r.op := by
  by_cases own : s.vy.any (fun p => p.lib != 0) = true
  case neg => exact .inl (exec_isIssue row (Bool.eq_false_iff.mpr own))
  case pos =>
    cases c with
    | halt => cases row; exact .inr (if_pos own)
    | add | sub | mul | mulh | mulhu | div | divu | rem | remu | and | or | xor | shl | shr | sar | rotl | min | max | minu | maxu =>
      cases row; dsimp only [exec]; exact .inl .vyInt
    | cmpEq | cmpLt | cmpLtu => cases row; dsimp only [exec]; exact .inl .vyCmp
    | fadd | fsub | fmul | fma | fnma | fdiv | fmax | fmin | fsel => cases row; dsimp only [exec]; exact .inl .vyFloat_binary
    | fsqrt | fabs | fsign | fmov => cases row; dsimp only [exec]; exact .inl .vyFloat_unary
    | fcmpEq | fcmpLt | fcmpLe => cases row; dsimp only [exec]; exact .inl .vyFcmp
    | ld | lds | pld => cases row; dsimp only [exec]; exact .inl .vyLoad
    | st | pst => cases row; dsimp only [exec]; exact .inl .vyStore
    | aadd | amin | amax | aminu | amaxu | aand | aor | aswp | acas => cases row; dsimp only [exec]; exact .inl .vyAtomic
    | _ => cases row <;> dsimp only [exec] <;> exact .inl ⟨_, rfl⟩

theorem keeps_word {c : Instr} {r : VyRow} (row : rowOf c = some r) (s : State) : Keeps s (exec c s) := by
  rcases exec_word_cases row s with ⟨f, arm⟩ | arm
  · exact arm ▸ keeps_vyIssue
  · exact arm ▸ keeps_libraryHalt r.op s

/-- Every command completes in a next state, which keeps the queue and the invariant. -/
theorem keeps_exec (c : Instr) (s : State) : Keeps s (exec c s) := by
  cases c with
  | nop c => exact keeps_execNop c s
  | openBucket c => exact keeps_execOpenBucket c s
  | closeBucket c => exact keeps_execCloseBucket c s
  | allreduce c => exact keeps_execAllreduce c s
  | reduceScatter c => exact keeps_execReduceScatter c s
  | allgather c => exact keeps_execAllgather c s
  | shift c => exact keeps_execShift c s
  | permute c => exact keeps_execPermute c s
  | norm c upset => exact keeps_execNorm c upset s
  | step c fault => exact keeps_execStep c fault s
  | publish c => exact keeps_execPublish c s
  | park c => exact keeps_execPark c s
  | fetch c => exact keeps_execFetch c s
  | checkpoint c => exact keeps_execCheckpoint c s
  | restore c image => exact keeps_execRestore c image s
  | sieveRun c block => exact keeps_execSieveRun c block s
  | fence c => exact keeps_execFence c s
  | unfence c => exact keeps_execUnfence c s
  | launchAt c => exact keeps_execLaunchAt c s
  | scheduleLoad c image => exact keeps_execScheduleLoad c image s
  | routeStage c image => exact keeps_execRouteStage c image s
  | routeSwap c => exact keeps_execRouteSwap c s
  | survey c => exact keeps_execSurvey c s
  | descriptorRead ring desc upset => exact keeps_execDescriptorRead ring desc upset s
  | waitRelease c upset => exact keeps_execWaitRelease c upset s
  | admitOp c => exact keeps_execAdmitOp c s
  | contrib port p => exact keeps_execContrib port p s
  | rakeAccumulate bed upset => exact keeps_execRakeAccumulate bed upset s
  | xp port p upset => exact keeps_execXp port p upset s
  | chunkFinal job tag chunk upset => exact keeps_execChunkFinal job tag chunk upset s
  | bucketComplete job tag => exact keeps_execBucketComplete job tag s
  | nonrootComplete job tag => exact keeps_execNonrootComplete job tag s
  | result port p => exact keeps_execResult port p s
  | ready port p => exact keeps_execReady port p s
  | ready2 port p => exact keeps_execReady2 port p s
  | summary port p => exact keeps_execSummary port p s
  | abort port p => exact keeps_execAbort port p s
  | normMax port c => exact keeps_execNormMax port c s
  | normSum port p upset => exact keeps_execNormSum port p upset s
  | pubMax port p => exact keeps_execPubMax port p s
  | block port p => exact keeps_execBlock port p s
  | stats port p => exact keeps_execStats port p s
  | allgatherData port p => exact keeps_execAllgatherData port p s
  | shiftData port p => exact keeps_execShiftData port p s
  | permuteCounts port p => exact keeps_execPermuteCounts port p s
  | permuteRows port p => exact keeps_execPermuteRows port p s
  | parkData port p => exact keeps_execParkData port p s
  | imageData port p => exact keeps_execImageData port p s
  | packetRoute inp p => exact keeps_execPacketRoute inp p s
  | xpSend job tag chunk upset => exact keeps_execXpSend job tag chunk upset s
  | bucketDeadline job tag => exact keeps_execBucketDeadline job tag s
  | normDeadline c => exact keeps_execNormDeadline c s
  | stepStart c fault => exact keeps_execStepStart c fault s
  | publishStart c => exact keeps_execPublishStart c s
  | checkpointStart c => exact keeps_execCheckpointStart c s
  | commandComplete c => exact keeps_execCommandComplete c s
  | irqDelay ring => exact keeps_execIrqDelay ring s
  | launchMature c => exact keeps_execLaunchMature c s
  | programStart c text bufs => exact keeps_execProgramStart c text bufs s
  | programDeadline c => exact keeps_execProgramDeadline c s
  | transferComplete tile tid data => exact keeps_execTransferComplete tile tid data s
  | doorbell m ring half value => exact keeps_execDoorbell m ring half value s
  | ringEnable m ring ctrl => exact keeps_execRingEnable m ring ctrl s
  | ringDisable m ring ctrl => exact keeps_execRingDisable m ring ctrl s
  | jobEnable m job => exact keeps_execJobEnable m job s
  | jobDisable m job => exact keeps_execJobDisable m job s
  | jobEndComplete job => exact keeps_execJobEndComplete job s
  | layoutCommit m value => exact keeps_execLayoutCommit m value s
  | partReset m value => exact keeps_execPartReset m value s
  | initDone m => exact keeps_execInitDone m s
  | expertGateClose m => exact keeps_execExpertGateClose m s
  | surveyGo m => exact keeps_execSurveyGo m s
  | surveyComplete failed => exact keeps_execSurveyComplete failed s
  | gcLoad m w => exact keeps_execGcLoad m w s
  | timeCtrl m value => exact keeps_execTimeCtrl m value s
  | tickOutEnable m value => exact keeps_execTickOutEnable m value s
  | debugClockEnable m value => exact keeps_execDebugClockEnable m value s
  | portEnable m port => exact keeps_execPortEnable m port s
  | portDisable m port => exact keeps_execPortDisable m port s
  | portRetrain m port => exact keeps_execPortRetrain m port s
  | lxCtrl m lane value => exact keeps_execLxCtrl m lane value s
  | lxPrbsErrRead m lane => exact keeps_execLxPrbsErrRead m lane s
  | mirrorEnable m session value => exact keeps_execMirrorEnable m session value s
  | mirrorDisable m session value => exact keeps_execMirrorDisable m session value s
  | mirHead m session value => exact keeps_execMirHead m session value s
  | telemetryEnable m value => exact keeps_execTelemetryEnable m value s
  | telemetryInterval => exact keeps_execTelemetryInterval s
  | claim m resource => exact keeps_execClaim m resource s
  | release m resource => exact keeps_execRelease m resource s
  | hppr m stack value => exact keeps_execHppr m stack value s
  | sppr m stack value => exact keeps_execSppr m stack value s
  | pprComplete stack ok left => exact keeps_execPprComplete stack ok left s
  | mrSel m stack value data => exact keeps_execMrSel m stack value data s
  | registerWrite m addr size value => exact keeps_execRegisterWrite m addr size value s
  | identity m req => exact keeps_execIdentity m req s
  | quote m req => exact keeps_execQuote m req s
  | logFetch m req => exact keeps_execLogFetch m req s
  | logAck m req => exact keeps_execLogAck m req s
  | sensors m req => exact keeps_execSensors m req s
  | healthDetail m req => exact keeps_execHealthDetail m req s
  | powerCap m req => exact keeps_execPowerCap m req s
  | gateChallenge m req => exact keeps_execGateChallenge m req s
  | gateGrant m req => exact keeps_execGateGrant m req s
  | fwBegin m req => exact keeps_execFwBegin m req s
  | fwChunk m req => exact keeps_execFwChunk m req s
  | fwCommit m req => exact keeps_execFwCommit m req s
  | shutdown m req => exact keeps_execShutdown m req s
  | slice m req => exact keeps_execSlice m req s
  | repair m req => exact keeps_execRepair m req s
  | fuse m req => exact keeps_execFuse m req s
  | lifecycle m req => exact keeps_execLifecycle m req s
  | ownerEnroll m req => exact keeps_execOwnerEnroll m req s
  | porAssert => exact keeps_execPorAssert s
  | porRelease railsOk => exact keeps_execPorRelease railsOk s
  | rootPllLock => exact keeps_execRootPllLock s
  | firmwareBoot => exact keeps_execFirmwareBoot s
  | wipeComplete => exact keeps_execWipeComplete s
  | seedlingExit => exact keeps_execSeedlingExit s
  | clockFailure cause => exact keeps_execClockFailure cause s
  | railCollapse rail millivolts => exact keeps_execRailCollapse rail millivolts s
  | thermalTrip sensor => exact keeps_execThermalTrip sensor s
  | standbyPowerLoss => exact keeps_execStandbyPowerLoss s
  | taprootLinkDown loss => exact keeps_execTaprootLinkDown loss s
  | taprootLinkUp card width mode => exact keeps_execTaprootLinkUp card width mode s
  | detectTest port lanes => exact keeps_execDetectTest port lanes s
  | trainComplete port lanes => exact keeps_execTrainComplete port lanes s
  | lockComplete port markers => exact keeps_execLockComplete port markers s
  | capTimer port => exact keeps_execCapTimer port s
  | capFlit port cap => exact keeps_execCapFlit port cap s
  | stageTimeout port => exact keeps_execStageTimeout port s
  | squelchEnd port => exact keeps_execSquelchEnd port s
  | cellFlit place fec flit => exact keeps_execCellFlit place fec flit s
  | ackTimer port => exact keeps_execAckTimer port s
  | farRetrain port => exact keeps_execFarRetrain port s
  | retrainComplete port => exact keeps_execRetrainComplete port s
  | linkLost port replayEcc => exact keeps_execLinkLost port replayEcc s
  | fullRateAdvertise => exact keeps_execFullRateAdvertise s
  | fullRateRetry port => exact keeps_execFullRateRetry port s
  | timeExchange => exact keeps_execTimeExchange s
  | timeRequest port flit => exact keeps_execTimeRequest port flit s
  | timeReply port flit => exact keeps_execTimeReply port flit s
  | counterStep => exact keeps_execCounterStep s
  | graftSense volts => exact keeps_execGraftSense volts s
  | pairFlit trunk pair => exact keeps_execPairFlit trunk pair s
  | pairingTimeout trunk => exact keeps_execPairingTimeout trunk s
  | mergeComplete => exact keeps_execMergeComplete s
  | slotBoundary => exact keeps_execSlotBoundary s
  | scheduleStart => exact keeps_execScheduleStart s
  | routeSwapAt => exact keeps_execRouteSwapAt s
  | routeStageWrite => exact keeps_execRouteStageWrite s
  | routeStageTimeout => exact keeps_execRouteStageTimeout s
  | poolWaitGrant die pool => exact keeps_execPoolWaitGrant die pool s
  | watchdogExpiry => exact keeps_execWatchdogExpiry s
  | firmwareRestarted => exact keeps_execFirmwareRestarted s
  | heartbeat => exact keeps_execHeartbeat s
  | evaluationInterval r => exact keeps_execEvaluationInterval r s
  | scoringInterval => exact keeps_execScoringInterval s
  | grantExpiry => exact keeps_execGrantExpiry s
  | periodicSlice die => exact keeps_execPeriodicSlice die s
  | sliceBegin unit => exact keeps_execSliceBegin unit s
  | sliceDeferred unit => exact keeps_execSliceDeferred unit s
  | sliceEnd unit passed => exact keeps_execSliceEnd unit passed s
  | patrolScrub line found => exact keeps_execPatrolScrub line found s
  | tick => exact keeps_execTick s
  | cellTime => exact keeps_execCellTime s
  | flitSlot port => exact keeps_execFlitSlot port s
  | fullBistComplete failed => exact keeps_execFullBistComplete failed s
  | shedSramUncorrectable addr => exact keeps_execShedSramUncorrectable addr s
  | standbyPowerApplied => exact keeps_execStandbyPowerApplied s
  | stackTraining stack ok retries => exact keeps_execStackTraining stack ok retries s
  | _ => exact keeps_word rfl s

/-- A command keeps the invariant, whatever queue waits behind it. -/
theorem exec_stepInv {c : Instr} {n : Nv} {s t : State} (hs : StepInv n s) (h : exec c s = .next t) : StepInv n t := by
  obtain ⟨u, hu, good⟩ := keeps_exec c s
  cases hu.symm.trans h
  exact (kept_iff.mp (good.kept s.pending n (kept_iff.mpr ⟨hs, rfl⟩))).1

end Sys2Proof.Machine

namespace Sys2Proof.Safety
open Sys2Proof.Machine

/-- Settles O51: `step` is one match on the queue. -/
theorem stepRunsFront : Obligations.StepRunsFront :=
  ⟨fun s c r queue => by rw [step, queue], fun _ _ => rfl, fun s queue => by rw [step, queue]⟩

/-- Settles O52: the queue is no part of the invariant, and the command in front keeps it. -/
theorem everyStepKeepsTheInvariant : Obligations.EveryStepKeepsTheInvariant := by
  intro n s t hs h
  unfold step at h
  split at h
  · cases h; exact hs
  · next r _ => exact exec_stepInv (s := { s with pending := r }) hs h

/-- Settles O53: at reset the register store and the log are empty. -/
theorem resetKeepsTheInvariant : Obligations.ResetKeepsTheInvariant :=
  ⟨⟨List.Pairwise.nil, List.forall_mem_nil _⟩, Nat.zero_le _, fusesKept.refl _⟩

/-- Settles O54: every row keeps the queue of the state that it starts from. -/
theorem everyCommandCompletes : Obligations.EveryCommandCompletes := by
  intro c s
  obtain ⟨t, ht, good⟩ := keeps_exec c s
  exact ⟨t, ht, good.queued s.pending rfl⟩

/-- Settles O59: reads and writes of the register store by the laws of the table, and the reset values by computation. -/
theorem registers : Obligations.Registers :=
  ⟨fun s a v => ⟨s.rget_rset a v, fun _ hb => s.rget_rset_other v hb.symm, rfl⟩, rfl, rfl, rfl, rfl, rfl⟩

end Sys2Proof.Safety
end

section
/-! PROOF. An XP record is read back as it was sent (R138 to R144, O56): the header by its fields, the flag bytes by their place, and
the values group by group, since a group's width holds each of its values and the shift loses none of their bits. -/
namespace Sys2Proof.Machine
open Sys2Proof.Safety

/-! ## Two's complement -/

theorem ofTwos_mod (w v : Nat) : ofTwos w (v % 2 ^ w) = ofTwos w v := by simp only [ofTwos, Nat.mod_mod]

/-- A value that `w` bits hold in two's complement. -/
def FitsTwos (w : Nat) (v : Int) : Prop := -(2 ^ (w - 1) : Int) ≤ v ∧ v < (2 ^ (w - 1) : Int)

theorem two_pow_pos_int (k : Nat) : (0 : Int) < 2 ^ k := by
  exact_mod_cast Nat.two_pow_pos k

theorem FitsTwos.mono {k w : Nat} {v : Int} (h : FitsTwos k v) (hw : k ≤ w) : FitsTwos w v := by
  have : (2 ^ (k - 1) : Int) ≤ 2 ^ (w - 1) := by
    exact_mod_cast Nat.pow_le_pow_right (n := 2) (by decide) (show k - 1 ≤ w - 1 by omega)
  unfold FitsTwos at *
  omega

theorem fitsTwos_zero (w : Nat) : FitsTwos w 0 := by
  have := two_pow_pos_int (w - 1)
  exact ⟨by omega, this⟩

/-- What is written in two's complement is read back. -/
theorem ofTwos_toTwos {w : Nat} {v : Int} (hw : 0 < w) (h : FitsTwos w v) : ofTwos w (toTwos w v) = v := by
  obtain ⟨k, rfl⟩ : ∃ k, w = k + 1 := ⟨w - 1, by omega⟩
  obtain ⟨low, high⟩ := h
  simp only [Nat.add_sub_cancel] at low high
  have double : (2 ^ (k + 1) : Int) = 2 * 2 ^ k := by rw [Int.pow_succ, Int.mul_comm]
  have pos := two_pow_pos_int k
  have cast : ((2 ^ k : Nat) : Int) = 2 ^ k := by norm_cast
  have range : ((v % (2 ^ (k + 1) : Int)).toNat : Int) = v % 2 ^ (k + 1) := Int.toNat_of_nonneg (Int.emod_nonneg _ (by omega))
  have below : (v % (2 ^ (k + 1) : Int)).toNat < 2 ^ (k + 1) := by
    have := Int.emod_lt_of_pos v (show (0 : Int) < 2 ^ (k + 1) by omega)
    have c2 : ((2 ^ (k + 1) : Nat) : Int) = 2 ^ (k + 1) := by norm_cast
    omega
  simp only [ofTwos, toTwos, Nat.mod_eq_of_lt below, Nat.add_sub_cancel]
  by_cases neg : v < 0
  · have : v % (2 ^ (k + 1) : Int) = v + 2 ^ (k + 1) := by
      rw [← Int.add_emod_right, Int.emod_eq_of_lt] <;> omega
    split <;> omega
  · have : v % (2 ^ (k + 1) : Int) = v := Int.emod_eq_of_lt (by omega) (by omega)
    split <;> omega

/-- The width of a value holds it. -/
theorem fitsTwos_twosWidth (v : Int) : FitsTwos (twosWidth v) v := by
  have held (m : Nat) (h : m ≠ 0) : (m : Int) < 2 ^ (m.log2 + 1) := by
    exact_mod_cast Nat.lt_log2_self
  unfold FitsTwos twosWidth
  dsimp only
  split <;> split
  · simp; omega
  · next h => have := held _ h; simp only [Nat.add_succ_sub_one]; omega
  · simp; omega
  · next h => have := held _ h; simp only [Nat.add_succ_sub_one]; omega

theorem twosWidth_le {v : Int} (h : FitsTwos 128 v) : twosWidth v ≤ 128 := by
  have small (m : Nat) (h0 : m ≠ 0) (hm : m < 2 ^ 127) : m.log2 + 2 ≤ 128 := by
    have := (Nat.log2_lt h0).mpr hm
    omega
  obtain ⟨low, high⟩ := h
  simp only [Nat.reduceSub] at low high
  unfold twosWidth
  dsimp only
  split <;> split
  · omega
  · next h => exact small _ h (by omega)
  · omega
  · next h => exact small _ h (by omega)

theorem fitsTwos_toInt (x : BitVec 128) : FitsTwos 128 x.toInt :=
  ⟨by simpa using BitVec.le_toInt x, by simpa using BitVec.toInt_lt (x := x)⟩

/-! ## The shift of a stripe (R141) -/

theorem trailZeros_dvd (k v : Nat) : 2 ^ trailZeros k v ∣ v := by
  induction k generalizing v with
  | zero => simp [trailZeros]
  | succ k ih =>
    unfold trailZeros
    split
    · simp
    · obtain ⟨c, hc⟩ := ih (v / 2)
      exact ⟨c, by rw [Nat.pow_add, Nat.pow_one, Nat.mul_assoc, ← hc]; omega⟩

theorem trailZeros_le (k v : Nat) : trailZeros k v ≤ k := by
  induction k generalizing v with
  | zero => simp [trailZeros]
  | succ k ih =>
    have := ih (v / 2)
    unfold trailZeros
    split <;> omega

theorem foldl_min_le (l : List Nat) (a : Nat) : l.foldl min a ≤ a ∧ ∀ x ∈ l, l.foldl min a ≤ x := by
  induction l generalizing a with
  | nil => simp
  | cons y l ih =>
    obtain ⟨first, rest⟩ := ih (min a y)
    simp only [List.foldl_cons, List.forall_mem_cons]
    exact ⟨by omega, by omega, rest⟩

/-- The shift is at most 127, and no more than the trailing zeros of any value other than 0. -/
theorem xpShift_le (vs : List Int) : xpShift vs ≤ 127 ∧ ∀ v ∈ vs, v ≠ 0 → xpShift vs ≤ trailZeros 127 v.natAbs := by
  have listed : ∀ v ∈ vs, v ≠ 0 → trailZeros 127 v.natAbs ∈ (vs.filter (· ≠ 0)).map (fun v => trailZeros 127 v.natAbs) :=
    fun v hv h0 => List.mem_map_of_mem (List.mem_filter.mpr ⟨hv, by simpa using h0⟩)
  have bound : ∀ t ∈ (vs.filter (· ≠ 0)).map (fun v => trailZeros 127 v.natAbs), t ≤ 127 := by
    simp only [List.mem_map, forall_exists_index, and_imp, forall_apply_eq_imp_iff₂]
    exact fun v _ => trailZeros_le 127 _
  unfold xpShift
  dsimp only
  generalize (vs.filter (· ≠ 0)).map (fun v => trailZeros 127 v.natAbs) = z at listed bound ⊢
  cases z with
  | nil => exact ⟨Nat.zero_le _, fun v hv h0 => absurd (listed v hv h0) List.not_mem_nil⟩
  | cons t r =>
    obtain ⟨first, rest⟩ := foldl_min_le r t
    refine ⟨Nat.le_trans first (bound t List.mem_cons_self), fun v hv h0 => ?_⟩
    rcases List.mem_cons.mp (listed v hv h0) with h | h
    · exact h ▸ first
    · exact rest _ h

/-- A value shifted down by the shift of its stripe is shifted up again without loss. -/
theorem shift_back {vs : List Int} {v : Int} (hv : v ∈ vs) : v / 2 ^ xpShift vs * 2 ^ xpShift vs = v := by
  by_cases h0 : v = 0
  · simp [h0]
  · have dvd : 2 ^ xpShift vs ∣ v.natAbs := Nat.dvd_trans (Nat.pow_dvd_pow 2 ((xpShift_le vs).2 v hv h0)) (trailZeros_dvd 127 _)
    exact Int.ediv_mul_cancel (by exact_mod_cast Int.ofNat_dvd_left.mpr dvd)

theorem FitsTwos.shifted {w : Nat} {v : Int} (h : FitsTwos w v) (k : Nat) : FitsTwos w (v / 2 ^ k) := by
  have pos := two_pow_pos_int k
  obtain ⟨low, high⟩ := h
  have wider : (2 ^ (w - 1) : Int) ≤ 2 ^ (w - 1) * 2 ^ k := by
    have := Int.mul_le_mul_of_nonneg_left (show 1 ≤ 2 ^ k from pos) (Int.le_of_lt (two_pow_pos_int (w - 1)))
    rwa [Int.mul_one] at this
  constructor
  · rw [Int.le_ediv_iff_mul_le pos, Int.neg_mul]
    omega
  · rw [Int.ediv_lt_iff_lt_mul pos]
    omega

/-! ## Groups (R142, R143) -/

/-- A number of `a` bits below one of `b` bits. -/
theorem add_mul_lt_two_pow {a b x y : Nat} (hx : x < 2 ^ a) (hy : y < 2 ^ b) : x + 2 ^ a * y < 2 ^ a * 2 ^ b := by
  have := Nat.mul_le_mul_left (2 ^ a) hy
  rw [Nat.mul_succ] at this
  omega

theorem packBits_lt (w : Nat) (l : List Nat) : packBits w l < 2 ^ (w * l.length) := by
  induction l with
  | nil => simp [packBits]
  | cons c l ih =>
    have := Nat.mod_lt c (Nat.two_pow_pos w)
    rw [packBits, List.length_cons, Nat.mul_succ, Nat.pow_add, Nat.mul_comm (2 ^ (w * l.length))]
    exact add_mul_lt_two_pow this ih

/-- The fields that are packed are read back, in their order. -/
theorem map_range_packBits (w : Nat) (l : List Int) (hw : 0 < w) (h : ∀ v ∈ l, FitsTwos w v) (b : Nat) :
    (List.range l.length).map (fun i => ofTwos w ((packBits w (l.map (toTwos w)) + 2 ^ (w * l.length) * b) / 2 ^ (w * i))) = l := by
  induction l with
  | nil => rfl
  | cons v l ih =>
    obtain ⟨first, rest⟩ := List.forall_mem_cons.mp h
    have split : packBits w ((v :: l).map (toTwos w)) + 2 ^ (w * (v :: l).length) * b
        = toTwos w v % 2 ^ w + 2 ^ w * (packBits w (l.map (toTwos w)) + 2 ^ (w * l.length) * b) := by
      simp only [packBits, List.map_cons, List.length_cons, Nat.mul_succ, Nat.pow_add]
      rw [Nat.mul_add, Nat.add_assoc, Nat.mul_comm _ (2 ^ w), Nat.mul_assoc]
    have lt := Nat.mod_lt (toTwos w v) (Nat.two_pow_pos w)
    rw [split, List.length_cons, List.range_succ_eq_map, List.map_cons, List.map_map]
    congr 1
    · rw [Nat.mul_zero, Nat.pow_zero, Nat.div_one, ← ofTwos_mod, Nat.add_mul_mod_self_left, Nat.mod_mod, ofTwos_mod,
        ofTwos_toTwos hw first]
    · rw [← ih rest]
      simp only [List.length_map, List.length_range]
      refine List.map_congr_left fun i _ => ?_
      simp only [Function.comp, Nat.mul_succ, Nat.add_comm (w * i) w, Nat.pow_add, ← Nat.div_div_eq_div_mul]
      rw [Nat.add_mul_div_left _ _ (Nat.two_pow_pos w), Nat.div_eq_of_lt lt, Nat.zero_add, ih rest]

/-- The width of a group. -/
def groupWidth (vs : List Int) : Nat := 128 - min ((vs.map (fun v => 128 - twosWidth v)).foldl min 127) 96

theorem xpGroup_eq (vs : List Int) : xpGroup vs
    = (7 + 16 * groupWidth vs, (128 - groupWidth vs) + 2 ^ 7 * packBits (groupWidth vs) (vs.map (toTwos (groupWidth vs)))) := by
  have : 128 - groupWidth vs = min ((vs.map (fun v => 128 - twosWidth v)).foldl min 127) 96 := by unfold groupWidth; omega
  rw [this]
  rfl

theorem groupWidth_range (vs : List Int) : 32 ≤ groupWidth vs ∧ groupWidth vs ≤ 128 := by unfold groupWidth; omega

theorem fitsTwos_groupWidth {vs : List Int} (h : ∀ v ∈ vs, FitsTwos 128 v) : ∀ v ∈ vs, FitsTwos (groupWidth vs) v := by
  intro v hv
  have width := twosWidth_le (h v hv)
  have least := (foldl_min_le (vs.map (fun v => 128 - twosWidth v)) 127).2 _ (List.mem_map_of_mem hv)
  exact (fitsTwos_twosWidth v).mono (by unfold groupWidth; omega)

/-- A list of groups of 16 values that 128 bits hold. -/
def Groups (gs : List (List Int)) : Prop := ∀ g ∈ gs, g.length = 16 ∧ ∀ v ∈ g, FitsTwos 128 v

theorem xpGroups_lt {gs : List (List Int)} (h : Groups gs) : (xpGroups gs).2 < 2 ^ (xpGroups gs).1 := by
  induction gs with
  | nil => simp [xpGroups]
  | cons g gs ih =>
    obtain ⟨⟨len, _⟩, rest⟩ := List.forall_mem_cons.mp h
    have tail := ih rest
    have packed := packBits_lt (groupWidth g) (g.map (toTwos (groupWidth g)))
    have range := groupWidth_range g
    rw [List.length_map, len, Nat.mul_comm] at packed
    have head : (xpGroup g).2 < 2 ^ (xpGroup g).1 := by
      simp only [xpGroup_eq, Nat.pow_add]
      omega
    simp only [xpGroups, Nat.pow_add]
    exact add_mul_lt_two_pow head tail

/-- Groups packed without gaps are read back in turn. -/
theorem xpUngroup_xpGroups {gs : List (List Int)} (h : Groups gs) : xpUngroup gs.length (xpGroups gs).2 = gs.flatten := by
  induction gs with
  | nil => rfl
  | cons g gs ih =>
    obtain ⟨⟨len, fit⟩, rest⟩ := List.forall_mem_cons.mp h
    obtain ⟨low, high⟩ := groupWidth_range g
    have fields := map_range_packBits (groupWidth g) g (by omega) (fitsTwos_groupWidth fit) (xpGroups gs).2
    have packed := packBits_lt (groupWidth g) (g.map (toTwos (groupWidth g)))
    rw [List.length_map] at packed
    rw [len] at fields packed
    rw [Nat.mul_comm] at packed
    have bits : (xpGroups (g :: gs)).2 = (128 - groupWidth g)
        + 2 ^ 7 * (packBits (groupWidth g) (g.map (toTwos (groupWidth g))) + 2 ^ (groupWidth g * 16) * (xpGroups gs).2) := by
      simp only [xpGroups, xpGroup_eq, Nat.pow_add, Nat.mul_comm 16]
      rw [Nat.mul_add, Nat.add_assoc, Nat.mul_assoc]
    have width : 128 - (xpGroups (g :: gs)).2 % 2 ^ 7 = groupWidth g := by rw [bits]; omega
    have drop : (xpGroups (g :: gs)).2 / 2 ^ 7
        = packBits (groupWidth g) (g.map (toTwos (groupWidth g))) + 2 ^ (groupWidth g * 16) * (xpGroups gs).2 := by rw [bits]; omega
    have past (k : Nat) : (xpGroups (g :: gs)).2 / 2 ^ (7 + k)
        = (packBits (groupWidth g) (g.map (toTwos (groupWidth g))) + 2 ^ (groupWidth g * 16) * (xpGroups gs).2) / 2 ^ k := by
      rw [Nat.pow_add, ← Nat.div_div_eq_div_mul, drop]
    rw [List.length_cons, List.flatten_cons, xpUngroup]
    simp only [width, past, fields]
    rw [Nat.mul_comm 16, Nat.add_mul_div_left _ _ (Nat.two_pow_pos _), Nat.div_eq_of_lt (by rwa [Nat.mul_comm]), Nat.zero_add, ih rest]

/-! ## Values in groups of 16, the last one filled up with zeros -/

/-- A group filled up to 16 values. -/
def fillGroup (g : List Int) : List Int := g ++ List.replicate (16 - g.length) 0

theorem chunksOf_length (fuel : Nat) (l : List Int) (h : l.length ≤ fuel) : (chunksOf 16 fuel l).length = ceilDiv l.length 16 := by
  induction fuel generalizing l with
  | zero => simp [chunksOf, ceilDiv, Nat.le_zero.mp h]
  | succ fuel ih =>
    cases l with
    | nil => simp [chunksOf, ceilDiv]
    | cons v l =>
      simp only [chunksOf, List.length_cons] at h ⊢
      rw [ih _ (by simp; omega)]
      simp only [ceilDiv, List.length_drop, List.length_cons]
      omega

theorem chunksOf_take (fuel : Nat) (l : List Int) (h : l.length ≤ fuel) : ((chunksOf 16 fuel l).map fillGroup).flatten.take l.length = l := by
  induction fuel generalizing l with
  | zero => simp [chunksOf, List.length_eq_zero_iff.mp (Nat.le_zero.mp h)]
  | succ fuel ih =>
    cases l with
    | nil => simp [chunksOf]
    | cons v l =>
      generalize hw : v :: l = w at h
      have ne : w.length ≠ 0 := by simp [← hw]
      have cut : chunksOf 16 (fuel + 1) w = w.take 16 :: chunksOf 16 fuel (w.drop 16) := by rw [← hw]; rfl
      rw [cut, List.map_cons, List.flatten_cons]
      have tail := ih (w.drop 16) (by rw [List.length_drop]; omega)
      by_cases short : w.length ≤ 16
      · simp [fillGroup, List.take_of_length_le short]
      · have full : fillGroup (w.take 16) = w.take 16 := by
          simp only [fillGroup, List.length_take]
          simp [Nat.min_eq_left (show 16 ≤ w.length by omega)]
        rw [List.length_drop] at tail
        rw [full, List.take_append, List.length_take, Nat.min_eq_left (by omega), tail, List.take_of_length_le (List.length_take_le' ..),
          List.take_append_drop]

theorem chunksOf_groups (fuel : Nat) (l : List Int) (h : ∀ v ∈ l, FitsTwos 128 v) : Groups ((chunksOf 16 fuel l).map fillGroup) := by
  induction fuel generalizing l with
  | zero => simp [chunksOf, Groups]
  | succ fuel ih =>
    cases l with
    | nil => simp [chunksOf, Groups]
    | cons v l =>
      simp only [chunksOf, List.map_cons]
      refine List.forall_mem_cons.mpr ⟨⟨?_, fun x hx => ?_⟩, ih _ fun x hx => h x (List.mem_of_mem_drop hx)⟩
      · have most : ((v :: l).take 16).length ≤ 16 := List.length_take_le ..
        rw [fillGroup, List.length_append, List.length_replicate]
        omega
      · rcases List.mem_append.mp hx with hx | hx
        · exact h x (List.mem_of_mem_take hx)
        · rw [List.eq_of_mem_replicate hx]
          exact fitsTwos_zero 128

/-! ## Bytes (R23) -/

theorem length_leBytes (n v : Nat) : (leBytes n v).length = n := by
  induction n generalizing v <;> simp_all [leBytes]

theorem ofLe_leBytes (n v : Nat) : ofLe (leBytes n v) = v % 256 ^ n := by
  induction n generalizing v with
  | zero => simp [leBytes, ofLe, Nat.mod_one]
  | succ n ih =>
    rw [leBytes, ofLe, ih, BitVec.toNat_ofNat, show 2 ^ 8 = 256 from rfl, Nat.pow_succ', Nat.mod_mul]

theorem ofLe_append_zeros (b : Bytes) (n : Nat) : ofLe (b ++ List.replicate n 0) = ofLe b := by
  induction b with
  | nil => induction n <;> simp_all [ofLe, List.replicate_succ]
  | cons x b ih => rw [List.cons_append, ofLe, ofLe, ih]

/-- Bytes that stand within a string are read as they are. -/
theorem bytesAt_append (a m b : Bytes) : bytesAt (a ++ (m ++ b)) a.length m.length = m := by
  simp [bytesAt]

theorem numAt_leBytes (n v : Nat) (b : Bytes) : numAt (leBytes n v ++ b) 0 n = v % 256 ^ n := by
  have := bytesAt_append [] (leBytes n v) b
  rw [length_leBytes] at this
  rw [numAt, show bytesAt (leBytes n v ++ b) 0 n = leBytes n v from this, ofLe_leBytes]

theorem length_padTo (b : Bytes) : (padTo 8 b).length = ceilDiv b.length 8 * 8 := by
  simp only [padTo, ceilDiv, List.length_append, List.length_replicate]
  omega

/-- The number that a bit string packed into bytes spells. -/
theorem ofLe_packed {n v : Nat} (h : v < 2 ^ n) : ofLe (padTo 8 (leBytes (ceilDiv n 8) v)) = v := by
  have whole : v < 256 ^ ceilDiv n 8 := by
    refine Nat.lt_of_lt_of_le h ?_
    rw [show (256 : Nat) = 2 ^ 8 from rfl, ← Nat.pow_mul]
    exact Nat.pow_le_pow_right (by decide) (by unfold ceilDiv; omega)
  rw [padTo, ofLe_append_zeros, ofLe_leBytes, Nat.mod_eq_of_lt whole]

/-! ## The parts of a record (R138 to R143) -/

/-- The slot values of a record. -/
def XpRec.values (r : XpRec) : List Int := r.slots.map (·.n.toInt)

/-- Whether a flag byte is other than 0, and whether a value is. -/
def XpRec.hasFlags (r : XpRec) : Bool := r.slots.any (·.flags ≠ 0)
def XpRec.hasValues (r : XpRec) : Bool := r.values.any (· ≠ 0)

/-- The groups of a record's shifted values. -/
def XpRec.groups (r : XpRec) : List (List Int) :=
  (chunksOf 16 r.values.length (r.values.map (fun v => v / (2 ^ xpShift r.values : Int)))).map fillGroup

/-- The header of R139 as a number. -/
def XpRec.header (r : XpRec) : Nat :=
  r.stripe + 2 ^ 24 * toTwos 10 r.anchor + 2 ^ 34 * xpShift r.values + 2 ^ 41 * r.nelem
    + 2 ^ 50 * r.hasFlags.toNat + 2 ^ 51 * r.hasValues.toNat + 2 ^ 52 * r.res
    + 2 ^ 64 * r.ncontrib + 2 ^ 85 * r.firstFlag + 2 ^ 128 * r.maxrec.toNat
    + 2 ^ 160 * min r.cnt.nan (2 ^ 32 - 1) + 2 ^ 192 * min r.cnt.inf (2 ^ 32 - 1)
    + 2 ^ 224 * min r.cnt.aovf (2 ^ 32 - 1) + 2 ^ 256 * min r.cnt.gzero (2 ^ 32 - 1)

/-- The areas of flag bytes and of values. -/
def XpRec.flagArea (r : XpRec) : Bytes := if r.hasFlags then padTo 8 (r.slots.map (·.flags)) else []
def XpRec.valueArea (r : XpRec) : Bytes :=
  if r.hasValues then padTo 8 (leBytes (ceilDiv (xpGroups r.groups).1 8) (xpGroups r.groups).2) else []

theorem xpBytes_eq (r : XpRec) : xpBytes r = leBytes 40 r.header ++ (r.flagArea ++ r.valueArea) := by
  simp only [← List.append_assoc]
  rfl

/-- Every field of the header is read back. -/
theorem nbits_header {r : XpRec} (h : Fits r) :
    nbits r.header 0 24 = r.stripe ∧ nbits r.header 24 10 = toTwos 10 r.anchor ∧ nbits r.header 34 7 = xpShift r.values
    ∧ nbits r.header 41 9 = r.nelem ∧ nbits r.header 50 1 = r.hasFlags.toNat ∧ nbits r.header 51 1 = r.hasValues.toNat
    ∧ nbits r.header 52 7 = r.res ∧ nbits r.header 64 21 = r.ncontrib ∧ nbits r.header 85 20 = r.firstFlag
    ∧ nbits r.header 128 32 = r.maxrec.toNat ∧ nbits r.header 160 32 = r.cnt.nan ∧ nbits r.header 192 32 = r.cnt.inf
    ∧ nbits r.header 224 32 = r.cnt.aovf ∧ nbits r.header 256 32 = r.cnt.gzero ∧ r.header < 256 ^ 40 := by
  obtain ⟨nan, inf, aovf, gzero⟩ := h.counters
  have anchor : toTwos 10 r.anchor < 2 ^ 10 := by unfold toTwos; omega
  have shift := (xpShift_le r.values).1
  have flags := r.hasFlags.toNat_lt
  have values := r.hasValues.toNat_lt
  have maxrec := r.maxrec.isLt
  have stripe := h.stripe
  have most := h.most
  have res := h.res
  have ncontrib := h.ncontrib
  have first := h.first
  unfold nbits XpRec.header
  generalize toTwos 10 r.anchor = a at *
  generalize r.hasFlags.toNat = f at *
  generalize r.hasValues.toNat = v at *
  generalize xpShift r.values = s at *
  refine ⟨?_, ?_, ?_, ?_, ?_, ?_, ?_, ?_, ?_, ?_, ?_, ?_, ?_, ?_, ?_⟩ <;> omega

/-- The flag bytes are read back. -/
theorem flags_back (r : XpRec) (hdr tail : Bytes) :
    (if r.hasFlags then bytesAt (hdr ++ (r.flagArea ++ tail)) hdr.length r.slots.length else List.replicate r.slots.length 0)
      = r.slots.map (·.flags) := by
  unfold XpRec.flagArea
  by_cases flagged : r.hasFlags = true
  · have := bytesAt_append hdr (r.slots.map (·.flags))
      (List.replicate (ceilDiv (r.slots.map (·.flags)).length 8 * 8 - (r.slots.map (·.flags)).length) 0 ++ tail)
    rw [List.length_map] at this
    simpa [flagged, padTo] using this
  · have zero : ∀ x ∈ r.slots, x.flags = 0 := by simpa [XpRec.hasFlags] using flagged
    rw [if_neg flagged]
    exact (List.eq_replicate_iff.mpr ⟨List.length_map .., by simpa using zero⟩).symm

theorem length_flagArea (r : XpRec) : r.flagArea.length = if r.hasFlags then ceilDiv r.slots.length 8 * 8 else 0 := by
  unfold XpRec.flagArea
  split <;> simp [length_padTo]

theorem values_fit (r : XpRec) : ∀ v ∈ r.values, FitsTwos 128 v := by
  simpa [XpRec.values] using fun (x : Slot) _ => fitsTwos_toInt x.n

theorem length_values (r : XpRec) : r.values.length = r.slots.length := List.length_map ..

/-- The shifted values are read back. -/
theorem values_back (r : XpRec) :
    (if r.hasValues then (xpUngroup (ceilDiv r.slots.length 16) (ofLe r.valueArea)).take r.slots.length
      else List.replicate r.slots.length 0) = r.values.map (fun v => v / (2 ^ xpShift r.values : Int)) := by
  unfold XpRec.valueArea
  by_cases valued : r.hasValues = true
  · have fit : ∀ v ∈ r.values.map (fun v => v / (2 ^ xpShift r.values : Int)), FitsTwos 128 v := by
      simpa using fun v hv => (values_fit r v hv).shifted _
    have groups : Groups r.groups := chunksOf_groups _ _ fit
    have count : r.groups.length = ceilDiv r.slots.length 16 := by
      rw [XpRec.groups, List.length_map, chunksOf_length _ _ (by simp), List.length_map, length_values]
    have all := chunksOf_take r.values.length (r.values.map (fun v => v / (2 ^ xpShift r.values : Int))) (by simp)
    rw [List.length_map, length_values] at all
    simp only [valued, if_true]
    rw [ofLe_packed (xpGroups_lt groups), ← count, xpUngroup_xpGroups groups]
    rwa [XpRec.groups, length_values]
  · have zero : ∀ v ∈ r.values, v = 0 := by simpa [XpRec.hasValues] using valued
    rw [if_neg valued]
    exact (List.eq_replicate_iff.mpr ⟨by simp [length_values], by simpa using fun v hv => by simp [zero v hv]⟩).symm

/-- The slots are put together again from their values and flag bytes. -/
theorem slots_back (r : XpRec) :
    List.zipWith (fun v f => (⟨BitVec.ofInt 128 (v * (2 ^ xpShift r.values : Int)), f⟩ : Slot))
      (r.values.map (fun v => v / (2 ^ xpShift r.values : Int))) (r.slots.map (·.flags)) = r.slots := by
  have each : ∀ x ∈ r.slots, (⟨BitVec.ofInt 128 (x.n.toInt / 2 ^ xpShift r.values * 2 ^ xpShift r.values), x.flags⟩ : Slot) = x :=
    fun x hx => by
      have listed : x.n.toInt ∈ r.values := List.mem_map_of_mem hx
      rw [shift_back listed, BitVec.ofInt_toInt]
  rw [List.zipWith_map, XpRec.values, List.zipWith_map_left, List.zipWith_self]
  exact (List.map_congr_left each).trans (List.map_id _)

end Sys2Proof.Machine

namespace Sys2Proof.Safety
open Sys2Proof.Machine

/-- Settles O56: header, flag bytes and values are each read back. -/
theorem recordsRoundTrip : Obligations.RecordsRoundTrip := by
  intro r fits
  obtain ⟨stripe, anchor, shift, nelem, flags, values, res, ncontrib, first, maxrec, nan, inf, aovf, gzero, whole⟩ := nbits_header fits
  have hdr : numAt (xpBytes r) 0 40 = r.header := by rw [xpBytes_eq, numAt_leBytes, Nat.mod_eq_of_lt whole]
  have isFlags : (nbits r.header 50 1 = 1) = (r.hasFlags = true) := by rw [flags]; cases r.hasFlags <;> simp
  have isValues : (nbits r.header 51 1 = 1) = (r.hasValues = true) := by rw [values]; cases r.hasValues <;> simp
  have len := length_leBytes 40 r.header
  have flagsBack := flags_back r (leBytes 40 r.header) r.valueArea
  rw [len, ← xpBytes_eq] at flagsBack
  have rest : (xpBytes r).drop (40 + r.flagArea.length) = r.valueArea := by
    rw [xpBytes_eq, ← List.append_assoc, List.drop_left' (by rw [List.length_append, len])]
  have anchorBack : ofTwos 10 (toTwos 10 r.anchor) = r.anchor :=
    ofTwos_toTwos (by decide) ⟨by have := fits.anchor.1; simp only [Nat.reduceSub]; omega, by have := fits.anchor.2; simp only [Nat.reduceSub]; omega⟩
  unfold xpParse
  simp only [hdr, stripe, anchor, shift, nelem, res, ncontrib, first, maxrec, nan, inf, aovf, gzero, isFlags, isValues, anchorBack,
    fits.nelem, flagsBack, ← length_flagArea, rest, values_back, slots_back, BitVec.ofNat_toNat, BitVec.setWidth_eq]
  rw [← fits.nelem]

end Sys2Proof.Safety
end

section
/-! PROOF. Without clocks only power and clock rows act (R362, R363, O57): each shared shape of a row tests the clocks first. -/
namespace Sys2Proof.Machine
open Sys2Proof.Safety

section
variable {s : State} (h : s.clocked = false)
include h

theorem State.issue_unclocked {c : Ref} {op : Nat} {f : Ctx → State} : s.issue c op f = .next s := by
  unfold State.issue
  split
  · rfl
  · exact State.act_unclocked h

theorem State.fabric_unclocked {c : Ref} {op : Nat} {turn : Bool} {f : Ctx → State} : s.fabric c op turn f = .next s := by
  unfold State.fabric
  split
  · rfl
  · exact State.act_unclocked h

theorem State.vyIssue_unclocked {o : VOp} {cls place : Nat} {use : VyUse} {f} : s.vyIssue o cls place use f = .next s := by
  unfold State.vyIssue
  split
  · rfl
  · exact State.act_unclocked h

theorem libraryHalt_unclocked (o : VOp) : s.libraryHalt o = .next s := by
  unfold State.libraryHalt
  split
  · rfl
  · exact State.act_unclocked h

/-- A row of a program's instruction does nothing without clocks. -/
theorem exec_word_unclocked {c : Instr} {r : VyRow} (row : rowOf c = some r) : exec c s = .next s := by
  rcases exec_word_cases row s with ⟨f, arm⟩ | arm
  · exact arm.trans (State.vyIssue_unclocked h)
  · exact arm.trans (libraryHalt_unclocked h r.op)

end

end Sys2Proof.Machine

namespace Sys2Proof.Safety
open Sys2Proof.Machine

/-- Settles O57: the rows by their shared shapes; the rows of `needsNoClock` are the only others. -/
theorem nothingRunsUnclocked : Obligations.NothingRunsUnclocked := by
  intro c s h need
  cases c with
  | nop | openBucket | closeBucket | allreduce | reduceScatter | allgather | shift | permute | norm | step | publish
    | park | fetch | checkpoint | restore | sieveRun | fence | unfence | launchAt | survey => exact State.issue_unclocked h
  | scheduleLoad | routeStage | routeSwap => exact State.fabric_unclocked h
  | descriptorRead | contrib | xp | result | ready | ready2 | summary | abort | normMax | normSum | pubMax | block
    | stats | parkData | imageData | packetRoute | doorbell | ringEnable | ringDisable | jobEnable | jobDisable
    | jobEndComplete | layoutCommit | partReset | initDone | expertGateClose | surveyGo | gcLoad | timeCtrl
    | tickOutEnable | debugClockEnable | portEnable | portDisable | portRetrain | lxCtrl | lxPrbsErrRead | mirrorEnable
    | mirrorDisable | mirHead | telemetryEnable | claim | release | hppr | sppr | mrSel | registerWrite | firmwareBoot
    | wipeComplete | seedlingExit | clockFailure | taprootLinkDown | taprootLinkUp | capTimer | squelchEnd | cellFlit
    | ackTimer | farRetrain | linkLost | fullRateAdvertise | fullRateRetry | timeExchange | timeRequest | graftSense
    | pairFlit | pairingTimeout | mergeComplete | heartbeat | evaluationInterval | scoringInterval | periodicSlice
    | patrolScrub | tick | cellTime | flitSlot | stackTraining | identity | quote | logFetch | logAck | sensors
    | healthDetail | powerCap | gateChallenge | gateGrant | fwBegin | fwChunk | fwCommit | shutdown | slice | repair
    | fuse | lifecycle | ownerEnroll | allgatherData | shiftData | permuteCounts => exact State.act_unclocked h
  | waitRelease | admitOp | rakeAccumulate | chunkFinal | bucketComplete | nonrootComplete | xpSend | bucketDeadline
    | normDeadline | stepStart | publishStart | checkpointStart | commandComplete | irqDelay | launchMature
    | programStart | programDeadline | transferComplete | surveyComplete | telemetryInterval | pprComplete
    | retrainComplete | timeReply | counterStep | slotBoundary | scheduleStart | routeSwapAt | routeStageWrite
    | routeStageTimeout | poolWaitGrant | grantExpiry | sliceBegin | sliceDeferred | sliceEnd | fullBistComplete
    | permuteRows | detectTest | trainComplete | lockComplete | capFlit | stageTimeout =>
    dsimp only [
      exec, execWaitRelease, execAdmitOp, execRakeAccumulate, execChunkFinal, execBucketComplete, execNonrootComplete,
      execXpSend, execBucketDeadline, execNormDeadline, execStepStart, execPublishStart, execCheckpointStart,
      execCommandComplete, execIrqDelay, execLaunchMature, execProgramStart, execProgramDeadline, execTransferComplete,
      execSurveyComplete, execTelemetryInterval, execPprComplete, execRetrainComplete, execTimeReply, execCounterStep,
      execSlotBoundary, execScheduleStart, execRouteSwapAt, execRouteStageWrite, execRouteStageTimeout, execPoolWaitGrant,
      execGrantExpiry, execSliceBegin, execSliceDeferred, execSliceEnd, execFullBistComplete, execPermuteRows,
      execDetectTest, execTrainComplete, execLockComplete, execCapFlit, execStageTimeout]
    (repeat' split) <;> simp only [State.act_unclocked h, State.dataIn]
  | porAssert | porRelease | rootPllLock | railCollapse | thermalTrip | standbyPowerLoss | standbyPowerApplied
    | watchdogExpiry | shedSramUncorrectable | firmwareRestarted => cases need
  | _ => exact exec_word_unclocked h rfl

end Sys2Proof.Safety
end

section
/-! PROOF. A write by a master that is no owner only raises NOT_OWNER_WRITE (R402, O58): every such row tests the owner first. -/
namespace Sys2Proof.Machine
open Sys2Proof.Safety

/-- A row whose register exists where `p` holds, and that tests the owner before anything else. -/
theorem State.act_of_stranger {s u : State} {m : Master} {res : Nat} {p : Bool} (h : s.clocked = true) (stranger : s.owns m res = false) :
    s.act p (if !s.owns m res then s.notOwner m else u) = .next (if p then s.notOwner m else s) := by
  simp [State.act, h, stranger]

end Sys2Proof.Machine

namespace Sys2Proof.Safety
open Sys2Proof.Machine

/-- Settles O58: each row of `ownerOnly` is a test of the owner. -/
theorem onlyOwnersWrite : Obligations.OnlyOwnersWrite := by
  intro c s m res there clocks row stranger
  cases c with
  | doorbell | ringEnable | ringDisable | jobEnable | jobDisable | gcLoad | timeCtrl | tickOutEnable | portEnable | portDisable
    | portRetrain | mirrorEnable | mirrorDisable | mirHead | telemetryEnable =>
    cases row
    exact State.act_of_stranger clocks stranger
  | _ => cases row

end Sys2Proof.Safety
end

section
/-! PROOF. Words of a program that run and neither fault nor wait (O2 to O7). The row of each is one issue, so its answer is its effect on
the program and the thread past the guard. -/
namespace Sys2Proof.Machine
open Sys2Proof.Safety

section
variable {s : State} {i : Instr} {o : VOp} {cls k : Nat} {use : VyUse} {p : VyProg} {t : VyThread} {v : VyIns}

/-- An issue that runs leaves the program and the thread of its effect. -/
theorem exec_of_effect {f} {p' : VyProg} {t' : VyThread} {w : Res} (arm : exec i s = w) (body : w = s.vyIssue o cls k use f)
    (row : rowOf i = word o cls k use) (effect : f s v p (past v t) = .done p' t') (run : Runs s i p t v) :
    exec i s = leaves s v p' t' :=
  exec_of_done (r := ⟨o, cls, k, use⟩) (arm.trans body) row effect run

/-- An issue that runs and waits leaves the state. -/
theorem exec_of_wait {f} {w : Res} (arm : exec i s = w) (body : w = s.vyIssue o cls k use f) (row : rowOf i = word o cls k use)
    (effect : f s v p (past v t) = .wait) (run : Runs s i p t v) : exec i s = .next s := by
  obtain ⟨issues, guard⟩ := run
  rw [arm, body, State.vyIssue_runs (atRow_of_issues row issues) guard, effect]

/-! ## Floating words (R174, R297, R298) -/

/-- A floating operation of two operands that runs writes its result. -/
theorem exec_of_vyFloat_binary {x : Nat} (arm : exec i s = s.vyFloat o k true) (row : rowOf i = word o 2 k useDAB)
    (result : floatOp k (lo32 (t.gget v.a)) (lo32 (opB v t)) (lo32 (t.gget v.d)) = some x) (run : Runs s i p t v) :
    exec i s = writesG s v p t (BitVec.ofNat 64 (x % 2 ^ 32)) :=
  exec_of_effect arm rfl row (by simp only [gget_past, opB_past, if_true, result]) run

/-- A floating operation of one operand that runs writes its result. -/
theorem exec_of_vyFloat_unary {x : Nat} (arm : exec i s = s.vyFloat o k false) (row : rowOf i = word o 2 k useDA)
    (result : floatOp k (lo32 (t.gget v.a)) 0 (lo32 (t.gget v.d)) = some x) (run : Runs s i p t v) :
    exec i s = writesG s v p t (BitVec.ofNat 64 (x % 2 ^ 32)) :=
  exec_of_effect arm rfl row (by simp only [gget_past, Bool.false_eq_true, if_false, result]) run

/-- A floating compare that runs writes its outcome. -/
theorem exec_of_vyFcmp {f : Num → Num → Bool} (arm : exec i s = s.vyFcmp o k f) (row : rowOf i = word o 2 k useDAB)
    (run : Runs s i p t v) : exec i s = writesQ s v p t (f (f32 (lo32 (t.gget v.a))) (f32 (lo32 (opB v t)))) :=
  exec_of_effect arm rfl row rfl run

/-! Operations by their codes; FSQRT, FABS and FSIGN by the form of their operand, and FSEL by that of its third. -/

section
variable (a b c : Nat)
theorem floatOp_add : floatOp 1 a b c = some (rne32 ((f32 a).add (f32 b))) := by simp only [floatOp]
theorem floatOp_sub : floatOp 2 a b c = some (rne32 ((f32 a).add (f32 b).neg)) := by simp only [floatOp]
theorem floatOp_mul : floatOp 3 a b c = some (rne32 ((f32 a).mul (f32 b))) := by simp only [floatOp]
theorem floatOp_fma : floatOp 4 a b c = some (rne32 (((f32 a).mul (f32 b)).add (f32 c))) := by simp only [floatOp]
theorem floatOp_fnma : floatOp 5 a b c = some (rne32 ((f32 c).add ((f32 a).mul (f32 b)).neg)) := by simp only [floatOp]
theorem floatOp_div : floatOp 6 a b c = some (rne32 ((f32 a).div (f32 b))) := by simp only [floatOp]
theorem floatOp_max : floatOp 8 a b c = some (if (f32 a).isNan || (f32 b).isNan then 0x7FC00000
    else rne32 (if (f32 a).lt (f32 b) then f32 b else f32 a)) := by simp only [floatOp]
theorem floatOp_min : floatOp 9 a b c = some (if (f32 a).isNan || (f32 b).isNan then 0x7FC00000
    else rne32 (if (f32 a).lt (f32 b) then f32 a else f32 b)) := by simp only [floatOp]
theorem floatOp_mov : floatOp 13 a b c = some (rne32 (f32 a)) := by simp only [floatOp]
end

theorem floatOp_sqrt_fin {a b c : Nat} {n : Bool} {q : Rat} (h : f32 a = .fin n q) :
    floatOp 7 a b c = some (if q = 0 then rne32 (f32 a) else if n then 0x7FC00000 else sqrt32 q) := by simp only [floatOp, h]

theorem floatOp_sqrt_inf {a b c : Nat} {n : Bool} (h : f32 a = .inf n) :
    floatOp 7 a b c = some (if n then 0x7FC00000 else rne32 (.inf false)) := by
  cases n <;> simp only [floatOp, h, Bool.false_eq_true, if_true, if_false]

theorem floatOp_sqrt_nan {a b c : Nat} (h : f32 a = .nan) : floatOp 7 a b c = some 0x7FC00000 := by simp only [floatOp, h]

theorem floatOp_abs_fin {a b c : Nat} {n : Bool} {q : Rat} (h : f32 a = .fin n q) : floatOp 10 a b c = some (rne32 (.fin false q)) := by
  simp only [floatOp, h]

theorem floatOp_abs_inf {a b c : Nat} {n : Bool} (h : f32 a = .inf n) : floatOp 10 a b c = some (rne32 (.inf false)) := by
  simp only [floatOp, h]

theorem floatOp_abs_nan {a b c : Nat} (h : f32 a = .nan) : floatOp 10 a b c = some (rne32 .nan) := by simp only [floatOp, h]

theorem floatOp_sign_fin {a b c : Nat} {n : Bool} {q : Rat} (h : f32 a = .fin n q) :
    floatOp 11 a b c = some (if q = 0 then 0 else if n then 0xBF800000 else 0x3F800000) := by simp only [floatOp, h]

theorem floatOp_sign_inf {a b c : Nat} {n : Bool} (h : f32 a = .inf n) :
    floatOp 11 a b c = some (if n then 0xBF800000 else 0x3F800000) := by simp only [floatOp, h]

theorem floatOp_sign_nan {a b c : Nat} (h : f32 a = .nan) : floatOp 11 a b c = some 0x7FC00000 := by simp only [floatOp, h]

theorem floatOp_sel_fin {a b c : Nat} {n : Bool} {q : Rat} (h : f32 c = .fin n q) :
    floatOp 12 a b c = some (rne32 (if q = 0 ∨ n = false then f32 a else f32 b)) := by
  simp only [floatOp, h, Bool.or_eq_true, decide_eq_true_eq, Bool.not_eq_true', apply_ite rne32]

theorem floatOp_sel_inf {a b c : Nat} (h : f32 c = .inf false) : floatOp 12 a b c = some (rne32 (f32 a)) := by simp only [floatOp, h]

theorem floatOp_sel_other {a b c : Nat} (h : f32 c = .inf true ∨ f32 c = .nan) : floatOp 12 a b c = some (rne32 (f32 b)) := by
  obtain h | h := h <;> simp only [floatOp, h]

/-- DEC by a good control word writes the decoded value. -/
theorem exec_dec (good : badControl (opB v t) = false) (run : Runs s (.dec o) p t v) :
    exec (.dec o) s = writesG s v p t (BitVec.ofNat 64 (encodeFloat fp32 (bget Cw.mode (opB v t)) (bflag Cw.sat (opB v t))
      (bget Cw.draw (opB v t)) (decodeNum (bget Cw.fmt (opB v t)) ((t.gget v.a).toNat % 2 ^ elemBits (bget Cw.fmt (opB v t))))).1) :=
  exec_of_effect (i := .dec o) (w := execDec o s) rfl rfl rfl (by simp only [opB_past, gget_past, good, Bool.false_eq_true, if_false]) run

/-- ENC by a good control word writes the encoding, and its events are counted. -/
theorem exec_enc (good : badControl (opB v t) = false) (run : Runs s (.enc o) p t v) :
    exec (.enc o) s = leaves s v { p with cnt := p.cnt.add (encodeBy (opB v t) (f32 (lo32 (t.gget v.a)))).2 }
      ((past v t).gset v.d (BitVec.ofNat 64 (encodeBy (opB v t) (f32 (lo32 (t.gget v.a)))).1)) :=
  exec_of_effect (i := .enc o) (w := execEnc o s) rfl rfl rfl (by simp only [opB_past, gget_past, good, Bool.false_eq_true, if_false]) run

/-! ## Control words that can fault or wait (R305, R310) -/

theorem exec_call (room : t.stack.length < 16) (run : Runs s (.call o) p t v) :
    exec (.call o) s = leaves s v p { t with pc := (opB v t).toNat % 2 ^ 14, stack := (past v t).pc :: t.stack } :=
  exec_of_effect (i := .call o) (w := execCall o s) rfl rfl rfl (if_neg (Nat.not_le.mpr room)) run

theorem exec_ret {n : Nat} {r : List Nat} (top : t.stack = n :: r) (run : Runs s (.ret o) p t v) :
    exec (.ret o) s = leaves s v p { t with pc := n, stack := r } :=
  exec_of_effect (i := .ret o) (w := execRet o s) rfl rfl rfl (by simp only [stack_past, top]; rfl) run

/-- HALT in a program that is not of the library halts its thread at this tick. -/
theorem exec_halt (run : Runs s (.halt o) p t v) :
    exec (.halt o) s = leaves s v { p with halted := s.now } { past v t with stat := .halt } := by
  have here := atRow_of_issues rfl run.1
  have own : s.vy.any (fun p => p.lib != 0) = false := by simp only [here.prog, Option.any_some, here.own, bne_self_eq_false]
  exact exec_of_effect (i := .halt o) (w := execHalt o s) rfl (if_neg (Bool.eq_false_iff.mp own)) rfl rfl run

/-- WAITX of a thread with an outstanding transfer waits in balanced mode. -/
theorem exec_waitx_outstanding (mode : p.balanced = true)
    (outstanding : p.xfers.any (fun x => x.tile == v.tile && x.tid == v.tid && !x.done) = true) (run : Runs s (.waitx o) p t v) :
    exec (.waitx o) s = .next s :=
  exec_of_wait (i := .waitx o) (w := execWaitx o s) rfl rfl rfl (by simp only [mode, outstanding, Bool.and_self, if_true]) run

/-- WAITX goes on where it has nothing to wait for. -/
theorem exec_waitx_free
    (free : (p.balanced && p.xfers.any (fun x => x.tile == v.tile && x.tid == v.tid && !x.done)) = false)
    (run : Runs s (.waitx o) p t v) : exec (.waitx o) s = leaves s v p (past v t) :=
  exec_of_effect (i := .waitx o) (w := execWaitx o s) rfl rfl rfl (if_neg (Bool.eq_false_iff.mp free)) run

theorem exec_syncG (run : Runs s (.syncG o) p t v) : exec (.syncG o) s =
    leaves s v (if p.balanced then p.showAdds (fun a => a.tile == v.tile && a.tid == v.tid) else p) (past v t) :=
  exec_of_effect (i := .syncG o) (w := execSyncG o s) rfl rfl rfl rfl run

/-! ## Windows (R303, R304, R306 to R309, R311) -/

/-- A load at a good place writes what it finds. -/
theorem exec_of_vyLoad {peer sign : Bool} {tile off : Nat} {x : Word64} (arm : exec i s = s.vyLoad o cls k peer sign)
    (row : rowOf i = word o cls k useLoad) (place : memPlace p v peer (memAddr v t) = .inl (tile, off))
    (result : (if sign then BitVec.ofInt 64 (ofTwos (8 * 2 ^ v.mod) (p.load v.tile v.tid tile off (2 ^ v.mod)))
      else BitVec.ofNat 64 (p.load v.tile v.tid tile off (2 ^ v.mod))) = x) (run : Runs s i p t v) :
    exec i s = writesG s v p t x :=
  exec_of_effect arm rfl row (by simp only [memAddr_past, place, memSize, result]) run

/-- A write of G[B] at a good place in balanced mode is done at once, and an atomic gives the value found. -/
theorem writeMem_balanced {peer : Bool} {op : VyStore} {tile off : Nat} (place : memPlace p v peer (memAddr v t) = .inl (tile, off))
    (mode : p.balanced = true) : writeMem p (past v t) v peer op =
      .done { p with win := putBytes p.win tile off (leBytes (2 ^ v.mod)
          (atomicResult op (2 ^ v.mod) (p.winNum tile off (2 ^ v.mod)) (t.gget v.b).toNat (t.gget v.d).toNat)) }
        (if op == .store then past v t else (past v t).gset v.d (BitVec.ofNat 64 (p.winNum tile off (2 ^ v.mod)))) := by
  simp only [writeMem, memAddr_past, place, mode, if_true, memSize, gget_past]

/-- A store at a good place in balanced mode puts the bytes of G[B]. -/
theorem writeMem_store {peer : Bool} {tile off : Nat} (place : memPlace p v peer (memAddr v t) = .inl (tile, off))
    (mode : p.balanced = true) : writeMem p (past v t) v peer .store =
      .done { p with win := putBytes p.win tile off (leBytes (2 ^ v.mod) ((t.gget v.b).toNat % 2 ^ (8 * 2 ^ v.mod))) } (past v t) := by
  simp only [writeMem_balanced place mode, atomicResult, beq_self_eq_true, if_true]

/-- A write of G[B] at a good place in deterministic mode is logged. -/
theorem writeMem_logged {peer : Bool} {op : VyStore} {tile off : Nat} (place : memPlace p v peer (memAddr v t) = .inl (tile, off))
    (mode : p.balanced = false) : writeMem p (past v t) v peer op =
      .done { (if 8192 ≤ tget 0 p.logCount tile then p.note vkLogFull tile tile else p) with
        log := p.log ++ [⟨v.tile, v.tid, tile, off, 2 ^ v.mod, op, t.gget v.b, t.gget v.d, v.d⟩]
        logCount := tset 0 p.logCount tile (tget 0 p.logCount tile + 1) } (past v t) := by
  have hlog : (if 8192 ≤ tget 0 p.logCount tile then p.note vkLogFull tile tile else p).log = p.log := by
    simp only [apply_ite VyProg.log, VyProg.note, ite_self]
  have hcount : (if 8192 ≤ tget 0 p.logCount tile then p.note vkLogFull tile tile else p).logCount = p.logCount := by
    simp only [apply_ite VyProg.logCount, VyProg.note, ite_self]
  simp only [writeMem, memAddr_past, place, mode, Bool.false_eq_true, if_false, memSize, gget_past, hlog, hcount]

/-- A store at a good place is done at once in balanced mode, and logged in deterministic mode. -/
theorem exec_of_vyStore {peer : Bool} {tile off : Nat} (arm : exec i s = s.vyStore o cls k peer)
    (row : rowOf i = word o cls k useStore) (place : memPlace p v peer (memAddr v t) = .inl (tile, off)) (run : Runs s i p t v) :
    (p.balanced = true → exec i s = leaves s v { p with
      win := putBytes p.win tile off (leBytes (2 ^ v.mod) ((t.gget v.b).toNat % 2 ^ (8 * 2 ^ v.mod))) } (past v t))
    ∧ (p.balanced = false → exec i s = leaves s v { (if 8192 ≤ tget 0 p.logCount tile then p.note vkLogFull tile tile else p) with
      log := p.log ++ [⟨v.tile, v.tid, tile, off, 2 ^ v.mod, .store, t.gget v.b, t.gget v.d, v.d⟩]
      logCount := tset 0 p.logCount tile (tget 0 p.logCount tile + 1) } (past v t)) :=
  ⟨fun mode => exec_of_effect arm rfl row (writeMem_store place mode) run,
    fun mode => exec_of_effect arm rfl row (writeMem_logged place mode) run⟩

/-- An atomic at a good place gives the value found and puts its result in balanced mode, and is logged in deterministic mode. -/
theorem exec_of_vyAtomic {op : VyStore} {tile off r : Nat} (arm : exec i s = s.vyAtomic o k op)
    (row : rowOf i = word o 7 k useAtomic) (place : memPlace p v v.peer (memAddr v t) = .inl (tile, off)) (gives : (op == .store) = false)
    (result : atomicResult op (2 ^ v.mod) (p.winNum tile off (2 ^ v.mod)) (t.gget v.b).toNat (t.gget v.d).toNat = r)
    (run : Runs s i p t v) :
    (p.balanced = true → exec i s = leaves s v { p with win := putBytes p.win tile off (leBytes (2 ^ v.mod) r) }
      ((past v t).gset v.d (BitVec.ofNat 64 (p.winNum tile off (2 ^ v.mod)))))
    ∧ (p.balanced = false → exec i s = leaves s v { (if 8192 ≤ tget 0 p.logCount tile then p.note vkLogFull tile tile else p) with
      log := p.log ++ [⟨v.tile, v.tid, tile, off, 2 ^ v.mod, op, t.gget v.b, t.gget v.d, v.d⟩]
      logCount := tset 0 p.logCount tile (tget 0 p.logCount tile + 1) } (past v t)) := by
  subst result
  exact ⟨fun mode => exec_of_effect arm rfl row (by rw [writeMem_balanced place mode, gives, if_neg Bool.false_ne_true]) run,
    fun mode => exec_of_effect arm rfl row (writeMem_logged place mode) run⟩

/-! ## The exact unit (R299, R300) -/

/-- A term that keeps the accumulator's limit is added and counted. -/
theorem addTerm_within {d : Nat} {f : WAcc → Slot × InCnt} (limit : (t.wget d).count + 1 ≤ 2 ^ (t.wget d).head) :
    addTerm p t d f = .done (p.countTerm (f (t.wget d)).2) (t.wset d { t.wget d with slot := (f (t.wget d)).1, count := (t.wget d).count + 1 }) := by
  simp only [addTerm, if_neg (Nat.not_lt.mpr limit)]

/-! ## Work items (R321) -/

@[simp] theorem wq_gset {d : Nat} {x : Word64} : (t.gset d x).wq = t.wq := by simp only [VyThread.gset, apply_ite VyThread.wq, ite_self]

/-! ## Transfers (R318 to R320) -/

/-- A transfer whose buffer, offsets and length are good, of a thread with fewer than four outstanding ones, joins these. -/
theorem startXfer_good {w : Word32} {out : Bool} {pick boff woff len : Nat} (imm : v.imm = some w) (hpick : (t.gget v.a).toNat % 32 = pick)
    (hboff : (t.gget v.b).toNat = boff) (hwoff : nbits w.toNat 0 21 = woff) (hlen : 64 * nbits w.toNat 21 11 = len) (some : len ≠ 0)
    (known : pick < p.bufs.length) (baligned : boff % 64 = 0) (waligned : woff % 64 = 0) (inBuf : boff + len ≤ (p.buf pick).length)
    (inWin : woff + len ≤ windowSize p.balanced)
    (room : (p.xfers.filter (fun x => x.tile == v.tile && x.tid == v.tid && !x.done)).length < 4)
    (access : ((out && !(p.buf pick).writable) || (!out && (p.buf pick).kind == 3)) = false) :
    startXfer p (past v t) v out = .done { p with xfers := p.xfers ++ [⟨v.tile, v.tid, out, pick, boff, woff, len,
      if out && !p.balanced then (List.range len).map (fun i => tget 0 p.snap (winKey v.tile (woff + i))) else [], false⟩] } (past v t) := by
  subst hpick hboff hwoff hlen
  simp only [startXfer, imm, gget_past, if_neg some, if_neg (Nat.not_le.mpr known), baligned, waligned, ne_eq, not_true_eq_false,
    if_false, access, Bool.false_eq_true, if_neg (Nat.not_le.mpr room),
    if_neg (show ¬ (_ ∨ _) from not_or.mpr ⟨Nat.not_lt.mpr inBuf, Nat.not_lt.mpr inWin⟩)]

/-- TRANSFER_COMPLETE acts on the oldest outstanding transfer of its thread, whose link is up and where no slice runs. -/
theorem exec_transferComplete_oldest {x : VyXfer} {tile tid : Nat} {data : Option Bytes} (prog : s.vy = some p)
    (oldest : p.xfers.find? (fun x => x.tile == tile && x.tid == tid && !x.done) = some x) :
    exec (.transferComplete tile tid data) s =
      s.act (((p.buf x.buf).kind != 0 || s.linkUp (s.ringCard p.ring)) && !s.sliced (s.bufferSectors p.job (p.buf x.buf) x.boff x.len))
        (match (s.xferRead p x).xferData p x data with
          | .inr st => ((s.xferRead p x).xferError p x st).vyEnd p st none 0
          | .inl d =>
            if !p.balanced then (s.xferRead p x).vySettle
              { p with xfers := updFirst (fun y => y == x) (fun y => { y with data := d, done := true }) p.xfers }
            else if x.out then
              ((s.xferRead p x).toBuffer p.job (p.buf x.buf) x.boff ((List.range x.len).map (fun i => p.byte tile (x.woff + i)))).vySettle
                { p with xfers := p.xfers.erase x }
            else (s.xferRead p x).vySettle { p with xfers := p.xfers.erase x, win := putBytes p.win tile x.woff d }) := by
  simp only [exec, execTransferComplete, prog, oldest] <;> rfl

end

end Sys2Proof.Machine

namespace Sys2Proof.Safety
open Sys2Proof.Machine

/-- Settles O2: the row of each word is one floating operation, compare or conversion at the issue. -/
theorem floatWords : Obligations.FloatWords := by
  intro s o p t v
  exact ⟨exec_of_vyFloat_binary rfl rfl (floatOp_add _ _ _), exec_of_vyFloat_binary rfl rfl (floatOp_sub _ _ _),
    exec_of_vyFloat_binary rfl rfl (floatOp_mul _ _ _), exec_of_vyFloat_binary rfl rfl (floatOp_fma _ _ _),
    exec_of_vyFloat_binary rfl rfl (floatOp_fnma _ _ _), exec_of_vyFloat_binary rfl rfl (floatOp_div _ _ _),
    exec_of_vyFloat_binary rfl rfl (floatOp_max _ _ _), exec_of_vyFloat_binary rfl rfl (floatOp_min _ _ _),
    fun _ _ h => exec_of_vyFloat_binary rfl rfl (floatOp_sel_fin h), fun h => exec_of_vyFloat_binary rfl rfl (floatOp_sel_inf h),
    fun h => exec_of_vyFloat_binary rfl rfl (floatOp_sel_other h),
    exec_of_vyFcmp rfl rfl, exec_of_vyFcmp rfl rfl, exec_of_vyFcmp (f := fun x y => numLt x y || numEq x y) rfl rfl,
    exec_of_vyFloat_unary rfl rfl (floatOp_mov _ _ _),
    fun _ _ h => ⟨exec_of_vyFloat_unary rfl rfl (floatOp_abs_fin h), exec_of_vyFloat_unary rfl rfl (floatOp_sqrt_fin h),
      exec_of_vyFloat_unary rfl rfl (floatOp_sign_fin h)⟩,
    fun _ h => ⟨exec_of_vyFloat_unary rfl rfl (floatOp_abs_inf h), exec_of_vyFloat_unary rfl rfl (floatOp_sqrt_inf h),
      exec_of_vyFloat_unary rfl rfl (floatOp_sign_inf h)⟩,
    fun h => ⟨exec_of_vyFloat_unary rfl rfl (floatOp_abs_nan h), exec_of_vyFloat_unary rfl rfl (floatOp_sqrt_nan h),
      exec_of_vyFloat_unary rfl rfl (floatOp_sign_nan h)⟩,
    fun good => ⟨exec_dec good, exec_enc good⟩⟩

/-- Settles O3: each control word is one issue, whose effect moves the PC, the stack or the status of its thread. -/
theorem controlWords : Obligations.ControlWords := by
  intro s o p t v
  refine ⟨exec_of_effect (i := .jmp o) (w := execJmp o s) rfl rfl rfl rfl, exec_call, exec_of_effect (i := .br o) (w := execBr o s) rfl rfl rfl rfl, fun _ _ => exec_ret, exec_halt,
    exec_of_effect (i := .barT o) (w := execBarT o s) rfl rfl rfl rfl, exec_of_effect (i := .barG o) (w := execBarG o s) rfl rfl rfl rfl, exec_of_effect (i := .syncL o) (w := execSyncL o s) rfl rfl rfl rfl,
    fun mode => ⟨fun run => ?_, exec_waitx_free (by simp only [mode, Bool.false_and])⟩,
    fun mode => ⟨fun run => ?_, fun free => exec_waitx_free (by simp only [free, Bool.and_false]), exec_waitx_outstanding mode⟩⟩
  · rw [exec_syncG run, mode, if_neg Bool.false_ne_true]
  · rw [exec_syncG run, mode, if_pos rfl]

/-- Settles O4: a load reads at the place of its address, and a store is a write of the memory by the mode. -/
theorem loadAndStoreWords : Obligations.LoadAndStoreWords := by
  intro s o p t v tile off
  exact ⟨fun place => ⟨exec_of_vyLoad rfl rfl place (if_neg Bool.false_ne_true), exec_of_vyLoad rfl rfl place (if_pos rfl),
      exec_of_vyStore rfl rfl place⟩,
    fun place => ⟨exec_of_vyLoad rfl rfl place (if_neg Bool.false_ne_true), exec_of_vyStore rfl rfl place⟩⟩

/-- Settles O5: an atomic is a write of the memory by the mode, whose result is that of its operation. -/
theorem atomicWords : Obligations.AtomicWords := by
  intro s o p t v tile off place
  refine ⟨exec_of_vyAtomic rfl rfl place rfl ?_, exec_of_vyAtomic rfl rfl place rfl ?_, exec_of_vyAtomic rfl rfl place rfl ?_,
    exec_of_vyAtomic rfl rfl place rfl ?_, exec_of_vyAtomic rfl rfl place rfl ?_, exec_of_vyAtomic rfl rfl place rfl ?_,
    exec_of_vyAtomic rfl rfl place rfl ?_, exec_of_vyAtomic rfl rfl place rfl ?_, exec_of_vyAtomic rfl rfl place rfl ?_⟩ <;>
  simp only [atomicResult]

/-- Settles O6: each word is one issue, within the limit of its accumulator or of its stripe. -/
theorem exactWords : Obligations.ExactWords := by
  intro s o p t v
  refine ⟨fun run low high => ?_, fun run limit => ?_, fun run limit => ?_, fun run anchor head limit => ?_, fun run good => ?_,
    fun run => ?_, fun run slot limit => ?_, fun run slot => ?_⟩
  · exact exec_of_effect (w := execWclr o s) rfl rfl rfl (if_neg (by simp only [opB_past]; omega)) run
  · exact exec_of_effect (w := execWacc o s) rfl rfl rfl (addTerm_within limit) run
  · exact exec_of_effect (w := execWdot o s) rfl rfl rfl (addTerm_within limit) run
  · exact exec_of_effect (w := execWadd o s) rfl rfl rfl
      (by simp only [wget_past, anchor, head, ne_eq, not_true_eq_false, or_self, if_false, if_neg (Nat.not_lt.mpr (head ▸ limit))]) run
  · exact exec_of_effect (w := execWread o s) rfl rfl rfl (by simp only [opB_past, wget_past, good, Bool.false_eq_true, if_false]) run
  · exact exec_of_effect (w := execMaxr o s) rfl rfl rfl rfl run
  · exact exec_of_effect (w := execSacc o s) rfl rfl rfl
      ((if_neg (Nat.not_le.mpr slot)).trans (if_neg (Nat.not_lt.mpr limit))) run
  · exact exec_of_effect (w := execSld o s) rfl rfl rfl (if_neg (Nat.not_le.mpr slot)) run

/-- Settles O7: the special words and the start of a transfer are issues, and TRANSFER_COMPLETE acts on the oldest outstanding transfer of
its thread. -/
theorem specialWordsAndTransfers : Obligations.SpecialWordsAndTransfers := by
  refine ⟨fun s o p t v => ⟨fun run => ?_, fun run => ?_, fun run => ⟨fun mode => ?_, fun mode => ?_⟩, fun w imm => ?_⟩,
    fun s p x tile tid data clocks prog oldest => ⟨fun waits => ?_, fun waits ready => ⟨fun st failed => ?_, fun d got =>
      ⟨fun mode => ?_, fun mode src => ?_, fun mode dst => ?_⟩⟩⟩⟩
  · exact exec_of_effect (w := execGets o s) rfl rfl rfl rfl run
  · exact exec_of_effect (w := execSeed o s) rfl rfl rfl rfl run
  · exact exec_of_effect (w := execWqtake o s) rfl rfl rfl (by simp only [mode, Bool.false_eq_true, if_false, gget_past, wq_gset]; rfl) run
  · exact exec_of_effect (w := execWqtake o s) rfl rfl rfl (by simp only [mode, if_true, gget_past]) run
  · intro woff len some known baligned waligned inBuf inWin room
    refine ⟨fun run kind => ?_, fun run writable => ?_⟩
    · exact exec_of_effect (w := execBxferI o s) rfl rfl rfl
        (startXfer_good imm rfl rfl rfl rfl some known baligned waligned inBuf inWin room (beq_eq_false_iff_ne.mpr kind)) run
    · exact exec_of_effect (w := execBxferO o s) rfl rfl rfl
        ((startXfer_good imm rfl rfl rfl rfl some known baligned waligned inBuf inWin room (by simp [writable])).trans
          (by cases p.balanced <;> rfl)) run
  · rw [exec_transferComplete_oldest prog oldest, State.act_stays (by simp [waits])]
  all_goals
    have go : (((p.buf x.buf).kind != 0 || s.linkUp (s.ringCard p.ring))
        && !s.sliced (s.bufferSectors p.job (p.buf x.buf) x.boff x.len)) = true := by
      simpa [waits] using ready
    rw [exec_transferComplete_oldest prog oldest, State.act_runs clocks go]
  · simp only [failed]
  · simp only [got, mode, Bool.not_false, if_true]
  · simp only [got, mode, src, Bool.not_true, Bool.false_eq_true, if_false]
  · simp only [got, mode, dst, Bool.not_true, Bool.false_eq_true, if_false, if_true]

end Sys2Proof.Safety
end

section
/-! PROOF. Commands of a ring (O10 to O15): tagged commands and their admission, events and launches, fences, schedules, route images and
surveys. A command that is free runs the branch that its fields choose. -/
namespace Sys2Proof.Machine
open Sys2Proof.Safety

/-- A launch that needs no lock, or has it, fires (R386). -/
theorem State.launchFire_locked {s : State} {x : Ctx} {st : Nat} (h : x.p 65 1 = 0 ∨ s.locked = true) : s.launchFire x st = s.launchEnd x st true :=
  if_neg (by obtain h | h := h <;> simp [h])

/-- A write of a register other than the counter keeps the time. -/
@[simp] theorem State.now_fset {s : State} {a : Nat} {f : Bits} {v : Nat} (h : a ≠ Reg.gcValue) : (s.fset a f v).now = s.now :=
  congrArg BitVec.toNat (State.rget_fset_other s f v h)

/-- A field reads what was written into it. -/
theorem State.fget_fset {s : State} {a : Nat} {f : Bits} {v : Nat} (h : f.lo + f.width ≤ 64) : (s.fset a f v).fget a f = v % 2 ^ f.width := by
  rw [State.fget, State.rget_fset, bget_bset f _ v h]

/-- A congestion map leaves its number in TELEM_SEQ (R561). -/
theorem State.fget_sendMap {s : State} {m : Bytes} {seq : Nat} (h : seq < 2 ^ 32) :
    (s.sendMap m seq).fget Reg.telemSeq F.telemSeq_value = seq := by
  rw [State.sendMap, State.fget_fset (by decide)]
  exact Nat.mod_eq_of_lt h

/-- A request for a buffer is served at once where a die has a free one of its pool (R551). -/
theorem State.askBuffer_free {s : State} {n pool die : Nat} {u : PoolUse} {go} (size : poolFor n = some pool) (known : die < 4)
    (free : s.poolFree die pool ≠ 0) :
    s.askBuffer n u go = go s.bump ((s.diesFrom.find? (fun d => s.poolFree d pool != 0)).getD 0) pool := by
  have some : (List.range 4).all (fun d => s.poolFree d pool == 0) = false :=
    List.all_eq_false.mpr ⟨die, List.mem_range.mpr known, by simp [free]⟩
  simp only [State.askBuffer, size, some, Bool.false_eq_true, if_false]

end Sys2Proof.Machine

namespace Sys2Proof.Safety
open Sys2Proof.Machine

/-- Settles O10: a tagged command is queued by its check, and ADMIT follows the checks of its order. -/
theorem taggedCommandsAndAdmission : Obligations.TaggedCommandsAndAdmission := by
  refine ⟨fun s c x i op check free hi => ?_, fun s c x clocks ctx queued kind => ⟨fun u place judged may first room placed => ?_, fun tagged stale => ?_⟩⟩
  · have arm : exec i s = .next (s.queueTagged c check) := by
      simp only [List.mem_cons, Prod.mk.injEq, List.not_mem_nil, or_false] at hi
      obtain ⟨rfl, rfl, rfl⟩ | ⟨rfl, rfl, rfl⟩ | ⟨rfl, rfl, rfl⟩ | ⟨rfl, rfl, rfl⟩ | ⟨rfl, rfl, rfl⟩ | ⟨rfl, rfl, rfl⟩ := hi <;>
      exact State.issue_free free
    constructor
    · rintro rfl; exact arm
    · rintro st rfl; exact arm
  · have cond : (x.phase == .queued && (isTagged x.opcode || x.opcode == 0x0F)) = true := by simpa [queued] using kind
    simp only [exec, execAdmitOp, ctx]
    rw [State.act_runs clocks cond, judged]
    simp [may, first, room, placed]
  · have cond : (x.phase == .queued && (isTagged x.opcode || x.opcode == 0x0F)) = true := by simpa [queued] using kind
    simp only [exec, execAdmitOp, ctx]
    rw [State.act_runs clocks cond]
    simp only [State.judgeAgain, tagged, stale]; rfl

/-- Settles O11: each clause is one branch of NOP, LAUNCH_AT or its maturity. -/
theorem eventCommands : Obligations.EventCommands := by
  refine ⟨fun s c x free => ⟨fun h => ?_, fun h low high => ?_, fun h => ?_⟩, fun s x op rej st k => ?_, fun s c x free cancel => ?_,
    fun s c x free once => ⟨fun early => ?_, fun late strict => ?_, fun late mode lax => ?_⟩,
    fun s c x clocks ctx op run due => ⟨fun lock => ?_, fun need lock => ?_⟩⟩
  · simp only [exec, execNop, State.issue_free free, h, if_true, State.endCmd]
  · simp only [exec, execNop, State.issue_free free, h]
    rw [if_neg (by decide), if_neg (by omega)]
    generalize Job.hasEvent _ _ = a
    generalize Job.hasEvent _ _ = b
    cases a <;> cases b <;> rfl
  · simp only [exec, execNop, State.issue_free free, State.rejectCmd]
    rw [if_neg (by omega), if_pos (.inl h)]
  · simp [State.nopClose, op, rej, st, k]
  · simp only [exec, execLaunchAt, State.issue_free free, cancel, if_true, List.isEmpty_iff]
  · simp only [exec, execLaunchAt, State.issue_free free, once, early, if_true]; rfl
  · simp only [exec, execLaunchAt, State.issue_free free, once, strict, if_true, if_neg (Nat.not_le.mpr late)]; rfl
  · simp only [exec, execLaunchAt, State.issue_free free, once, mode, if_neg (Nat.not_le.mpr late)]
    exact congrArg _ (State.launchFire_locked lax)
  · simp only [exec, execLaunchMature, ctx]
    rw [State.act_runs clocks (by simp [op, run, due]), State.launchFire_locked lock]
  · simp only [exec, execLaunchMature, ctx]
    rw [State.act_runs clocks (by simp [op, run, due]), State.launchFire, if_pos (by simp [need, lock])]

/-- Settles O12: each clause is one branch of FENCE, UNFENCE or CLOSE_BUCKET. -/
theorem fenceAndClose : Obligations.FenceAndClose := by
  refine ⟨fun s c x free => ⟨fun own => ?_, fun own fenced => ?_, fun own fenced full => ?_⟩, fun s c x free own fenced room => ?_,
    fun s c x free own => ⟨fun fenced => ?_, fun fenced => ?_⟩,
    fun s c x free => ⟨fun bucket o found => ?_, fun bucket h found => ?_, fun bucket none => ?_⟩⟩
  · simp only [exec, execFence, State.issue_free free, own]; rfl
  · simp only [exec, execFence, State.issue_free free, own, fenced]; rfl
  · simp only [exec, execFence, State.issue_free free, own, fenced, full]; rfl
  · simp only [exec, execFence, State.issue_free free, own, fenced, if_neg (Nat.not_le.mpr room)]; rfl
  · simp only [exec, execUnfence, State.issue_free free, own, fenced]; rfl
  · simp only [exec, execUnfence, State.issue_free free, own, fenced]; rfl
  · simp only [exec, execCloseBucket, State.issue_free free, bucket, if_true, found]; rfl
  · simp only [exec, execCloseBucket, State.issue_free free, bucket, if_false, Nat.one_ne_zero, found]; rfl
  · simp only [exec, execCloseBucket, State.issue_free free, bucket, if_false, Nat.one_ne_zero, none]; rfl

/-- Settles O13: each clause is one branch of a row of the schedules or of the fabric. -/
theorem schedules : Obligations.Schedules := by
  refine ⟨fun s clocks => ?_, fun s inp p k clocks quiet engines good found => ?_, fun s t rest clocks done small room => ?_,
    fun s die pool w a b clocks found use room => ?_, fun s c x b owners free idle owner => ⟨fun clear img => ?_, fun clear al l1 l2 n1 n2 len =>
      ⟨fun down img => ?_, fun up => ⟨?_, fun ok => ?_⟩⟩⟩, fun s b clocks waits due => ?_, fun s b clocks bank => ?_⟩
  · simp only [exec, execCellTime, State.act_runs clocks rfl]
  · simp only [exec, execPacketRoute, if_neg engines, found]
    rw [State.act_runs clocks (by simp [quiet])]
    simp only [good, Bool.or_false]
  · simp only [exec, execTelemetryInterval, done]
    rw [State.act_runs clocks rfl, State.askBuffer_free (n := mapBytes) (pool := 4) (die := 0) (by decide) (by decide)]
    · exact ⟨_, rfl, State.fget_sendMap small⟩
    · exact room
  · simp only [exec, execPoolWaitGrant, found]
    rw [State.act_runs clocks (by simp [room])]
    refine ⟨_, rfl, ?_, ?_⟩ <;> rw [use] <;> rfl
  · simp only [exec, execScheduleLoad]
    rw [State.fabric_free free (by simp [idle]) owner, if_pos clear]
  · simp only [exec, execScheduleLoad]
    rw [State.fabric_free free (by simp [idle]) owner]
    simp [clear, al, l1, l2, n1, n2, len, down]
  · simp only [exec, execScheduleLoad]
    rw [State.fabric_free free (by simp [idle]) owner]
    simp [clear, al, l1, l2, n1, n2, len, up]
  · simp only [exec, execScheduleLoad]
    rw [State.fabric_free free (by simp [idle]) owner]
    rw [len] at ok
    simp [clear, al, l1, l2, n1, n2, len, up, ok]
  · simp only [exec, execScheduleStart, waits]
    rw [State.act_runs clocks (decide_eq_true due), State.now_fset (by decide), State.now_fset (by decide)]
  · simp only [exec, execSlotBoundary, bank]
    rw [State.act_runs clocks rfl]

/-- Settles O14: each clause is one branch of a row of the route images. -/
theorem routeImages : Obligations.RouteImages := by
  refine ⟨fun s c x b l free turn owner al => ⟨fun down => ?_, fun up sections ok => ?_⟩,
    fun s r clocks staged => ⟨fun idle inTime => ?_, fun late => ?_⟩,
    fun s c x free turn owner other staged => ⟨fun now => ?_, fun pos past => ?_, fun future => ?_⟩, fun s x clocks found due => ?_⟩
  · simp only [exec, execRouteStage]
    rw [State.fabric_free free turn owner]
    simp [al, down]
  · simp only [exec, execRouteStage]
    rw [State.fabric_free free turn owner]
    simp [al, up, sections, ok]
  · simp only [exec, execRouteStageWrite, staged]
    rw [State.act_runs clocks (by rw [idle]; exact decide_eq_true inTime)]
    split <;> rfl
  · simp only [exec, execRouteStageTimeout, staged]
    rw [State.act_runs clocks (decide_eq_true late)]; rfl
  · simp only [exec, execRouteSwap]
    rw [State.fabric_free free turn owner]
    simp [other, staged, now, State.endCmd]
  · simp only [exec, execRouteSwap]
    rw [State.fabric_free free turn owner]
    simp [other, staged, past, State.endCmd, Nat.ne_of_gt pos, Nat.ne_of_lt past]
  · simp only [exec, execRouteSwap]
    rw [State.fabric_free free turn owner]
    simp [other, staged, Nat.ne_of_gt future, Nat.ne_of_gt (Nat.zero_lt_of_lt future), Nat.lt_asymm future]
  · simp only [exec, execRouteSwapAt, found]
    rw [State.act_runs clocks (by simp [due])]; rfl

/-- Settles O15: each clause is one branch of a row of the survey. -/
theorem surveys : Obligations.Surveys := by
  refine ⟨fun s c x free => ⟨fun len al idle => ?_, fun short => ?_⟩, fun s m clocks => ⟨fun idle len => ?_, fun busy => ?_⟩,
    fun s v snap clocks run shot up => ⟨fun c cmd => ?_, fun cmd => ?_⟩⟩
  · simp only [exec, execSurvey, State.issue_free free]
    rw [if_neg (by omega)]; simp [idle]
  · simp only [exec, execSurvey, State.issue_free free]
    rw [if_pos (.inl short)]
  · simp only [exec, execSurveyGo, State.act_runs clocks rfl]
    simp [idle, Nat.not_lt.mpr len]
  · simp only [exec, execSurveyGo, State.act_runs clocks rfl]
    simp [Option.isSome_iff_ne_none, busy]
  · simp only [exec, execSurveyComplete, run]
    rw [State.act_runs clocks (by simp [up, shot])]
    simp [cmd, shot]
  · simp only [exec, execSurveyComplete, run]
    rw [State.act_runs clocks (by simp [up, shot])]
    simp [cmd, shot]

end Sys2Proof.Safety
end

section
/-! PROOF. Rings and operations (O16 to O25): the intake and the end of commands, ring registers, and the packets and ends of an
operation. A packet that arrives sound, or data of a live operation, runs the branch that its checks choose. -/
namespace Sys2Proof.Machine
open Sys2Proof.Safety

section
variable (s : State)

@[simp] theorem ctxs_msix (card v : Nat) : (s.msix card v).host.ctxs = s.host.ctxs := by rw [State.msix_host]

@[simp] theorem ctxs_ringMsix (n : Nat) : (s.ringMsix n).host.ctxs = s.host.ctxs := ctxs_msix s _ _

@[simp] theorem ctxs_ringDue (n : Nat) : (s.ringDue n).host.ctxs = s.host.ctxs := by
  unfold State.ringDue; split
  · exact ctxs_ringMsix s n
  · rfl

/-- Noting a completion for an interrupt keeps the contexts. -/
@[simp] theorem ctxs_coalesce (n : Nat) : (s.coalesce n).host.ctxs = s.host.ctxs := ctxs_ringDue _ n

@[simp] theorem ctxs_writeCpl (h : HeldCpl) : (s.writeCpl h).host.ctxs = s.host.ctxs := by
  unfold State.writeCpl
  rw [ctxs_coalesce]
  cases h.report <;> rfl

@[simp] theorem ctxs_deliver (h : HeldCpl) : (s.deliver h).host.ctxs = s.host.ctxs := by
  unfold State.deliver
  dsimp only
  split
  · exact ctxs_writeCpl s h
  · rfl

@[simp] theorem ops_msix (card v : Nat) : (s.msix card v).ops = s.ops := by rw [State.msix_ops]

/-- Noting a completion for an interrupt keeps the operations. -/
theorem ops_coalesce (n : Nat) : (s.coalesce n).ops = s.ops := by
  unfold State.coalesce State.ringDue; dsimp only; split
  · exact ops_msix _ _ _
  · rfl

/-- The entry of a command frees its tag (R437). -/
theorem ops_writeCpl (h : HeldCpl) : (s.writeCpl h).ops = s.ops.filter (fun o => !(o.ring == h.ring && o.idx == bget ⟨32, 32⟩ h.entry)) := by
  unfold State.writeCpl
  rw [ops_coalesce]
  cases h.report <;> rfl
end

/-- A report keeps the reference of its context. -/
theorem ref_withReport (s : State) (c : Ctx) : (s.withReport c).ref = c.ref := by
  unfold State.withReport; split
  · rfl
  · split
    · split <;> rfl
    · rfl

/-- The end of a launch keeps the reference of its context. -/
theorem ref_launchClose (s : State) (c : Ctx) : (s.launchClose c).ref = c.ref := by
  unfold State.launchClose; split <;> rfl

/-- The end of a STEP keeps the reference of its context. -/
theorem ref_stepClose (s : State) (c : Ctx) : (s.stepClose c).2.ref = c.ref := by
  unfold State.stepClose; dsimp only; split <;> rfl

/-- A context is that of its own reference. -/
theorem Ctx.is_iff {r : Ref} {x : Ctx} : Ctx.is r x = true ↔ x.ref = r := by
  cases r
  simp only [Ctx.is, Ctx.ref, Bool.and_eq_true, beq_iff_eq, Ref.mk.injEq]

/-- The contexts of a choice of two states. -/
theorem ctxs_ite {c : Prop} [Decidable c] {a b : State} : (if c then a else b).host.ctxs = if c then a.host.ctxs else b.host.ctxs :=
  apply_ite (fun s : State => s.host.ctxs) _ _ _

theorem ctxs_idleRing (s : State) (n : Nat) : (s.idleRing n).host.ctxs = s.host.ctxs := rfl

theorem ctxs_fset (s : State) (a : Nat) (f : Bits) (v : Nat) : (s.fset a f v).host.ctxs = s.host.ctxs := rfl

theorem ctxs_countLaunches (s : State) : s.countLaunches.host.ctxs = s.host.ctxs := rfl

/-- What completes a command takes its context out of those of the part. -/
theorem State.ctxs_complete (s : State) (c : Ctx) : ∃ l : List Ctx, (s.complete c).host.ctxs = l.filter (fun x => !Ctx.is c.ref x) := by
  unfold State.complete
  simp only [ctxs_ite, ctxs_idleRing, ite_self, ctxs_fset, ctxs_deliver, ctxs_countLaunches, ref_stepClose, ref_launchClose]
  exact ⟨_, rfl⟩

/-- A command that has completed has no context. -/
theorem State.ctx_complete (s : State) (c : Ctx) : (s.complete c).ctx c.ref = none := by
  obtain ⟨l, h⟩ := State.ctxs_complete s c
  rw [State.ctx, h]
  simp

/-- A sound packet acts on the state without its cells. -/
theorem State.arrive_sound {s : State} {p : Packet} {port : Nat} {f : State → State} (h : Arrives s p) :
    s.arrive port p f = f (s.taken p) := by
  simp only [State.arrive, h.sound, h.whole, Bool.false_eq_true, if_false]

/-- Sound data of a live operation of this epoch goes to that operation. -/
theorem State.dataIn_live {s : State} {port sub : Nat} {p : Packet} {o : Op} {f : State → Op → State} (clocks : s.clocked = true)
    (sound : s.spoiled p = false) (active : s.jobIs (pget p Ph.job) jobActive = true)
    (found : (s.taken p).findOp (pget p Ph.job) (pget p Ph.tag) = some o) (epoch : o.epoch = pget p Ph.epoch) (live : o.live = true)
    (kind : isData p sub = true) : s.dataIn port p sub f = .next (f (s.taken p) o) := by
  rw [State.dataIn, State.act_runs clocks (by rw [active, Bool.and_true]; exact kind)]
  simp only [sound, found, epoch, live, Bool.false_eq_true, if_false, bne_self_eq_false, Bool.not_true]

/-- An operation after bytes or elements of an input are accepted. -/
def Op.took (o : Op) (q n : Nat) : Op := { o with accepted := tset 0 o.accepted q (o.portSent q + n), valuesIn := o.valuesIn + n }

/-- Data within what its input owes is accepted. -/
theorem State.acceptData_within {s : State} {o : Op} {q n : Nat} {f : State → Op → State} (h : o.portSent q + n ≤ s.portOwes o q) :
    s.acceptData o q n f = f (s.setOp (o.took q n)) (o.took q n) := by
  simp only [State.acceptData, if_neg (Nat.not_lt.mpr h), Op.took]

/-- Data beyond what its input owes aborts the operation (R268). -/
theorem State.acceptData_beyond {s : State} {o : Op} {q n : Nat} {f : State → Op → State} (h : s.portOwes o q < o.portSent q + n) :
    s.acceptData o q n f = s.abortOwn o stOvercount := by
  simp only [State.acceptData, if_pos h]

/-- What the values of a member do to a live operation (R239 to R242). -/
def State.contribLive (s : State) (port : Nat) (p : Packet) (o : Op) : State :=
  let q := s.entryBit port p
  let mem := s.bitMember ((s.job o.job).layout o.layoutNo) q
  if !o.isRed || !o.src.contains q || mem != some (pget p Ph.member) then (s.taken p).foreignCells o p
  else
    let off := pget p Ph.offset
    let k := contribSplit o.wireFmt o.nelem off (elemCount o.wireFmt p.payload)
    if o.owed < o.portSent q + k.1 then (s.taken p).abortOwn { o with foreign := o.foreign + k.2 } stOvercount
    else (s.setOp (o.takeValues q k.1 k.2)).queueValues port p (o.values p off k.1 (pget p Ph.member))

/-- A contribution to a live operation of this epoch. -/
theorem exec_contrib_live {s : State} {port : Nat} {p : Packet} {o : Op} (clocks : s.clocked = true) (type : pget p Ph.type = ptContrib)
    (active : s.jobIs (pget p Ph.job) jobActive = true) (good : s.spoiled p = false)
    (found : s.findOp (pget p Ph.job) (pget p Ph.tag) = some o) (epoch : o.epoch = pget p Ph.epoch) (live : o.live = true) :
    exec (.contrib port p) s = .next (s.contribLive port p o) := by
  simp only [exec, execContrib]
  rw [State.act_runs clocks (by simp [type, active])]
  simp only [good, found, epoch, live, bne_self_eq_false, Bool.not_true, Bool.false_eq_true, if_false, State.contribLive]

/-- What a record of a live reduction does, by its checks (R238, R244). -/
def State.xpLive (s : State) (p : Packet) (o : Op) (u : Upset) : State :=
  let r := xpParse p.payload
  let x := o.stripe r.stripe
  if o.nstripes ≤ r.stripe ∨ r.nelem ≠ o.stripeLen r.stripe then s.abortOwn { o with originCoord := pkgOf p } stXpCheck
  else if u = .readout ∨ xpResOk r = false then s.xpFault o r.stripe (pkgOf p)
  else if r.anchor ≠ o.anchor then s.abortOwn { o with originCoord := pkgOf p } stAnchorMismatch
  else if o.children ≤ x.records then s.abortOwn o stOvercount
  else if 1048576 < o.covered r.stripe + r.ncontrib then s.abortOwn o stCountLimit
  else if u = .residue then s.bedUpset .residue 1 (o.place.getD r.stripe 0) o
  else s.stripeTaken (o.setStripe r.stripe (x.combine r)) r.stripe

/-- A record that matches a live reduction runs through its checks. -/
theorem exec_xp_live {s : State} {port : Nat} {p : Packet} {o : Op} {u : Upset} (arrives : Arrives s p) (type : pget p Ph.type = ptXp)
    (room : (s.recordBed p).any s.bedFull = false) (found : (s.taken p).findOp (pget p Ph.job) (pget p Ph.tag) = some o)
    (epoch : o.epoch = pget p Ph.epoch) (live : o.live = true) (red : o.isRed = true) (mine : o.matchesNotice p = true)
    (sound : (u == .ecc) = false) : exec (.xp port p u) s = .next ((s.taken p).xpLive p o u) := by
  simp only [exec, execXp]
  rw [State.act_runs arrives.clocks (by simp [type, room]), sound, Bool.or_false, State.arrive_sound arrives]
  simp only [found, epoch, live, red, mine, bne_self_eq_false, Bool.and_self, Bool.not_true, Bool.false_eq_true, if_false, State.xpLive]

/-- What the bytes of a SHIFT that are accepted do (R267). -/
def State.shiftOn (s : State) (p : Packet) (o : Op) : State :=
  ((match o.unopened, (o.shiftTarget (pget p Ph.sender)).bind (layoutCoord ((s.job o.job).layout o.layoutNo)) with
    | false, some d => if s.mayReceive o d then s.sendData o 0 d (pget p Ph.byteOffset) (pget p Ph.sender) dsShift p.payload else s
    | _, _ => s).setOp { o with delivered := o.delivered + p.payload.length }).settleData o.job o.tag

/-- Accepted bytes of a SHIFT with a target go there where they may. -/
theorem State.shiftOn_target {s : State} {p : Packet} {o : Op} {d : Nat} (opened : o.unopened = false)
    (target : (o.shiftTarget (pget p Ph.sender)).bind (layoutCoord ((s.job o.job).layout o.layoutNo)) = some d) :
    s.shiftOn p o = ((if s.mayReceive o d then s.sendData o 0 d (pget p Ph.byteOffset) (pget p Ph.sender) dsShift p.payload
      else s).setOp { o with delivered := o.delivered + p.payload.length }).settleData o.job o.tag := by
  simp only [State.shiftOn, opened, target]

/-- Accepted bytes of a SHIFT without a target are only counted. -/
theorem State.shiftOn_none {s : State} {p : Packet} {o : Op}
    (why : o.unopened = true ∨ (o.shiftTarget (pget p Ph.sender)).bind (layoutCoord ((s.job o.job).layout o.layoutNo)) = none) :
    s.shiftOn p o = (s.setOp { o with delivered := o.delivered + p.payload.length }).settleData o.job o.tag := by
  obtain h | h := why
  · simp only [State.shiftOn, h]
  · simp only [State.shiftOn, h]
    cases o.unopened <;> rfl

/-- Every packet of an operation arrives first. -/
theorem exec_arrival {s : State} {port : Nat} {p : Packet} {i : Instr} (clocks : s.clocked = true) (mem : (i, true) ∈ arrivals s port p) :
    ∃ f, exec i s = .next (s.arrive port p f) := by
  have clean : ({ p with bad := p.bad || Upset.clean == .ecc } : Packet) = p := by
    rw [show (Upset.clean == .ecc) = false from rfl, Bool.or_false]
  simp only [arrivals, List.mem_cons, List.not_mem_nil, Prod.mk.injEq, or_false] at mem
  obtain ⟨rfl, h⟩ | ⟨rfl, h⟩ | ⟨rfl, h⟩ | ⟨rfl, h⟩ | ⟨rfl, h⟩ | ⟨rfl, h⟩ | ⟨rfl, h⟩ | ⟨rfl, h⟩ | ⟨rfl, h⟩ | ⟨rfl, h⟩ | ⟨rfl, h⟩ | ⟨rfl, h⟩
    | ⟨rfl, h⟩ := mem
  · simp only [exec, execXp]; rw [clean]; exact ⟨_, State.act_runs clocks h.symm⟩
  · exact ⟨_, State.act_runs clocks h.symm⟩
  · exact ⟨_, State.act_runs clocks h.symm⟩
  · exact ⟨_, State.act_runs clocks h.symm⟩
  · exact ⟨_, State.act_runs clocks h.symm⟩
  · exact ⟨_, State.act_runs clocks h.symm⟩
  · simp only [exec, execNormMax]; rw [clean]; exact ⟨_, State.act_runs clocks h.symm⟩
  · simp only [exec, execNormSum]; rw [clean]; exact ⟨_, State.act_runs clocks h.symm⟩
  · exact ⟨_, State.act_runs clocks h.symm⟩
  · exact ⟨_, State.act_runs clocks h.symm⟩
  · exact ⟨_, State.act_runs clocks h.symm⟩
  · exact ⟨_, State.act_runs clocks h.symm⟩
  · exact ⟨_, State.act_runs clocks h.symm⟩

end Sys2Proof.Machine

namespace Sys2Proof.Safety
open Sys2Proof.Machine

/-- Settles O16: each clause is one branch of the rows that read a descriptor and that free a command. -/
theorem ringIntake : Obligations.RingIntake := by
  refine ⟨fun s ring d clocks turn => ⟨fun e => ?_, fun held e => ?_, fun none => ?_, fun none => ?_⟩,
    fun s c x clocks ctx waits set still => ?_, fun s c x clocks ctx => ?_⟩
  · simp only [exec, execDescriptorRead]
    rw [State.act_runs clocks (by simp [turn])]; rfl
  · simp only [exec, execDescriptorRead]
    rw [State.act_runs clocks (by simp [turn]), if_neg (by decide), held]
  · simp only [exec, execDescriptorRead]
    rw [State.act_runs clocks (by simp [turn]), if_neg (by decide), none]
  · simp only [exec, execDescriptorRead]
    rw [State.act_runs clocks (by simp [turn]), if_neg (by decide), none]
  · constructor <;>
    · simp only [exec, execWaitRelease, ctx]
      rw [State.act_runs clocks (by simp [waits, set, still]), if_neg (by decide)]
  · simp only [exec, execWaitRelease, ctx]
    rw [State.act_runs clocks (by simp)]; rfl

/-- Settles O17: a command completes once nothing of it is left in the part; what completes it takes its context out, and its entry its tag. -/
theorem completions : Obligations.Completions := by
  refine ⟨fun s c x clocks ctx ended => ⟨fun out pub late => ?_, fun why => ?_, ?_⟩, fun s h o mem => ?_, fun s ring t clocks first en delay due => ?_⟩
  · have ref : x.ref = c := Ctx.is_iff.mp (List.find?_some ctx)
    simp only [exec, execCommandComplete, ctx]
    rw [State.act_runs clocks]
    rw [ended, late, State.allOut, ref, out]
    by_cases h : x.opcode = 0x0A <;> simp [h, pub]
  · have ref : x.ref = c := Ctx.is_iff.mp (List.find?_some ctx)
    simp only [exec, execCommandComplete, ctx]
    refine State.act_stays ?_
    rw [State.allOut, ref]
    obtain h | ⟨op, h⟩ | h := why
    · simp [h]
    · simp [op, h]
    · simp [h]
  · have ref : x.ref = c := Ctx.is_iff.mp (List.find?_some ctx)
    rw [← ref, ← ref_withReport s x]
    exact State.ctx_complete s _
  · rw [ops_writeCpl] at mem
    have h := (List.mem_filter.mp mem).2
    rintro ⟨ring, idx⟩
    simp [ring, idx] at h
  · simp only [exec, execIrqDelay, first]
    rw [State.act_runs clocks (by simp [en, due, Nat.ne_of_gt delay])]

/-- Settles O18: each clause is one branch of a row of the ring registers or of the Taproot link. -/
theorem ringRegistersAndLink : Obligations.RingRegistersAndLink := by
  refine ⟨fun s m ring clocks known owns => ⟨fun value running => ?_, fun half value off => ?_, fun ctrl =>
      ⟨fun idle may => ?_, fun idle may => ?_, fun up none => ?_, fun up some => ?_⟩⟩,
    fun s card clocks has up => ⟨?_, ?_⟩, fun s card gen width flit clocks has down g1 g6 w own => ?_⟩
  · simp only [exec, execDoorbell, State.act_runs clocks (decide_eq_true known), owns, running, State.ringDoorbell]
    simp

  · simp only [exec, execDoorbell, State.act_runs clocks (decide_eq_true known), owns]
    simp [off]
  · simp only [exec, execRingEnable, State.act_runs clocks (decide_eq_true known), owns]
    simp [idle, may]
  · simp only [exec, execRingEnable, State.act_runs clocks (decide_eq_true known), owns]
    simp [idle, may]
  · simp only [exec, execRingDisable, State.act_runs clocks (decide_eq_true known), owns]
    simp [up, none]
  · simp only [exec, execRingDisable, State.act_runs clocks (decide_eq_true known), owns]
    simp [up, Nat.ne_of_gt some]
  · simp only [exec, execTaprootLinkDown]
    rw [State.act_runs clocks (by simp [has, up])]; rfl
  · simp only [exec, execTaprootLinkDown]
    rw [State.act_runs clocks (by simp [has, up])]; rfl
  · simp only [exec, execTaprootLinkUp]
    rw [State.act_runs clocks]
    simp only [has, down, pcieWf, g1, g6, and_self, decide_true, List.contains_iff_mem.mpr w, Bool.true_and, Bool.not_false]
    by_cases h : card = s.pkgNo <;> simp [h, own]

/-- Settles O19: each clause is one branch of the checks of a contribution. -/
theorem contributions : Obligations.Contributions := by
  intro s port p clocks type active
  have run : exec (.contrib port p) s = .next _ := State.act_runs clocks (by simp [type, active])
  refine ⟨fun bad => ?_, fun good o found => ⟨fun epoch => ?_, fun epoch live => ⟨fun own => ?_, fun own beyond => ?_, fun own within => ?_⟩⟩,
    fun good none => ?_, fun l whole room => ?_⟩
  · rw [run, if_pos bad]
  · rw [run, good]; simp [found, epoch, State.staleCells]
  · rw [exec_contrib_live clocks type active good found epoch live, State.contribLive, if_pos]
    · rfl
    · refine Classical.byContradiction fun h => ?_
      simp only [Bool.or_eq_true, Bool.not_eq_true', bne_iff_ne, not_or, Bool.not_eq_false, ne_eq, Decidable.not_not] at h
      obtain ⟨⟨red, src⟩, mem⟩ := h
      exact own ⟨red, src, mem⟩
  · obtain ⟨red, src, mem⟩ := own
    rw [exec_contrib_live clocks type active good found epoch live, State.contribLive, if_neg (by simp only [red, src, mem]; simp), if_pos beyond]
  · obtain ⟨red, src, mem⟩ := own
    rw [exec_contrib_live clocks type active good found epoch live, State.contribLive, if_neg (by simp only [red, src, mem]; simp),
      if_neg (Nat.not_lt.mpr within)]
    rfl
  · rw [run, good]; simp [none]
  · simp only [State.queueValues, whole, room]; rfl

/-- Settles O20: the bed adds the value that waits longest, and its stripe is judged once final. -/
theorem rakeAccumulate : Obligations.RakeAccumulate := by
  intro s bed v o clocks first found live
  have run : ∀ u, exec (.rakeAccumulate bed u) s = .next (if u != .clean then ({ s with bedQ := s.bedQ.erase v } : State).bedUpset u 1 bed o
     else ({ s with bedQ := s.bedQ.erase v } : State).stripeTaken (o.rake v) (v.elem / 256)) := by
    intro u
    simp only [exec, execRakeAccumulate, first, State.act_runs clocks rfl, found, live]; rfl
  refine ⟨fun why => ?_, fun root final short => ?_, run _, run _⟩
  · rw [run, if_neg (by decide), State.stripeTaken, if_neg]
    obtain h | h | h := why <;> simp [h]
  · rw [run, if_neg (by decide), State.stripeTaken, if_pos (by simp [root, final, short])]

/-- Settles O21: the record runs through its checks in their order. -/
theorem xpRecords : Obligations.XpRecords := by
  intro s port p arrives type
  refine ⟨fun full u => State.act_stays (by simp [full]), fun room => ⟨fun none => ?_, fun o found epoch => ⟨fun not => ?_, fun live red mine =>
    ⟨fun bad => ?_, fun stripe nelem => ⟨fun res => ?_, fun res anchor => ?_, fun res anchor => ⟨fun full => ?_, fun more limit => ⟨?_, ?_⟩⟩, ?_⟩⟩⟩⟩⟩
  · simp only [exec, execXp]
    rw [State.act_runs arrives.clocks (by simp [type, room]), show (Upset.clean == .ecc) = false from rfl, Bool.or_false, State.arrive_sound arrives]
    simp only [none]
  · simp only [exec, execXp]
    rw [State.act_runs arrives.clocks (by simp [type, room]), show (Upset.clean == .ecc) = false from rfl, Bool.or_false, State.arrive_sound arrives]
    have : (o.live && o.isRed && o.matchesNotice p) = false := by
      rw [Bool.eq_false_iff]; intro h; simp only [Bool.and_eq_true] at h; exact not ⟨h.1.1, h.1.2, h.2⟩
    simp only [found, epoch, this, bne_self_eq_false, Bool.false_eq_true, if_false, Bool.not_false, if_true]
  · rw [exec_xp_live arrives type room found epoch live red mine rfl, State.xpLive, if_pos bad]
  all_goals
    have whole : ¬ (o.nstripes ≤ (xpParse p.payload).stripe ∨ (xpParse p.payload).nelem ≠ o.stripeLen (xpParse p.payload).stripe) :=
      not_or.mpr ⟨Nat.not_le.mpr stripe, not_not_intro nelem⟩
    rw [exec_xp_live arrives type room found epoch live red mine rfl, State.xpLive, if_neg whole]
  · rw [if_pos (.inr res)]
  · rw [if_neg (by simp [res]), if_pos anchor]
  · rw [if_neg (by simp [res]), if_neg (not_not_intro anchor), if_pos full]
  · rw [if_neg (by simp [res]), if_neg (not_not_intro anchor), if_neg (Nat.not_le.mpr more), if_neg (Nat.not_lt.mpr limit), if_neg (by decide)]
  · rw [if_neg (by simp [res]), if_neg (not_not_intro anchor), if_neg (Nat.not_le.mpr more), if_neg (Nat.not_lt.mpr limit), if_pos rfl]
  · rw [if_pos (.inl rfl)]

/-- Settles O22: each clause is one branch of the row that sends a chunk or of the one that ends it. -/
theorem chunks : Obligations.Chunks := by
  refine ⟨fun s job tag chunk o clocks found may => ⟨?_, ?_⟩,
    fun s job tag chunk o clocks found live red known final new => ?_⟩
  · simp only [exec, execXpSend, found, State.act_runs clocks may]; rfl
  · simp only [exec, execXpSend, found, State.act_runs clocks may]; rfl
  have may : (o.live && o.isRed && decide (chunk < o.nchunks) && o.chunkFinal chunk && !o.finalChunks.contains chunk) = true := by
    simp only [live, red, known, final, new, decide_true, Bool.and_true, Bool.not_false]
  refine ⟨fun u upset => ?_, fun root short => ?_, fun root full op => ?_, fun root full op o' found' => ?_, fun root => ?_⟩
  · simp only [exec, execChunkFinal, found, State.act_runs clocks may]
    rw [if_pos (by simpa using upset)]
  · simp only [exec, execChunkFinal, found, State.act_runs clocks may]
    rw [if_neg (by decide), if_pos root, if_pos short]
  · simp only [exec, execChunkFinal, found, State.act_runs clocks may]
    rw [if_neg (by decide), if_pos root, full, if_neg (by decide)]
    simp only [op, if_true, found]
  · simp only [exec, execChunkFinal, found, State.act_runs clocks may]
    rw [if_neg (by decide), if_pos root, full, if_neg (by decide)]
    simp only [op, if_false, found', Bool.false_eq_true]
  · simp only [exec, execChunkFinal, found, State.act_runs clocks may]
    rw [if_neg (by decide), root, if_neg (by decide)]

/-- Settles O23: each clause is one end of an operation. -/
theorem bucketEnds : Obligations.BucketEnds := by
  intro s job tag o clocks found live
  refine ⟨fun root all => ⟨fun op => ?_, fun op => ?_⟩, fun root red op sent => ⟨fun del => ?_, fun del => ?_⟩, fun d dl due taken => ⟨fun owed => ?_, fun owed => ?_⟩⟩
  · simp only [exec, execBucketComplete, found]
    rw [State.act_runs clocks (by simp [live, root, all])]; simp [op]
  · simp only [exec, execBucketComplete, found]
    rw [State.act_runs clocks (by simp [live, root, all])]; simp [op]
  · simp only [exec, execNonrootComplete, found]
    rw [State.act_runs clocks (by simp [live, root, red, sent])]; simp [op, del]
  · simp only [exec, execNonrootComplete, found]
    rw [State.act_runs clocks (by simp [live, root, red, sent])]; simp [op, del]
  · simp only [exec, execBucketDeadline, found]
    rw [State.act_runs clocks (by simp [State.deadlineDue, live, dl, due, taken])]; simp [State.evalDeadline, owed]
  · simp only [exec, execBucketDeadline, found]
    rw [State.act_runs clocks (by simp [State.deadlineDue, live, dl, due, taken])]; simp [State.evalDeadline, owed]

/-- Settles O25: data of a live operation is foreign, beyond what its input owes, or accepted. -/
theorem dataExchanges : Obligations.DataExchanges := by
  intro s port p o clocks good active found epoch live
  refine ⟨fun kind why => ?_, fun kind op own => ⟨fun beyond => ?_, fun within => ⟨fun d opened target => ?_, fun why => ?_⟩⟩,
    fun kind why => ?_, fun kind op own => ⟨fun why => ?_, fun none within => ?_⟩⟩
  · simp only [exec, execShiftData]
    rw [State.dataIn_live clocks good active found epoch live kind, if_pos (by simpa using why)]; rfl
  · simp only [exec, execShiftData]
    rw [State.dataIn_live clocks good active found epoch live kind, if_neg (by simp [op, own]), State.acceptData_beyond beyond]
  · simp only [exec, execShiftData]
    rw [State.dataIn_live clocks good active found epoch live kind, if_neg (by simp [op, own]), State.acceptData_within within]
    exact congrArg _ (State.shiftOn_target opened target)
  · simp only [exec, execShiftData]
    rw [State.dataIn_live clocks good active found epoch live kind, if_neg (by simp [op, own]), State.acceptData_within within]
    exact congrArg _ (State.shiftOn_none why)
  · simp only [exec, execAllgatherData]
    rw [State.dataIn_live clocks good active found epoch live kind, if_pos (by simpa using why)]; rfl
  · simp only [exec, execAllgatherData]
    rw [State.dataIn_live clocks good active found epoch live kind, if_neg (by simp [op, own])]
    by_cases some : (contribSplit (o.p 124 4) (shareOf o.nelem o.members (pget p Ph.sender)).2
        (pget p Ph.byteOffset / (unitOf (o.p 124 4)).2 * (unitOf (o.p 124 4)).1) (elemCount (o.p 124 4) p.payload)).2 = 0
    · rw [if_neg (by simp [some]), State.acceptData_beyond (why.resolve_left (not_not_intro some))]
    · rw [if_pos (by simp [some])]
  · simp only [exec, execAllgatherData]
    rw [State.dataIn_live clocks good active found epoch live kind, if_neg (by simp [op, own])]
    rw [if_neg (by simp [none]), State.acceptData_within within]
    rfl

/-- Settles O24: every packet of an operation arrives in one way, and a notice goes to the operation that it matches. -/
theorem notices : Obligations.Notices := by
  refine ⟨fun s port p i kind clocks mem is => ⟨fun bad => ?_, fun good cut => ?_⟩, fun s port p arrives => ⟨fun kind o found here => ?_,
    fun kind o found parent red => ?_, fun kind => ⟨fun o found mine => ?_, fun none fresh => ?_⟩, fun kind o found => ?_, fun kind none => ?_⟩⟩
  · subst is
    obtain ⟨f, arm⟩ := exec_arrival clocks mem
    simp only [arm, State.arrive, bad, if_true]
  · subst is
    obtain ⟨f, arm⟩ := exec_arrival clocks mem
    simp only [arm, State.arrive, good, cut, Bool.false_eq_true, if_false, if_true]
  · simp only [exec, execResult]
    rw [State.act_runs arrives.clocks (by simp [kind]), State.arrive_sound arrives]
    simp only [found]
    rw [if_pos here]
  · simp only [exec, execReady]
    rw [State.act_runs arrives.clocks (by exact kind), State.arrive_sound arrives]
    simp only [found, parent, red, and_self, if_true]
  · simp only [exec, execSummary]
    rw [State.act_runs arrives.clocks (by exact kind), State.arrive_sound arrives]
    simp only [found, mine, if_true]
  · simp only [exec, execSummary]
    rw [State.act_runs arrives.clocks (by exact kind), State.arrive_sound arrives]
    simp only [none]
    simp [fresh]
  · simp only [exec, execAbort]
    rw [State.act_runs arrives.clocks (by exact kind), State.arrive_sound arrives]
    simp only [found]
  · simp only [exec, execAbort]
    rw [State.act_runs arrives.clocks (by exact kind), State.arrive_sound arrives]
    simp only [none]

end Sys2Proof.Safety
end

section
/-! PROOF. Exchanges, parameter commands, programs and jobs (O26 to O33). A command that is free, or a packet that arrives sound, runs the
branch that its checks choose. -/
namespace Sys2Proof.Machine
open Sys2Proof.Safety

/-- A packet that arrives sound acts on the state without its cells. -/
theorem State.act_arrive {s : State} {p : Packet} {port : Nat} {f : State → State} {c : Bool} (h : Arrives s p) (kind : c = true) :
    s.act c (s.arrive port p f) = .next (f (s.taken p)) := by
  rw [State.act_runs h.clocks kind, State.arrive_sound h]

/-- A write of a field of the job's entry keeps its handles. -/
theorem Job.handles_put (b : Job) (f : Bits) (v : Nat) : (b.put f v).handles = b.handles := rfl

/-- A write of a job keeps the time. -/
theorem State.now_setJob (s : State) (j : Nat) (b : Job) : (s.setJob j b).now = s.now := rfl

/-- A packet of a row without an uncorrectable word is as sound as it came. -/
theorem packet_bad_or_sound {p : Packet} {u : Upset} (h : (u == .ecc) = false) : ({ p with bad := p.bad || u == .ecc } : Packet) = p := by
  rw [h, Bool.or_false]

end Sys2Proof.Machine

namespace Sys2Proof.Safety
open Sys2Proof.Machine

/-- Settles O26: each clause is one branch of the rows of PERMUTE, for a live operation. -/
theorem permuteExchanges : Obligations.PermuteExchanges := by
  refine ⟨fun s port p o clocks good active found epoch live => ⟨fun kind op known from' => ?_, fun kind why => ?_, fun comes why => ?_,
      fun comes op ready here far => ?_, fun comes op ready here opened within => ?_, fun comes op ready here beyond => ?_⟩,
    fun s port p waits => if_pos waits, fun s job tag p o found live some beyond port => ?_, fun s port p o arrives kind found => ?_⟩
  · simp only [exec, execPermuteCounts]
    rw [State.dataIn_live clocks good active found epoch live kind, if_neg (by obtain h | h := from' <;> simp [op, known, h])]
  · simp only [exec, execPermuteCounts]
    rw [State.dataIn_live clocks good active found epoch live kind, if_pos (by simpa [or_assoc, or_comm, or_left_comm] using why)]; rfl
  · simp only [exec, execPermuteRows]
    rw [if_neg (Bool.eq_false_iff.mp comes.2), State.dataIn_live clocks good active found epoch live comes.1,
      if_pos (by simpa [or_assoc, or_comm, or_left_comm] using why)]; rfl
  · simp only [exec, execPermuteRows]
    rw [if_neg (Bool.eq_false_iff.mp comes.2), State.dataIn_live clocks good active found epoch live comes.1,
      if_neg (by simp [op, ready, here, far]), if_neg (Bool.eq_false_iff.mp here)]; rfl
  · simp only [exec, execPermuteRows]
    rw [if_neg (Bool.eq_false_iff.mp comes.2), State.dataIn_live clocks good active found epoch live comes.1,
      if_neg (by simp [op, ready, here]), if_pos here, State.acceptData_within within]
    rw [if_neg (by rw [show (o.took _ _).unopened = o.unopened from rfl, opened]; decide)]; rfl
  · simp only [exec, execPermuteRows]
    rw [if_neg (Bool.eq_false_iff.mp comes.2), State.dataIn_live clocks good active found epoch live comes.1,
      if_neg (by simp [op, ready, here]), if_pos here, State.acceptData_beyond beyond]
  · simp only [State.countsIn, found]
    rw [if_neg (by simpa [live] using some), if_pos beyond]
  · simp only [exec, execReady2]
    rw [State.act_arrive arrives (by exact kind)]
    simp only [found]

/-- Settles O27: each clause is one branch of the start of NORM, of a message of its passes, or of its deadline. -/
theorem norms : Obligations.Norms := by
  have sound {s : State} (l : List Held) (kept : l.all (fun h => !s.lostGrad h) = true) (u : Upset) (h : (u == .ecc) = false) :
      l.find? (fun h => s.lostGrad h || u == .ecc) = none := by
    simpa [h] using kept
  refine ⟨fun s c x free => ⟨fun ok waits u => ?_, fun ok waits kept => ⟨?_, ?_, ?_⟩, fun u st bad => ?_⟩,
    fun s port p arrives => ⟨fun kind => ⟨?_, fun none => ?_, fun x one => ?_⟩, fun kind stripe nelem => ⟨fun ok => ?_, fun bad => ?_⟩⟩,
    fun s c r d clocks found dl due short => ?_⟩
  · simp only [exec, execNorm, State.issue_free free, ok, waits, if_true]
  · simp only [exec, execNorm, State.issue_free free, ok, waits, sound _ kept .clean (by decide)]; rfl
  · simp only [exec, execNorm, State.issue_free free, ok, waits, sound _ kept .residue (by decide)]; rfl
  · simp only [exec, execNorm, State.issue_free free, ok, waits, sound _ kept .readout (by decide)]; rfl
  · simp only [exec, execNorm, State.issue_free free, bad]
  · simp only [exec, execNormMax]
    rw [packet_bad_or_sound (by decide), State.act_arrive arrives (by exact kind), if_neg (by simp)]
  · simp only [exec, execNormMax]
    rw [packet_bad_or_sound (by decide), State.act_arrive arrives (by exact kind), none, if_neg (by decide)]
  · simp only [exec, execNormMax]
    rw [packet_bad_or_sound (by decide), State.act_arrive arrives (by exact kind), one, if_pos (by simp)]; rfl
  · simp only [exec, execNormSum]
    rw [packet_bad_or_sound (by decide), State.act_arrive arrives (by exact kind), if_neg (by simp [stripe, nelem]), if_neg (by simp [ok])]
  · simp only [exec, execNormSum]
    rw [packet_bad_or_sound (by decide), State.act_arrive arrives (by exact kind), if_neg (by simp [stripe, nelem]), if_pos (by simp [bad])]
  · simp only [exec, execNormDeadline, found, dl]
    rw [State.act_runs clocks (by simpa [due] using short)]

/-- Settles O28: both rows run a STEP in one way, by its checks, its flags and what it lacks; STATS keeps what comes. -/
theorem steps : Obligations.Steps := by
  refine ⟨fun s c x i fault n clocks ctx op turn => ?_, fun s port p arrives kind => ⟨fun rows => ?_, fun rows ok => ?_, fun rows bad => ?_⟩⟩
  · have run : exec i s = .next (s.stepGo x fault) := by
      obtain ⟨rfl, free, idle⟩ | ⟨rfl, run⟩ := turn
      · simp only [exec, execStep, State.issue_free ⟨clocks, ctx, free, op⟩]
        rw [idle, if_neg (by decide)]
      · simp only [exec, execStepStart, ctx]
        exact State.act_runs clocks (by simp [run, op])
    rw [run]
    have other (clean : n.flags &&& 0x1F = 0 ∨ x.p 192 2 = 1) (k : Nat) (hk : k ≠ 1) : ¬(n.flags &&& 0x1F ≠ 0 ∧ x.p 192 2 = k) :=
      fun h => clean.elim h.1 (fun one => hk (h.2.symm.trans one))
    refine ⟨fun st bad => ?_, fun ok norm => ⟨fun lacks => ?_, fun flags policy ready => ?_, fun flags policy ready => ?_, fun clean ready =>
      ⟨fun lacks => ?_, fun has => ?_⟩⟩⟩
    · simp only [State.stepGo, bad]
    · simp only [State.stepGo, ok, norm, lacks]; rfl
    · simp only [State.stepGo, ok, norm, ready]
      rw [if_neg (by decide), if_pos ⟨flags, policy⟩]
    · simp only [State.stepGo, ok, norm, ready]
      rw [if_neg (by decide), if_neg (by simp [policy]), if_pos ⟨flags, policy⟩]
    · simp only [State.stepGo, ok, norm, ready]
      rw [if_neg (by decide), if_neg (other clean 2 (by decide)), if_neg (other clean 0 (by decide)), if_pos lacks]
    · simp only [State.stepGo, ok, norm, ready]
      rw [if_neg (by decide), if_neg (other clean 2 (by decide)), if_neg (other clean 0 (by decide)), if_neg (Bool.eq_false_iff.mp has)]
  · simp only [exec, execStats]
    rw [State.act_arrive arrives (by exact kind), if_pos rows]
  · simp only [exec, execStats]
    rw [State.act_arrive arrives (by exact kind), if_neg rows, if_neg (by simp [ok])]
  · simp only [exec, execStats]
    rw [State.act_arrive arrives (by exact kind), if_neg rows, if_pos (by simp [bad])]

/-- Settles O29: each clause is one branch of PUBLISH or of what its peers send. -/
theorem publishing : Obligations.Publishing := by
  refine ⟨fun s c x free => ⟨fun seed => ?_, fun seed bad => ?_, fun seed good turn => ?_⟩, fun s c x clocks ctx run op fresh idle => ?_,
    fun s c x clocks ctx run op begun => ?_, fun s port p arrives => ⟨fun kind => ?_, fun kind => ⟨fun r rec own low high => ?_, fun none => ?_⟩⟩⟩
  · simp only [exec, execPublish, State.issue_free free, seed, if_true]
  · simp only [exec, execPublish, State.issue_free free, seed]
    rw [if_neg (by decide), if_pos bad]
  · simp only [exec, execPublish, State.issue_free free, seed]
    rw [if_neg (by decide), if_neg good, if_neg (by obtain h | h := turn <;> simp only [h] <;> simp)]
  · simp only [exec, execPublishStart, ctx]
    rw [State.act_runs clocks (by simp [run, op]), fresh, idle]; rfl
  · simp only [exec, execPublishStart, ctx]
    rw [State.act_runs clocks (by simp [run, op]), begun]; rfl
  · simp only [exec, execPubMax]
    rw [State.act_arrive arrives (by exact kind)]
  · simp only [exec, execBlock]
    rw [State.act_arrive arrives (by exact kind)]
    simp only [rec, own, low, high, and_self, decide_true, Bool.not_false, Bool.and_self, if_true]
  · simp only [exec, execBlock]
    rw [State.act_arrive arrives (by exact kind)]
    simp only [none]; rfl

/-- Settles O30: each clause is one branch of PARK, of its data, or of FETCH. -/
theorem coldFrames : Obligations.ColdFrames := by
  refine ⟨fun s c x n k free there => ⟨fun bad => ?_, fun good used => ?_, fun good new waits => ?_, fun good new still =>
      ⟨fun room => ?_, fun full => ?_⟩⟩,
    fun s port p h x arrives kind found ctx => ?_,
    fun s c x free there => ⟨fun bad => ?_, fun good held => ?_, fun good loose none => ?_, fun good loose h found =>
      ⟨fun beyond => ?_, fun low high waits => ?_, fun low high still => ⟨fun lost => ?_, fun kept plain => ?_⟩⟩⟩⟩
  · rw [show exec (.park c) s = execPark c s from rfl, execPark, State.issue_free free, if_neg (by simp [there]),
      if_pos bad]
  · rw [show exec (.park c) s = execPark c s from rfl, execPark, State.issue_free free, if_neg (by simp [there]),
      if_neg good, if_pos used]
  · rw [show exec (.park c) s = execPark c s from rfl, execPark, State.issue_free free, if_neg (by simp [there]),
      if_neg good, new, if_neg (by decide), if_pos waits]
  · rw [show exec (.park c) s = execPark c s from rfl, execPark, State.issue_free free, if_neg (by simp [there]),
      if_neg good, new, if_neg (by decide), if_neg (Bool.eq_false_iff.mp still), room]
    dsimp only [Job.handles_put, State.now_setJob]
  · rw [show exec (.park c) s = execPark c s from rfl, execPark, State.issue_free free, if_neg (by simp [there]),
      if_neg good, new, if_neg (by decide), if_neg (Bool.eq_false_iff.mp still), full]
  · simp only [exec, execParkData]
    rw [State.act_arrive arrives (by exact kind)]
    simp only [found, ctx]
  · simp only [exec, execFetch, State.issue_free free, there]
    rw [if_neg (by decide), if_pos bad]
  · simp only [exec, execFetch, State.issue_free free, there]
    rw [if_neg (by decide), if_neg good, if_pos (by simpa using held)]
  · simp only [exec, execFetch, State.issue_free free, there]
    rw [if_neg (by decide), if_neg good, if_neg (by simpa using loose)]
    simp only [none]
  · simp only [exec, execFetch, State.issue_free free, there]
    rw [if_neg (by decide), if_neg good, if_neg (by simpa using loose)]
    simp only [found]
    rw [if_pos beyond]
  · simp only [exec, execFetch, State.issue_free free, there]
    rw [if_neg (by decide), if_neg good, if_neg (by simpa using loose)]
    simp only [found]
    rw [if_neg (by omega), if_pos waits]
  · simp only [exec, execFetch, State.issue_free free, there]
    rw [if_neg (by decide), if_neg good, if_neg (by simpa using loose)]
    simp only [found]
    rw [if_neg (by omega), if_neg (Bool.eq_false_iff.mp still), if_pos lost]
  · simp only [exec, execFetch, State.issue_free free, there]
    rw [if_neg (by decide), if_neg good, if_neg (by simpa using loose)]
    simp only [found]
    rw [if_neg (by omega), if_neg (Bool.eq_false_iff.mp still), if_neg (Bool.eq_false_iff.mp kept)]
    simp only [plain]; rfl

/-- Settles O31: each clause is one branch of CHECKPOINT, of RESTORE, or of the data of an image. -/
theorem images : Obligations.Images := by
  refine ⟨fun s c x free there scope idle => ⟨fun drain => ?_, fun cut => ?_⟩, fun s c x clocks ctx run op => ⟨?_, fun host down => ?_⟩,
    fun s c x img free there scope idle => ⟨fun host down => ?_, fun host up => ⟨fun b => ?_, ?_⟩, fun part none => ?_, fun part some => ?_⟩,
    fun s port p r x arrives kind found ctx => ⟨fun all => ?_, fun more => ?_⟩⟩
  · simp only [exec, execCheckpoint, State.issue_free free, there, idle]
    rw [if_neg (by decide), if_neg scope, if_neg (by decide), if_neg (by simp [drain])]
  · simp only [exec, execCheckpoint, State.issue_free free, there, idle]
    rw [if_neg (by decide), if_neg scope, if_neg (by decide), if_pos cut]
  · simp only [exec, execCheckpointStart, ctx]
    rw [State.act_runs clocks (by simp [run, op])]
  · simp only [exec, execCheckpointStart, ctx]
    rw [State.act_runs clocks (by simp [run, op]), State.checkpointGo, if_pos (by simp [host, down])]
  · simp only [exec, execRestore, State.issue_free free, there, idle]
    rw [if_neg (by decide), if_neg scope, if_neg (by decide), if_neg (by simp [host]), down]; rfl
  · simp only [exec, execRestore, State.issue_free free, there, idle]
    rw [if_neg (by decide), if_neg scope, if_neg (by decide), if_neg (by simp [host]), up]; rfl
  · simp only [exec, execRestore, State.issue_free free, there, idle]
    rw [if_neg (by decide), if_neg scope, if_neg (by decide), if_neg (by simp [host]), up]; rfl
  · simp only [exec, execRestore, State.issue_free free, there, idle]
    rw [if_neg (by decide), if_neg scope, if_neg (by decide), if_pos part, if_pos none]
  · simp only [exec, execRestore, State.issue_free free, there, idle]
    rw [if_neg (by decide), if_neg scope, if_neg (by decide), if_pos part, if_neg some]; rfl
  · simp only [exec, execImageData]
    rw [State.act_arrive arrives (by exact kind)]
    simp only [found, ctx]
    rw [if_pos all]
  · simp only [exec, execImageData]
    rw [State.act_arrive arrives (by exact kind)]
    simp only [found]
    rw [if_neg (Nat.not_le.mpr more)]

/-- Settles O32: each clause is one branch of the rows of a SIEVE_RUN, or of HALT in a library program. -/
theorem programs : Obligations.Programs := by
  refine ⟨fun s c x free => ⟨fun b down => ?_, fun up => ⟨?_, fun b => ⟨fun ok => ?_, fun st bad => ?_⟩⟩⟩,
    fun s c x r text bufs clocks ctx req queued idle first => ⟨fun det short => ?_, fun enough up ready => ?_⟩,
    fun s p d clocks prog dl due runs => ?_, fun s p o clocks prog lib tile tid up => ⟨fun upset => ?_, fun clean kept => ?_⟩⟩
  · simp only [exec, execSieveRun, State.issue_free free, down]; rfl
  · simp only [exec, execSieveRun, State.issue_free free, up]; rfl
  · simp only [exec, execSieveRun, State.issue_free free, up]
    simp [ok]
  · simp only [exec, execSieveRun, State.issue_free free, up]
    simp [bad]
  · simp only [exec, execProgramStart, ctx, req]
    rw [State.act_runs clocks (by simp [queued, idle, first, det, short]), if_pos (by simp [det, short])]
  · have long : (x.p 137 1 == 0 && decide (s.bedsActive.length < 128)) = false := by
      obtain h | ⟨h, all, _⟩ := enough
      · simp [h]
      · simp [h, all]
    have beds : (!(x.p 137 1 == 0) || decide (128 ≤ s.bedsIn.length)) = true := by
      obtain h | ⟨_, _, h⟩ := enough
      · simp [h]
      · simp [h]
    simp only [exec, execProgramStart, ctx, req]
    rw [State.act_runs clocks (by simp only [queued, idle, first, long, beds, up, ready]; rfl), long, if_neg (by decide)]
  · simp only [exec, execProgramDeadline, prog, dl]
    rw [State.act_runs clocks (by simpa [due] using runs)]
  all_goals
    have mine : s.vy.any (fun p => p.lib != 0) = true := by simp [prog, lib]
    have go : (decide (o.tile < p.ntiles) && decide (o.tid < p.threads)
        && (s.linkUp (s.ringCard p.ring) || !p.bufs.any (fun b => b.kind == 0 && b.writable))) = true := by
      simp only [tile, tid, decide_true, Bool.true_and]
      obtain h | h := up <;> simp [h]
    simp only [exec, execHalt]
    rw [if_pos mine, State.libraryHalt]
    simp only [prog]
    rw [State.act_runs clocks go]
  · rw [if_pos (by simpa using upset)]
  · rw [if_neg (by simp [clean]), kept]

/-- Settles O33: each clause is one branch of the rows of a job, or of LAYOUT_COMMIT. -/
theorem jobsAndLayouts : Obligations.JobsAndLayouts := by
  refine ⟨⟨fun s m j clocks known owns => ⟨fun out => ?_, fun serves idle => ⟨fun fits apart => ?_, fun beyond => ?_⟩, fun active => ?_,
      fun refused => ?_, fun serves ending => ?_⟩, fun s j clocks ending none => ?_⟩,
    fun s m value clocks => ⟨fun ok => ?_, fun c bad other => ?_, fun stranger => ?_⟩⟩
  · simp only [exec, execJobEnable, State.act_runs clocks (decide_eq_true known), owns, out]; rfl
  · simp only [exec, execJobEnable, State.act_runs clocks (decide_eq_true known), owns, serves]
    obtain h | h := idle <;> simp [h, Nat.not_lt.mpr fits, apart, jobFree, jobRefused, jobActive, jobEnding]
  · simp only [exec, execJobEnable, State.act_runs clocks (decide_eq_true known), owns, serves]
    obtain h | h := idle <;> simp [h, beyond, jobFree, jobRefused, jobActive, jobEnding]
  · simp only [exec, execJobDisable, State.act_runs clocks (decide_eq_true known), owns, active]; rfl
  · simp only [exec, execJobDisable, State.act_runs clocks (decide_eq_true known), owns, refused]; rfl
  · simp only [exec, execJobEnable, State.act_runs clocks (decide_eq_true known), owns, serves, ending]; rfl
  · simp only [exec, execJobEndComplete]
    rw [State.act_runs clocks (by simp [ending, none])]
    rfl
  · simp only [exec, execLayoutCommit, State.act_runs clocks rfl, ok]
  · simp only [exec, execLayoutCommit, State.act_runs clocks rfl, bad]
    rw [if_neg other]; rfl
  · simp only [exec, execLayoutCommit, State.act_runs clocks rfl]
    simp only [State.commitCheck, stranger]; rfl

end Sys2Proof.Safety
end

section
/-! PROOF. Resets, stops, bring-up and the counter (O34 to O37): each row has its condition, and its branches its hypotheses. -/
namespace Sys2Proof.Machine
open Sys2Proof.Safety

/-- Every main rail has a nominal voltage above 0. -/
theorem railNominal_pos {rail : Nat} (h : rail < 9) : 0 < railNominal.getD rail 0 := by
  have all : ∀ r < 9, 0 < railNominal.getD r 0 := by decide
  exact all rail h

/-- An entry of the trouble log keeps the state of the time. -/
theorem State.time_logEvent (s : State) (a b c d e : Nat) (u : Option Nat) : (s.logEvent a b c d e u).time = s.time := by
  simp only [State.logEvent, apply_ite State.time, State.fset_time, ite_self]

/-- A step of the counter notes itself alone in the state of the time. -/
theorem State.time_stepped (s : State) : s.stepped.time = { s.time with stepNow := true } := State.time_logEvent ..

/-- The state after the sample of an answer to the exchange sent at t1 (R371 to R375). -/
def State.sampled (s : State) (t1 : Nat) (flit : Bytes) : State :=
  let asym : Int := bsgn F.timeAsym_value (s.rget (Reg.timeAsym (s.fget Reg.timeCtrl F.timeCtrl_upport)))
  let t2 : Int := timeField flit 90 67
  let t3 : Int := timeField flit 157 67
  let t4 : Int := s.stamp
  ({ s.bump with time := { s.time with answered := true, missed := 0 } } : State).takeSample
    ((t2 - t1) - (t4 - t3) - asym) ((t4 - t1) - (t3 - t2))

/-- An answer of a part that is ready gives a sample. -/
theorem exec_timeReply_ready {s : State} {port t1 : Nat} {flit : Bytes} (clocks : s.clocked = true) (ex : s.time.exchange = some t1)
    (role : s.role = 2) (up : s.upLinks.contains port = true) (fresh : s.time.answered = false) (kind : timeField flit 0 1 = 1)
    (stamp : timeField flit 23 67 = t1 % 2 ^ 67) (ready : timeField flit 1 1 = 0) (near : timeField flit 2 5 ≠ 31) :
    exec (.timeReply port flit) s = .next (if (s.sampled t1 flit).timeState = tsLocked
      then (s.sampled t1 flit).showHops (timeField flit 2 5) (timeField flit 7 16) else s.sampled t1 flit) := by
  simp only [exec, execTimeReply, ex]
  rw [State.act_runs clocks (by simp only [role, up, fresh, kind, stamp]; simp), if_neg (by simp [ready, near])]
  simp only [State.sampled, ex]

end Sys2Proof.Machine

namespace Sys2Proof.Safety
open Sys2Proof.Machine

/-- Settles O34: each clause is one branch of a row of the resets or of standby power. -/
theorem resets : Obligations.Resets := by
  refine ⟨fun s => rfl, fun s low standby => ⟨?_, ?_⟩, fun s m value clocks key => ⟨fun own => ?_, fun pair other => ?_⟩,
    fun s m value key => ?_, fun s => rfl, fun s => rfl⟩
  · simp only [exec, execPorRelease, low, standby]; rfl
  · simp only [exec, execPorRelease, low]; rfl
  · simp only [exec, execPartReset]
    rw [State.act_runs clocks (by simp [key]), if_neg]
    obtain h | h := own <;> simp [h]
  · simp only [exec, execPartReset]
    rw [State.act_runs clocks (by simp [key]), if_pos (by simp [pair, other])]
  · exact State.act_stays (by simp [key])

/-- Settles O35: each clause is one branch of the rows that stop the package. -/
theorem stops : Obligations.Stops := by
  have notLow {s : State} (up : s.shedUp = true) : s.pwr.porLow = false := by
    simp only [State.shedUp, Bool.and_eq_true, Bool.not_eq_true'] at up; exact up.1
  refine ⟨fun s clocks => ⟨?_, ?_⟩, fun s sensor => ⟨fun cool low => ?_, fun cool low high => ?_, fun hot => ?_⟩,
    fun s rail mv main => ⟨fun por rest => ?_, fun up pos low => ?_, fun up => ?_, fun up high => ?_⟩⟩
  · simp only [exec, execClockFailure, State.act_runs clocks rfl]; rfl
  · simp only [exec, execClockFailure, State.act_runs clocks rfl]; rfl
  · simp only [exec, execThermalTrip, cool, low]; rfl
  · simp only [exec, execThermalTrip, cool]
    rw [if_pos (by simp [low, high]), if_neg (by omega)]
  · simp only [exec, execThermalTrip, hot]; rfl
  · simp only [exec, execRailCollapse, main, decide_true, beq_self_eq_true, Bool.and_self, if_true, por, List.length_cons, rest]
  · have zero : (mv == 0) = false := beq_eq_false_iff_ne.mpr (Nat.ne_of_gt pos)
    simp only [exec, execRailCollapse, zero, Bool.and_false, Bool.false_eq_true, if_false]
    rw [if_neg (by simp [notLow up]), if_pos (by simp only [main, up, low, decide_true, Bool.and_self])]
  · have low : 10 * 0 < 9 * railNominal.getD rail 0 := by have := railNominal_pos main; omega
    simp only [exec, execRailCollapse, main, decide_true, beq_self_eq_true, Bool.and_self, if_true]
    exact congrArg _ ((if_neg (by simp [notLow up])).trans
      (if_pos (Bool.and_eq_true_iff.mpr ⟨Bool.and_eq_true_iff.mpr ⟨up, decide_eq_true low⟩, rfl⟩)))
  · have zero : (mv == 0) = false := by have := railNominal_pos main; exact beq_eq_false_iff_ne.mpr (by omega)
    simp only [exec, execRailCollapse, zero, Bool.and_false, Bool.false_eq_true, if_false]
    rw [if_neg (by simp [notLow up]), if_neg (by simp only [Nat.not_lt.mpr high, decide_false, Bool.and_false, Bool.false_and]; decide)]

/-- Settles O36: each clause is one branch of a row of the bring-up, of TICK, or of a step of the counter. -/
theorem bringUp : Obligations.BringUp := by
  refine ⟨fun s clocks => ?_, fun s clocks want role st quiet rel => ?_, fun s up fresh => ?_, fun s clocks rom => ⟨fun valid => ?_, fun bad => ?_⟩,
    fun s clocks wiped => ?_, fun s clocks seed init store full => ?_, fun s m clocks fresh => ?_, fun s m clocks => ⟨fun life => ?_, fun life => ?_⟩⟩
  · simp only [exec, execTick, State.act_runs clocks rfl]
  · obtain ⟨o, want⟩ := Option.isSome_iff_exists.mp want
    simp only [exec, execCounterStep, want]
    rw [State.act_runs clocks (by simp [role, st, quiet, rel])]
    exact ⟨_, rfl, congrArg TimeSt.stepWant (State.time_stepped _), congrArg TimeSt.stepNow (State.time_stepped _)⟩
  · simp only [exec, execRootPllLock, up, fresh]; rfl
  · simp only [exec, execFirmwareBoot]
    rw [State.act_runs clocks (by simp [rom]), if_pos valid]
  · simp only [exec, execFirmwareBoot]
    rw [State.act_runs clocks (by simp [rom]), if_neg (Bool.eq_false_iff.mp bad)]
  · simp only [exec, execWipeComplete]
    rw [State.act_runs clocks (by simp [wiped])]
  · simp only [exec, execSeedlingExit]
    rw [State.act_runs clocks (by simp only [seed, init, store, full, Bool.and_self])]
  · simp only [exec, execInitDone]
    rw [State.act_runs clocks (by simp only [fresh, Bool.not_false])]
  · simp only [exec, execExpertGateClose, State.act_runs clocks rfl]
    simp [State.closeGate, life]
  · simp only [exec, execExpertGateClose, State.act_runs clocks rfl]
    simp [State.closeGate, life]

/-- Settles O37: each clause is one branch of a row of the counter or of a time exchange. -/
theorem counterAndTime : Obligations.CounterAndTime := by
  refine ⟨fun s m half value clocks owns => ⟨fun role quiet rel => ?_, fun role quiet rel => ?_, fun why => ?_⟩,
    fun s value => ⟨rfl, rfl, rfl⟩, fun s m value clocks owns => ⟨fun pair one => ?_, fun own => ?_⟩,
    fun s o clocks want role st quiet => ⟨fun rel => ?_, fun rel => ?_⟩, fun s clocks => ?_,
    fun s clocks role => ⟨fun due => ⟨fun l found => ?_, fun none => ?_⟩, fun early => ?_⟩,
    fun s port flit clocks known op kind => ?_,
    fun s port t1 flit clocks ex role up fresh kind stamp => ⟨fun why => ?_, fun ready near => ⟨fun locked => ?_, fun loose => ?_⟩⟩⟩
  · simp only [exec, execGcLoad, State.act_runs clocks rfl, owns]
    simp [State.mayLoad, role, quiet, rel, State.loadNow]
  · simp only [exec, execGcLoad, State.act_runs clocks rfl, owns]
    simp [State.mayLoad, role, quiet, rel]
  · simp only [exec, execGcLoad, State.act_runs clocks rfl, owns]
    obtain h | h := why <;> simp [State.mayLoad, h, State.loadRefused]
  · simp only [exec, execTimeCtrl, State.act_runs clocks rfl, owns, pair, one]; rfl
  · simp only [exec, execTimeCtrl, State.act_runs clocks rfl, owns]
    rw [if_neg (by simp), if_neg]
    obtain h | h := own <;> simp [h]
  · simp only [exec, execCounterStep, want]
    rw [State.act_runs clocks (by simp [role, st, quiet, rel])]
  · simp only [exec, execCounterStep, want]
    exact State.act_stays (by simp [rel])
  · simp only [exec, execTick, State.act_runs clocks rfl]; rfl
  · simp only [exec, execTimeExchange]
    rw [State.act_runs clocks (by simp [role, due])]
    simp only [found]
  · simp only [exec, execTimeExchange]
    rw [State.act_runs clocks (by simp [role, due])]
    simp only [none]
  · simp only [exec, execTimeExchange]
    exact State.act_stays (by simp [early])
  · simp only [exec, execTimeRequest]
    rw [State.act_runs clocks (by simp [known, op, kind])]
  · simp only [exec, execTimeReply, ex]
    rw [State.act_runs clocks (by simp only [role, up, fresh, kind, stamp]; simp), if_pos why]
  · rw [exec_timeReply_ready clocks ex role up fresh kind stamp ready near]
    exact congrArg _ (if_pos locked)
  · rw [exec_timeReply_ready clocks ex role up fresh kind stamp ready near]
    exact congrArg _ (if_neg loose)

end Sys2Proof.Safety
end

section
/-! PROOF. Resources and ports (O38, O39): TICK_OUT, the debug clock, mirror sessions, telemetry, and ports under their owner. -/
namespace Sys2Proof.Machine
open Sys2Proof.Safety

/-- Where no die has a free buffer of its pool, what asks for one waits for it (R551). -/
theorem State.askBuffer_full {s : State} {n pool : Nat} {u : PoolUse} {go} (size : poolFor n = some pool)
    (full : (List.range 4).all (fun d => s.poolFree d pool == 0) = true) :
    s.askBuffer n u go = s.bump.poolQueue (s.diesFrom.headD 0) pool u := by
  simp only [State.askBuffer, size, full, if_true]

/-- Whether the exchange is answered, and how many were missed. -/
def TimeSt.replied (t : TimeSt) : Bool × Nat := (t.answered, t.missed)

/-- A change of the state of the time does not answer an exchange. -/
theorem State.replied_toTime (s : State) (st : Nat) : (s.toTime st).time.replied = s.time.replied := by
  simp only [State.toTime, apply_ite State.time, State.time_logEvent, State.fset_time]
  split <;> split <;> rfl

/-- A return to ACQUIRE does not answer an exchange. -/
theorem State.replied_acquire (s : State) : s.acquire.time.replied = s.time.replied := State.replied_toTime s _

/-- A sample does not answer an exchange. -/
theorem State.replied_takeSample (s : State) (offset delay : Int) : (s.takeSample offset delay).time.replied = s.time.replied := by
  have added : (s.addSample offset delay).time.replied = s.time.replied := rfl
  have locked (t : State) : (t.lockedSample offset).time.replied = t.time.replied := by
    simp only [State.lockedSample, apply_ite State.time, apply_ite TimeSt.replied, State.replied_acquire, State.time_logEvent, State.fset_time]
    simp only [TimeSt.replied, ite_self]
  have acquired (t : State) : (t.acquireSample offset).time.replied = t.time.replied := by
    simp only [State.acquireSample, apply_ite State.time, apply_ite TimeSt.replied, State.replied_toTime, State.fset_time]
    simp only [TimeSt.replied, ite_self]
  rw [State.takeSample, ← added]
  simp only [apply_ite State.time, apply_ite TimeSt.replied, State.replied_toTime, State.replied_acquire, locked, acquired, ite_self]

end Sys2Proof.Machine

namespace Sys2Proof.Safety
open Sys2Proof.Machine

/-- Settles O38: each row takes, holds or gives back the entries of the resource-owner table that its branch names. -/
theorem resources : Obligations.Resources := by
  refine ⟨fun s m value clocks own => ⟨fun on can => ?_, fun on held => ?_, fun off => ?_⟩,
    fun s m value clocks => ⟨fun shut => ?_, fun gate on can => ?_, fun gate on held => ?_, fun gate off => ?_⟩,
    fun s m n value clocks known own => ⟨fun on => ?_, fun off can => ?_, fun off held => ?_, ?_, fun fits => ?_, fun far => ?_⟩,
    fun s m value clocks own => ⟨fun off => ?_, fun on already => ?_, fun on fresh can => ?_, fun on fresh held => ?_⟩,
    fun s t rest clocks done => ⟨fun free => ?_, fun full => ?_⟩,
    fun s die pool w clocks waits => ⟨fun small => ?_, fun fits => ⟨fun seq map use => ?_, fun addr record use => ?_, fun p unit use => ?_⟩⟩⟩
  · simp only [exec, execTickOutEnable, State.act_runs clocks rfl, own, on, Bool.not_true, Bool.false_eq_true, if_false, if_true]
    rw [if_pos can]
  · simp only [exec, execTickOutEnable, State.act_runs clocks rfl, own, on, Bool.not_true, Bool.false_eq_true, if_false, if_true]
    rw [if_neg (Bool.eq_false_iff.mp held)]
  · simp only [exec, execTickOutEnable, State.act_runs clocks rfl, own, off, Bool.not_true, Bool.false_eq_true, if_false]
  · simp only [exec, execDebugClockEnable, State.act_runs clocks rfl, shut, Bool.not_false, if_true]
  · simp only [exec, execDebugClockEnable, State.act_runs clocks rfl, gate, on, Bool.not_true, Bool.false_eq_true, if_false, if_true]
    rw [if_pos can]
  · simp only [exec, execDebugClockEnable, State.act_runs clocks rfl, gate, on, Bool.not_true, Bool.false_eq_true, if_false, if_true]
    rw [if_neg (Bool.eq_false_iff.mp held)]
  · simp only [exec, execDebugClockEnable, State.act_runs clocks rfl, gate, off, Bool.not_true, Bool.false_eq_true, if_false]
  · simp only [exec, execMirrorEnable, State.act_runs clocks (decide_eq_true known), own, on, Bool.not_true, Bool.false_eq_true, if_false, if_true]
  · simp only [exec, execMirrorEnable, State.act_runs clocks (decide_eq_true known), own, off, Bool.not_true, Bool.false_eq_true, if_false]
    rw [if_pos can]
  · simp only [exec, execMirrorEnable, State.act_runs clocks (decide_eq_true known), own, off, Bool.not_true, Bool.false_eq_true, if_false]
    rw [if_neg (Bool.eq_false_iff.mp held)]
  · simp only [exec, execMirrorDisable, State.act_runs clocks (decide_eq_true known), own, Bool.not_true, Bool.false_eq_true, if_false]
  · simp only [exec, execMirHead, State.act_runs clocks (decide_eq_true known), own, Bool.not_true, Bool.false_eq_true, if_false]
    rw [if_neg (Nat.not_lt.mpr fits)]
  · simp only [exec, execMirHead, State.act_runs clocks (decide_eq_true known), own, Bool.not_true, Bool.false_eq_true, if_false]
    rw [if_pos far]
  · simp only [exec, execTelemetryEnable, State.act_runs clocks rfl, own, off, Bool.not_true, Bool.not_false, Bool.false_eq_true, if_false, if_true]
  · simp only [exec, execTelemetryEnable, State.act_runs clocks rfl, own, on, already, Bool.not_true, Bool.false_eq_true, if_false, if_true]
  · simp only [exec, execTelemetryEnable, State.act_runs clocks rfl, own, on, fresh, Bool.not_true, Bool.false_eq_true, if_false]
    rw [if_pos can]
  · simp only [exec, execTelemetryEnable, State.act_runs clocks rfl, own, on, fresh, Bool.not_true, Bool.false_eq_true, if_false]
    rw [if_neg (Bool.eq_false_iff.mp held)]
  · obtain ⟨die, known, some⟩ := List.all_eq_false.mp free
    simp only [exec, execTelemetryInterval, done, State.act_runs clocks rfl]
    exact congrArg _ (State.askBuffer_free (pool := 4) (by decide) (List.mem_range.mp known) (show s.poolFree die 4 ≠ 0 by simpa using some))
  · simp only [exec, execTelemetryInterval, done, State.act_runs clocks rfl]
    exact congrArg _ (State.askBuffer_full (pool := 4) (by decide) full)
  · simp only [exec, execPoolWaitGrant, waits]
    exact State.act_stays (by simp [small])
  · simp only [exec, execPoolWaitGrant, waits]
    rw [State.act_runs clocks (decide_eq_true fits), use, State.serve]
  · simp only [exec, execPoolWaitGrant, waits]
    rw [State.act_runs clocks (decide_eq_true fits), use, State.serve]
  · simp only [exec, execPoolWaitGrant, waits]
    rw [State.act_runs clocks (decide_eq_true fits), use, State.serve]

/-- Settles O39: each clause is one branch of a row of a port's owner, or of what an open link carries. -/
theorem portControl : Obligations.PortControl := by
  refine ⟨fun s p flit clocks known op => ⟨fun role due => ?_, fun kind => ?_, fun t1 ex role up fresh kind stamp ready near => ?_, fun due => ?_,
      fun ex => ⟨?_, fun lane fec => ?_⟩⟩,
    fun s m p clocks known own => ⟨fun ok off => ⟨fun may => ?_, fun c why => ?_⟩, fun off => ?_, fun on => ?_, fun active => ?_,
      fun active rate => ?_⟩⟩
  · simp only [exec, execTimeExchange]
    rw [State.act_runs clocks (by simp [role, due])]
    refine ⟨_, rfl, ?_, ?_⟩
    · cases List.find? _ _ <;> rfl
    · cases List.find? _ _ <;> rfl
  · simp only [exec, execTimeRequest]
    rw [State.act_runs clocks (by simp [known, op, kind])]
    refine ⟨_, rfl, ?_⟩
    change ((State.queueTime s p _).link p).timeOut ≠ []
    simp [State.queueTime]
  · have replied := State.replied_takeSample ({ s.bump with time := { s.time with answered := true, missed := 0 } } : State)
    refine ⟨_, exec_timeReply_ready clocks ex role up fresh kind stamp ready near, ?_⟩
    have kept : (s.sampled t1 flit).time.replied = (true, 0) := replied _ _
    simp only [apply_ite State.time, State.showHops, State.fset_time, ite_self]
    exact Prod.mk.injEq .. ▸ kept
  · simp only [exec, execAckTimer]
    rw [State.act_runs clocks (by simp [show p ≤ tapLink by simp [tapLink]; omega, op, due])]
    exact ⟨_, rfl, by simp⟩
  · simp only [exec, execFlitSlot]
    exact State.act_runs clocks (by simp [show p ≤ tapLink by simp [tapLink]; omega, ex])
  · simp only [exec, execCellFlit]
    exact State.act_runs clocks (by simp [show p ≤ tapLink by simp [tapLink]; omega, ex])
  · simp only [exec, execPortEnable, State.act_runs clocks (decide_eq_true known), own, ok, off, may, Bool.not_true, Bool.or_false,
      Bool.false_eq_true, if_false]; rfl
  · simp only [exec, execPortEnable, State.act_runs clocks (decide_eq_true known), own, ok, off, why, Bool.not_true, Bool.or_false,
      Bool.false_eq_true, if_false]
  · simp only [exec, execPortDisable, State.act_runs clocks (decide_eq_true known), own, off, Bool.not_true, Bool.not_false, Bool.false_eq_true,
      if_false, if_true]
  · simp only [exec, execPortDisable, State.act_runs clocks (decide_eq_true known), own, on, Bool.not_true, Bool.false_eq_true, if_false]
  · simp only [exec, execPortRetrain, State.act_runs clocks (decide_eq_true known), own, active, Bool.not_true, Bool.false_eq_true, if_false, if_true]
  · simp only [exec, execFarRetrain]
    rw [State.act_runs clocks (by simp [known, active]), rate, Bool.false_and]; rfl

end Sys2Proof.Safety
end

section
/-! PROOF. Stages and recovery of ports, and Taproot (O40, O41). -/
namespace Sys2Proof.Machine
open Sys2Proof.Safety

/-- The lanes of a port that run no test, each with what was found on it (R476). -/
def foundLanes (l lanes : List Nat) (free : Nat → Bool) : List (Nat × Nat) :=
  ((List.range l.length).map (fun i => (l.getD i 0, laneFound lanes i))).filter (fun x => free x.1)

/-- Where no lane runs a test and all were found good, each lane is among the good ones. -/
theorem foundLanes_all_good {l lanes : List Nat} {free : Nat → Bool} (len : (foundLanes l lanes free).length = l.length)
    (good : (foundLanes l lanes free).all (fun x => x.2 == 1) = true) :
    l.filter (fun x => (foundLanes l lanes free).any (fun y => y.1 == x && y.2 == 1)) = l := by
  have whole : foundLanes l lanes free = (List.range l.length).map (fun i => (l.getD i 0, laneFound lanes i)) :=
    List.filter_eq_self.mpr (List.length_filter_eq_length_iff.mp (len.trans (by simp)))
  refine List.filter_eq_self.mpr fun x mem => ?_
  obtain ⟨i, hi, rfl⟩ := List.getElem_of_mem mem
  have pair : (l[i], laneFound lanes i) ∈ foundLanes l lanes free :=
    whole ▸ List.mem_map.mpr ⟨i, List.mem_range.mpr hi, by rw [List.getD_eq_getElem?_getD, List.getElem?_eq_getElem hi, Option.getD_some]⟩
  exact List.any_eq_true.mpr ⟨_, pair, by simpa using List.all_eq_true.mp good _ pair⟩

/-- Some lane is good where all are and there is one. -/
theorem foundLanes_any {l lanes : List Nat} {free : Nat → Bool} (len : (foundLanes l lanes free).length = l.length)
    (good : (foundLanes l lanes free).all (fun x => x.2 == 1) = true) (some : l ≠ []) :
    (foundLanes l lanes free).any (fun x => x.2 == 1) = true := by
  obtain ⟨x, mem⟩ := List.exists_mem_of_length_pos (len ▸ List.length_pos_iff.mpr some)
  exact List.any_eq_true.mpr ⟨x, mem, List.all_eq_true.mp good x mem⟩

end Sys2Proof.Machine

namespace Sys2Proof.Safety
open Sys2Proof.Machine

/-- Settles O40: each clause is one branch of a stage's row, of Taproot's link or of a port. -/
theorem portStages : Obligations.PortStages := by
  refine ⟨fun s l k clocks => ⟨fun st there found => ?_, fun st there => ?_, fun st there ok => ?_, fun st there bad => ?_, fun st => ?_,
      fun cap st there => ⟨fun ver last => ?_, fun ver more => ?_, fun ver => ?_⟩, fun low high => ?_⟩,
    fun s p clocks known => ⟨fun lanes detect loud => ?_, fun lanes low high loud => ?_, fun train lanes => ?_,
      fun lock markers => ⟨fun c why => ?_, fun why => ?_⟩, fun st => ?_, fun st cap => ⟨fun narrow => ?_, fun k width last fresh => ?_⟩,
      fun low high => ?_, fun sq => ?_⟩⟩
  · simp only [exec, execDetectTest, if_true]
    rw [State.act_runs clocks (by simp [st]), if_pos (by simp [found, there])]
  · simp only [exec, execTrainComplete, if_true]
    rw [if_pos (by decide), State.act_runs clocks (by simp [st, there])]
  · simp only [exec, execLockComplete, if_true]
    rw [if_pos (by decide), State.act_runs clocks (by simp [st, there]), if_pos ok]
  · simp only [exec, execLockComplete, if_true]
    rw [if_pos (by decide), State.act_runs clocks (by simp [st, there]), if_neg (Bool.eq_false_iff.mp bad)]
  · simp only [exec, execCapTimer]
    rw [if_neg (by decide), State.act_runs clocks (by simp [st])]
  · simp only [exec, execCapFlit, if_true]
    rw [State.act_runs clocks (by simp [st, there])]
    simp only [State.tapCap, ver, last, if_true]; rfl
  · simp only [exec, execCapFlit, if_true]
    rw [State.act_runs clocks (by simp [st, there])]
    simp only [State.tapCap, ver, more]; rfl
  · simp only [exec, execCapFlit, if_true]
    rw [State.act_runs clocks (by simp [st, there])]
    simp only [State.tapCap]
    rw [if_pos ver]
  · simp only [exec, execStageTimeout, if_true]
    exact State.act_runs clocks (by simp [low, high])
  · intro l found faults t len good some new
    have port : p ≠ tapLink := by simp only [tapLink]; omega
    have no : (faults t).find? (fun x => !(faults s).contains x) = none :=
      List.find?_eq_none.mpr fun x mem => by simpa using new x mem
    have any : found.any (fun x => x.2 == 1) = true := foundLanes_any (free := fun x => !s.laneTested x) len good some
    simp only [exec, execDetectTest, if_neg port]
    rw [State.act_runs clocks (by simp [known, loud, detect, psDetect, psActive]), if_neg (by simp [detect]), any, no]
    exact congrArg _ (if_pos (congrArg List.length (foundLanes_all_good (free := fun x => !s.laneTested x) len good)))
  · have port : p ≠ tapLink := by simp only [tapLink]; omega
    simp only [exec, execDetectTest, if_neg port]
    rw [State.act_runs clocks (by simp [known, loud, Nat.le_of_lt low, high]), if_pos (by simp [Nat.ne_of_gt low])]
  · simp only [exec, execTrainComplete, if_neg (Nat.not_le.mpr known)]
    exact State.act_runs clocks (by simp [train])
  · simp only [exec, execLockComplete, if_neg (Nat.not_le.mpr known)]
    rw [State.act_runs clocks (by simp [lock])]
    simp only [why]
  · simp only [exec, execLockComplete, if_neg (Nat.not_le.mpr known)]
    rw [State.act_runs clocks (by simp [lock])]
    simp only [why]
  · simp only [exec, execCapTimer, if_pos known]
    exact State.act_runs clocks (by simp [st])
  · have port : p ≠ tapLink := by simp only [tapLink]; omega
    simp only [exec, execCapFlit, if_neg port]
    rw [State.act_runs clocks (by simp [known, st]), if_neg (by simp [st, psCap, psActive])]
    simp only [narrow]
  · have port : p ≠ tapLink := by simp only [tapLink]; omega
    simp only [exec, execCapFlit, if_neg port]
    rw [State.act_runs clocks (by simp [known, st]), if_neg (by simp [st, psCap, psActive])]
    simp only [width]
    rw [if_pos (by simp [last, fresh])]
  · have port : p ≠ tapLink := by simp only [tapLink]; omega
    simp only [exec, execStageTimeout, if_neg port]
    exact State.act_runs clocks (by simp [known, low, high])
  · simp only [exec, execSquelchEnd]
    exact State.act_runs clocks (by simp [known, sq])

/-- Settles O41: each clause is one branch of the rows of retrains, losses, rates and lane tests. -/
theorem portRecovery : Obligations.PortRecovery := by
  refine fun s p clocks => ⟨fun b k known re st cap last width => ?_, fun known live => ⟨?_, ?_⟩, fun ready => ?_, fun known hold => ?_,
    fun m lane value known => ⟨?_, fun shut => ?_, fun gate own => ⟨fun idle => ?_, fun tested free => ?_, fun p tested used => ?_⟩⟩⟩
  · simp only [exec, execRetrainComplete, cap]
    rw [State.act_runs clocks (by simp [known, re, st, last])]
    simp only [width]
  · simp only [exec, execLinkLost]
    exact State.act_runs clocks (by simp [known, live])
  · simp only [exec, execLinkLost]
    exact State.act_runs clocks (by simp [known, live])
  · simp only [exec, execFullRateAdvertise]
    exact State.act_runs clocks ready
  · simp only [exec, execFullRateRetry]
    exact State.act_runs clocks (by simp [known, hold])
  · simp only [exec, execLxPrbsErrRead]
    exact State.act_runs clocks (decide_eq_true known)
  · simp only [exec, execLxCtrl, State.act_runs clocks (decide_eq_true known), shut, Bool.not_false, if_true]
  · simp only [exec, execLxCtrl, State.act_runs clocks (decide_eq_true known), gate, own, Bool.not_true, Bool.false_eq_true, if_false]
    rw [if_pos (by simp [idle])]
  · simp only [exec, execLxCtrl, State.act_runs clocks (decide_eq_true known), gate, own, Bool.not_true, Bool.false_eq_true, if_false]
    rw [if_neg (by simp [tested])]
    simp only [free]
  · simp only [exec, execLxCtrl, State.act_runs clocks (decide_eq_true known), gate, own, Bool.not_true, Bool.false_eq_true, if_false]
    rw [if_neg (by simp [tested])]
    simp only [used]

end Sys2Proof.Safety
end

section
/-! PROOF. Flits (O42): what arrives, what the timer notes, and what a slot sends. -/
namespace Sys2Proof.Machine
open Sys2Proof.Safety

/-- A flit that waits does not change the lanes of the link. -/
theorem State.slotLanes_wait (s : State) (l : Nat) (w : List (Nat × Bool × Bytes)) :
    (s.setLink l { s.link l with rxWait := w }).slotLanes l = s.slotLanes l := by
  simp only [State.slotLanes, State.link_setLink]; rfl

/-- The flit that arrives at a link where none waits is taken at once where it is the turn of its lane, and waits elsewhere. -/
theorem exec_cellFlit_first {s : State} {p lane : Nat} {fec : Fec} {flit : Bytes} (clocks : s.clocked = true) (known : p ≤ tapLink)
    (ex : s.exchanges p = true) (wait : ((s.countFec p fec).link p).rxWait = []) (used : lane < (s.countFec p fec).slotLanes p) :
    exec (.cellFlit ⟨p, lane⟩ fec flit) s =
      let u := s.countFec p fec
      let e := (lane, fec.cut, flit)
      .next (if lane = (u.link p).rxSlot % u.slotLanes p then ((u.arrived p lane fec.cut flit).pullFlit p e).takeFlit p fec.cut flit
        else u.setLink p { u.link p with rxWait := [e] }) := by
  simp only [exec, execCellFlit]
  rw [State.act_runs clocks (by simp [known, ex])]
  have arrived : (s.countFec p fec).arrived p lane fec.cut flit =
      (s.countFec p fec).setLink p { (s.countFec p fec).link p with rxWait := [(lane, fec.cut, flit)] } := by
    simp only [State.arrived, used, if_true, wait, List.nil_append]
  rw [arrived]
  simp only [State.link_setLink, List.length_singleton, State.takeSlots, State.nextFlit, State.slotLanes_wait, List.find?_singleton]
  by_cases turn : lane = ((s.countFec p fec).link p).rxSlot % (s.countFec p fec).slotLanes p
  · simp [turn]
  · simp [turn]

/-- A flit with a bad CRC is counted at a port, and discarded (R489). -/
theorem State.takeFlit_badCrc (s : State) (p : Nat) {flit : Bytes} (crc : flitCrcOk flit = false) : s.takeFlit p false flit =
    let w := if p < 128 then s.fadd (Reg.portCrcErr p) F.portCrcErr_count 1 else s
    if (Trailer.read (numAt flit 256 12)).kind = fkCell ∧ w.linkOpen p = true then w.discardCell p else w := by
  simp only [State.takeFlit, crc, Bool.not_false, Bool.or_true, Bool.true_and, decide_eq_true_eq, if_true]

/-- A good flit gives its acknowledgement, its credits and its cell (R488). -/
theorem State.takeFlit_good (s : State) (p : Nat) {flit : Bytes} (crc : flitCrcOk flit = true) : s.takeFlit p false flit =
    let t := Trailer.read (numAt flit 256 12)
    let w := s.setLink p (((s.link p).acked t).credited t)
    (if t.kind = fkCell ∧ w.linkOpen p = true then w.cellFlit p t (flit.take 256) else w).nakRetrain p := by
  simp only [State.takeFlit, crc, Bool.not_true, Bool.or_false, Bool.false_eq_true, if_false]

/-- The slot of a link that locks or exchanges flits sends one. -/
theorem exec_flitSlot {s : State} {p : Nat} (clocks : s.clocked = true) (known : p ≤ tapLink) (ex : s.exchanges p = true ∨ s.locking p = true) :
    exec (.flitSlot p) s = .next (s.flitSlot p) :=
  State.act_runs clocks (by simpa [known] using ex)

/-- A closed link sends no time ordered set, nor does one where none waits. -/
theorem State.noTime {s : State} {p : Nat} (h : (s.link p).timeOut = [] ∨ s.linkOpen p = false) :
    (if s.linkOpen p then (s.link p).timeOut else []) = [] := by
  obtain h | h := h <;> simp [h]

/-- What a slot of a link sends that has no time ordered set and no CAP: a cell again, a new cell, or IDLE (R486). -/
def State.cellSlot (s : State) (l : Nat) : State :=
  let x := s.link l
  let cells := s.linkOpen l && decide (l < 128 ∨ l ≠ tapLink ∧ s.graftState = gsPaired)
  if cells && decide (x.sent < x.replay.length) then
    let e := x.replay.getD x.sent (0, [])
    (s.setLink l { x with sent := x.sent + 1 }).sendFlit l fkCell e.1 e.2
  else
    match (if cells && decide (x.replay.length < s.replayDepth l) then s.xb.copies.find? (s.maySend l) else none) with
    | some c => s.sendCell l c
    | none => s.sendFlit l fkIdle 0 []

/-- A port, or Taproot, sends a cell or IDLE where no time ordered set and no CAP is due. -/
theorem State.flitSlot_cells {s u : State} {p : Nat} (sweep : s.fenceSweep = u) (out : (u.link p).timeOut = [] ∨ u.linkOpen p = false)
    (cap : (u.link p).capOut = false) (kind : p < 128 ∨ p = tapLink) : s.flitSlot p = u.cellSlot p := by
  have pair : ¬(128 ≤ p ∧ p ≠ tapLink ∧ (u.graftState = gsIdentify ∨ u.graftState = gsSplit)) := by
    rintro ⟨trunk, other, -⟩
    exact kind.elim (fun port => Nat.not_le.mpr port trunk) other
  rw [State.flitSlot, sweep]
  simp only [State.noTime out]
  rw [if_neg (by simp [cap]), if_neg pair]; rfl

/-- A time ordered set goes first, stamped as it leaves (R370). -/
theorem State.flitSlot_time {s u : State} {p : Nat} {o : TimeOut} {rest : List TimeOut} (sweep : s.fenceSweep = u) (open_ : u.linkOpen p = true)
    (out : (u.link p).timeOut = o :: rest) : s.flitSlot p =
      (((u.setLink p { u.link p with timeOut := rest }).sendFlit p fkTime 0 (u.timeFlit o)).noteSent o).bump := by
  rw [State.flitSlot, sweep]
  simp only [open_, out, if_true]

/-- A CAP goes before cells and after the time ordered sets (R478). -/
theorem State.flitSlot_cap {s u : State} {p : Nat} (sweep : s.fenceSweep = u) (out : (u.link p).timeOut = [] ∨ u.linkOpen p = false)
    (cap : (u.link p).capOut = true) (free : u.locking p = false) : s.flitSlot p =
      let w := (u.setLink p { u.link p with
        capOut := false, owed := if u.linkAct p then (u.link p).owed else [] }).sendFlit p fkCap 0 (u.capPayload p)
      if p < 128 then w.tryFullRate p else w := by
  rw [State.flitSlot, sweep]
  simp only [State.noTime out]
  rw [if_pos (by simp [cap, free])]

end Sys2Proof.Machine

namespace Sys2Proof.Safety
open Sys2Proof.Machine

/-- Settles O42: an arriving flit waits or is taken, the timer notes what is due, and a slot sends the first flit that it may. -/
theorem flits : Obligations.Flits := by
  refine fun s p clocks known => ⟨fun lane fec flit ex wait => ⟨fun past => ?_, fun used early => ?_, fun used turn cut => ?_,
      fun used turn cut crc => ?_, fun used turn cut crc => ?_⟩,
    fun op => ⟨fun due none => ?_, fun t nak late => ?_, fun early none => ?_⟩,
    fun ex => ⟨fun rest out op => ?_, fun rest nr hops bound t1 t2 out op => ?_, fun out cap free => ?_, fun out cap port op more => ?_,
      fun out cap port op sent room => ⟨fun c found => ?_, fun none => ?_⟩, fun out cap port shut => ?_⟩⟩
  · simp only [exec, execCellFlit]
    rw [State.act_runs clocks (by simp [known, ex])]
    have stays : (s.countFec p fec).arrived p lane fec.cut flit = s.countFec p fec := if_neg (Nat.not_lt.mpr past)
    rw [stays, show ((s.countFec p fec).link p).rxWait = [] from wait]; rfl
  · exact (exec_cellFlit_first clocks known ex wait used).trans (congrArg _ (if_neg early))
  · rw [exec_cellFlit_first clocks known ex wait used, cut]
    exact congrArg _ (if_pos turn)
  · rw [exec_cellFlit_first clocks known ex wait used, cut]
    exact congrArg _ ((if_pos turn).trans (State.takeFlit_badCrc _ _ crc))
  · rw [exec_cellFlit_first clocks known ex wait used, cut]
    exact congrArg _ ((if_pos turn).trans (State.takeFlit_good _ _ crc))
  · simp only [exec, execAckTimer]
    rw [State.act_runs clocks (by simp [known, op, due]), none]
    simp
  · simp only [exec, execAckTimer]
    rw [State.act_runs clocks (by simp [known, op, nak, late]), nak]
    simp [late]
  · simp only [exec, execAckTimer, none]
    exact State.act_stays (by simp [early])
  · rw [exec_flitSlot clocks known ex, State.flitSlot_time rfl op out, State.noteSent, State.timeFlit]
  · rw [exec_flitSlot clocks known ex, State.flitSlot_time rfl op out, State.noteSent, State.timeFlit]
  · exact (exec_flitSlot clocks known ex).trans (congrArg _ (State.flitSlot_cap rfl out cap free))
  · rw [exec_flitSlot clocks known ex, State.flitSlot_cells rfl (.inl out) cap (.inl port), State.cellSlot]
    rw [if_pos (by simp [op, port, more])]
  · rw [exec_flitSlot clocks known ex, State.flitSlot_cells rfl (.inl out) cap (.inl port), State.cellSlot]
    rw [if_neg (by simp [sent]), if_pos (by simp [op, port, room]), found]
  · rw [exec_flitSlot clocks known ex, State.flitSlot_cells rfl (.inl out) cap (.inl port), State.cellSlot]
    rw [if_neg (by simp [sent]), if_pos (by simp [op, port, room]), none]
  · rw [exec_flitSlot clocks known ex, State.flitSlot_cells rfl out cap port, State.cellSlot]
    rw [if_neg (by simp [shut]), if_neg (by simp [shut])]

end Sys2Proof.Safety
end

section
/-! PROOF. Pairing and switching (O43, O44). -/
namespace Sys2Proof.Machine
open Sys2Proof.Safety

/-- A fold over nothing is the state. -/
theorem State.each_nil {α : Type} (s : State) (f : State → α → State) : s.each [] f = s := rfl

/-- Four trunks at end A (R573). -/
theorem senses_near {c : Nat → Nat} (near : ∀ d < 4, c d = 1) : (List.range 4).map c = [1, 1, 1, 1] :=
  List.map_congr_left (g := fun _ => 1) fun d mem => near d (List.mem_range.mp mem)

/-- A trunk at end A has no fault of its sensing. -/
theorem no_sense_fault {c : Nat → Nat} (near : ∀ d < 4, c d = 1) : (List.range 4).any (fun d => c d == 4) = false :=
  List.any_eq_false.mpr fun d mem => by simp [near d (List.mem_range.mp mem)]

end Sys2Proof.Machine

namespace Sys2Proof.Safety
open Sys2Proof.Machine

/-- Settles O43: each clause is one branch of sensing, of a PAIR flit, of a timeout, or of the end of the merge. -/
theorem pairing : Obligations.Pairing := by
  refine fun s clocks pairs => ⟨fun volts sense near => ?_, fun d pair st known => ⟨fun ver => ?_, fun ver => ⟨fun c why => ?_, fun may => ?_⟩⟩,
    fun d st => ?_, fun st up fresh time => ?_⟩
  · have list := senses_near near
    have none := no_sense_fault near
    have new : (List.range 4).filter (fun d => senseOf (volts.getD (2 * d) 1800) (volts.getD (2 * d + 1) 1800) == 4 && (s.trunk d).sense != 4) = [] :=
      List.filter_eq_nil_iff.mpr fun d mem => by rw [near d (List.mem_range.mp mem)]; exact Bool.false_ne_true
    simp only [exec, execGraftSense]
    rw [State.act_runs clocks (by simp [pairs, sense])]
    simp only [list, none, new, Bool.false_eq_true, if_false]
    rw [if_neg (by decide), if_neg (by decide), if_pos (by decide), if_neg (by decide), State.each_nil]
  · simp only [exec, execPairFlit]
    rw [State.act_runs clocks (by simp [pairs, known, st]), if_pos (by simpa using ver)]
  · simp only [exec, execPairFlit]
    rw [State.act_runs clocks (by simp [pairs, known, st]), if_neg (by simpa using ver), State.judgePair]
    simp only [why]
  · simp only [exec, execPairFlit]
    rw [State.act_runs clocks (by simp [pairs, known, st]), if_neg (by simpa using ver), State.judgePair]
    simp only [may]
  · simp only [exec, execPairingTimeout]
    rw [State.act_runs clocks (by simp [State.trunksRun, pairs, st, gsIdentify, gsMerge]), if_neg (by simp [pairs]), if_pos st]
  · simp only [exec, execMergeComplete]
    exact State.act_runs clocks (by simp only [pairs, up, fresh, st]; simpa using time)

/-- Settles O44: each clause is one branch of a packet's way in, and a cell time is its three rounds. -/
theorem switching : Obligations.Switching := by
  refine ⟨fun s inp p clocks quiet => ?_, fun s inp p clocks run port => ⟨fun k found => ?_, fun none may => ?_, fun none shut => ?_⟩,
    fun s p e clocks run found => ⟨fun full => ?_, fun stop room => ?_⟩, fun s clocks => ?_⟩
  · simp only [exec, execPacketRoute]
    exact State.act_stays (by simp [quiet])
  · simp only [exec, execPacketRoute]
    rw [State.act_runs clocks (by simp [run]), if_neg port, found]
  · simp only [exec, execPacketRoute]
    rw [State.act_runs clocks (by simp [run]), if_neg port, none]
    simp only [may, if_true]; rfl
  · simp only [exec, execPacketRoute]
    rw [State.act_runs clocks (by simp [run]), if_neg port, none]
    simp [shut]
  · simp only [exec, execPacketRoute]
    rw [State.act_runs clocks (by simp [run]), if_pos trivial, found]
    simp only [State.routeOwn]
    rw [show s.entryStop (ownCells e.1 e.2).length = none from full]
  · simp only [exec, execPacketRoute]
    rw [State.act_runs clocks (by simp [run]), if_pos trivial, found]
    simp only [State.routeOwn]
    rw [show s.entryStop (ownCells e.1 e.2).length = some stop from room]
    rfl
  · exact State.act_runs clocks rfl

end Sys2Proof.Safety
end

section
/-! PROOF. Memories and register writes (O45, O46): the fields of a register, and the rows that write them. -/
namespace Sys2Proof.Machine
open Sys2Proof.Safety

/-- A write of a field keeps a field below it or above it. -/
theorem bget_bset_other {n : Nat} {f g : Bits} (x : BitVec n) (v : Nat) (fits : f.lo + f.width ≤ n)
    (apart : f.lo + f.width ≤ g.lo ∨ g.lo + g.width ≤ f.lo) : bget g (bset f x v) = bget g x := by
  have below {y k : Nat} (h : g.lo + g.width ≤ k) : y % 2 ^ k / 2 ^ g.lo % 2 ^ g.width = y / 2 ^ g.lo % 2 ^ g.width := by
    rw [← Nat.mod_mul_right_div_self, ← Nat.mod_mul_right_div_self, ← Nat.pow_add, Nat.mod_mod_of_dvd _ (Nat.pow_dvd_pow 2 h)]
  have above {y k : Nat} (h : k ≤ g.lo) : y / 2 ^ g.lo = y / 2 ^ k / 2 ^ (g.lo - k) := by
    rw [Nat.div_div_eq_div_mul, ← Nat.pow_add, Nat.add_sub_cancel' h]
  have hl : x.toNat % 2 ^ f.lo + 2 ^ f.lo * (v % 2 ^ f.width) < 2 ^ (f.lo + f.width) := by
    have h1 := Nat.mod_lt x.toNat (Nat.two_pow_pos f.lo)
    have h2 := Nat.mul_le_mul_left (2 ^ f.lo) (Nat.mod_lt v (Nat.two_pow_pos f.width))
    rw [Nat.mul_succ, ← Nat.pow_add] at h2
    omega
  have whole : (bset f x v).toNat =
      x.toNat % 2 ^ f.lo + 2 ^ f.lo * (v % 2 ^ f.width) + 2 ^ (f.lo + f.width) * (x.toNat / 2 ^ (f.lo + f.width)) := by
    refine (BitVec.toNat_ofNat _ _).trans (Nat.mod_eq_of_lt ?_)
    have h1 : x.toNat / 2 ^ (f.lo + f.width) < 2 ^ (n - (f.lo + f.width)) := by
      apply Nat.div_lt_of_lt_mul; rw [← Nat.pow_add, Nat.add_sub_cancel' fits]; exact x.isLt
    have h2 := Nat.mul_le_mul_left (2 ^ (f.lo + f.width)) h1
    rw [Nat.mul_succ, ← Nat.pow_add, Nat.add_sub_cancel' fits] at h2
    omega
  simp only [bget]
  obtain apart | apart := apart
  · rw [above apart, above apart, whole, Nat.add_mul_div_left _ _ (Nat.two_pow_pos _), Nat.div_eq_of_lt hl, Nat.zero_add]
  · rw [← below apart, ← below (y := x.toNat) apart, whole, Nat.pow_add, Nat.mul_assoc, Nat.add_assoc, ← Nat.mul_add,
      Nat.add_mul_mod_self_left, Nat.mod_mod]

/-- A write of a field keeps another field of its register. -/
theorem State.fget_fset_field {s : State} {a : Nat} {f g : Bits} {v : Nat} (fits : f.lo + f.width ≤ 64)
    (apart : f.lo + f.width ≤ g.lo ∨ g.lo + g.width ≤ f.lo) : (s.fset a f v).fget a g = s.fget a g := by
  rw [State.fget, State.rget_fset, bget_bset_other _ v fits apart, State.fget]

/-- A field of a register holds the field of the written word. -/
theorem State.fget_fset_bget {s : State} {a n : Nat} {f : Bits} {x : BitVec n} (fits : f.lo + f.width ≤ 64) :
    (s.fset a f (bget f x)).fget a f = bget f x := by
  rw [State.fget_fset fits]
  exact Nat.mod_eq_of_lt (Nat.mod_lt _ (Nat.two_pow_pos _))

/-- A flag that is set reads as set. -/
theorem State.flag_fset_one {s : State} {a lo : Nat} (fits : lo < 64) : (s.fset a ⟨lo, 1⟩ 1).flag a ⟨lo, 1⟩ = true := by
  rw [State.flag, State.fget_fset (f := ⟨lo, 1⟩) fits]; rfl

/-- An entry of the trouble log writes two registers. -/
theorem State.rget_logEvent {s : State} {a : Nat} (b c d e g : Nat) (u : Option Nat) (events : Reg.shedEvents ≠ a) (hwm : Reg.troubleHwm ≠ a) :
    (s.logEvent b c d e g u).rget a = s.rget a := by
  simp only [State.logEvent, apply_ite (State.rget · a), State.rget_fset_other _ _ _ events, State.rget_fset_other _ _ _ hwm]
  split
  · simp only [ite_self]; rfl
  · rfl

/-- An entry that its user holds already stays as it is. -/
theorem State.resGrab_own {s : State} {e user : Nat} (h : s.resUser e = user) : s.resGrab e user = s := if_pos h

/-- The user of an entry may take it again. -/
theorem State.resCanTake_own {s : State} {e user : Nat} (h : s.resUser e = user) : s.resCanTake e user = true := by
  simp [State.resCanTake, h]

/-- A register other than that of an entry keeps its user. -/
theorem State.resUser_fset {s : State} {a e : Nat} {f : Bits} {v : Nat} (h : a ≠ Reg.resOwner e) : (s.fset a f v).resUser e = s.resUser e :=
  State.fget_fset_other _ _ _ _ h

/-- A write of MIR_CTRL sets its vector, also while the session runs (R557). -/
theorem State.fget_mirrorFields_vector {s : State} {n : Nat} {v : Word32} :
    (s.mirrorFields n v).fget (Reg.mirCtrl n) F.mirCtrl_vector = bget F.mirCtrl_vector v := by
  have kept : ((s.fset (Reg.mirCtrl n) F.mirCtrl_vector (bget F.mirCtrl_vector v)).fset (Reg.mirCtrl n) F.mirCtrl_irqEn
      (bget F.mirCtrl_irqEn v)).fget (Reg.mirCtrl n) F.mirCtrl_vector = bget F.mirCtrl_vector v :=
    (State.fget_fset_field (by decide) (by decide)).trans (State.fget_fset_bget (by decide))
  rw [State.mirrorFields]
  split
  · exact kept
  · exact ((State.fget_fset_field (by decide) (by decide)).trans (State.fget_fset_field (by decide) (by decide))).trans kept

/-- The role that TIME_CTRL holds (R368). -/
theorem State.newRole_same {s : State} {old : Nat} (h : s.role = old) : s.newRole old = s := if_pos h

/-- A part that does not follow has no upstream link to lose. -/
theorem State.checkUpstream_leads {s : State} (h : s.role ≠ 2) : s.checkUpstream = s := by
  have other : s.fget Reg.timeCtrl F.timeCtrl_role ≠ 2 := fun e => h (by rw [State.role, e])
  rw [State.checkUpstream, if_neg (by simp [other])]

end Sys2Proof.Machine

namespace Sys2Proof.Safety
open Sys2Proof.Machine

/-- Settles O45: each clause is one branch of a row of the stacks. -/
theorem memories : Obligations.Memories := by
  refine fun s m k value clocks known => ⟨fun training => ⟨?_, fun n pos => ?_⟩, fun shut => ⟨?_, ?_, fun data => ?_⟩,
    fun gate hard => ?_, fun gate data => ?_, fun r left found => ?_⟩
  · simp only [exec, execStackTraining]
    rw [State.act_runs clocks (by simp [known, training])]
    rfl
  · simp only [exec, execStackTraining]
    rw [State.act_runs clocks (by simp [known, training]), if_neg (Nat.ne_of_gt pos)]
    rfl
  · simp only [exec, execHppr]
    rw [State.act_runs clocks (decide_eq_true known), State.pprGo, shut]
    rfl
  · simp only [exec, execSppr]
    rw [State.act_runs clocks (decide_eq_true known), State.pprGo, shut]
    rfl
  · simp only [exec, execMrSel]
    rw [State.act_runs clocks (decide_eq_true known), shut]
    rfl
  · intro t life idle allowed can u
    have go : exec (if hard then .hppr m k value else .sppr m k value) s = .next (s.pprGo k value hard) := by
      cases hard
      · exact State.act_runs clocks (decide_eq_true known)
      · exact State.act_runs clocks (decide_eq_true known)
    rw [go, State.pprGo, if_neg (by simp [gate])]
    have may : ((hard && (life == 2 || life == 4)) || !t.resCanTake (reStack k) ruRepair) = false := by
      rw [can]
      simpa using allowed
    exact congrArg _ ((if_neg (Bool.eq_false_iff.mp idle)).trans (if_neg (Bool.eq_false_iff.mp may)))
  · simp only [exec, execMrSel]
    rw [State.act_runs clocks (decide_eq_true known), gate]
    rfl
  · simp only [exec, execPprComplete, found]
    rw [State.act_runs clocks rfl]
    simp only [if_true, Bool.true_and]

/-- Settles O46: a write runs half by half, a request waits, and a field of a register that acts reads what was written. -/
theorem registerWritesAndClaims : Obligations.RegisterWritesAndClaims := by
  refine ⟨fun s m addr size value clocks => ⟨fun win shut => ?_, fun out bad => ?_, fun gate four aligned => ?_, fun gate eight aligned => ?_⟩,
    fun s m n clocks => ⟨State.act_runs clocks rfl, State.act_runs clocks rfl⟩,
    fun s m clocks => ⟨fun own => ⟨fun v role quiet rel => ?_, fun v pair one => ?_, fun v alone same other => ?_, fun v on mine => ?_⟩,
      fun gate v on mine => ?_, fun own n v known => ⟨fun on => ?_, ?_, fun fits => ?_, fun on already => ?_⟩⟩⟩
  · simp only [exec, execRegisterWrite]
    rw [State.act_runs clocks rfl, if_pos (by simp [win, shut])]
  · simp only [exec, execRegisterWrite]
    rw [State.act_runs clocks rfl, if_neg (by simp [out]), if_pos (by simp [bad])]
  · subst four
    simp only [exec, execRegisterWrite]
    rw [State.act_runs clocks rfl, if_neg (by simp [gate]), if_neg (by simp [goodAccess, aligned]), gate]
    rfl
  · subst eight
    simp only [exec, execRegisterWrite]
    rw [State.act_runs clocks rfl, if_neg (by simp [gate]), if_neg (by simp [goodAccess, aligned]), gate]
    rfl
  · simp only [exec, execGcLoad]
    rw [State.act_runs clocks rfl, if_neg (by simp [own]), if_neg (by simp [State.mayLoad, role, quiet]), if_neg (by simp [rel])]
    refine ⟨_, rfl, ?_, ?_⟩
    · rw [State.loadNow, State.stepped, State.rget_logEvent _ _ _ _ _ _ (by decide) (by decide), State.rget_fset_other _ _ _ (by decide)]
      exact (State.rget_rset_other _ _ (by decide)).trans (State.rget_rset ..)
    · rw [State.loadNow, State.stepped, State.rget_logEvent _ _ _ _ _ _ (by decide) (by decide), State.rget_fset_other _ _ _ (by decide)]
      exact State.rget_rset ..
  · simp only [exec, execTimeCtrl]
    rw [State.act_runs clocks rfl, if_neg (by simp [own]), if_pos (by simp [show s.flag Reg.partId F.partId_grafted = true from pair, one])]
    exact ⟨_, rfl, State.fget_fset_bget (by decide)⟩
  · let t := ((s.fset Reg.timeCtrl F.timeCtrl_holdStep (bget F.timeCtrl_holdStep v)).fset Reg.timeCtrl F.timeCtrl_role (bget F.timeCtrl_role v)).fset
      Reg.timeCtrl F.timeCtrl_upport (bget F.timeCtrl_upport v)
    let u := t.fset Reg.timeCtrl F.timeCtrl_upGraft (bget F.timeCtrl_upGraft v)
    have role : u.role = s.role := by
      rw [same, State.role, State.fget_fset_field (by decide) (by decide), State.fget_fset_field (by decide) (by decide),
        State.fget_fset_bget (by decide)]
    have port : u.fget Reg.timeCtrl F.timeCtrl_upport = bget F.timeCtrl_upport v :=
      (State.fget_fset_field (by decide) (by decide)).trans (State.fget_fset_bget (by decide))
    refine ⟨u, ?_, port⟩
    simp only [exec, execTimeCtrl]
    rw [State.act_runs clocks rfl, if_neg (by simp [own]), if_neg (by simp [show s.flag Reg.partId F.partId_grafted = false from alone])]
    exact congrArg _ ((congrArg State.checkUpstream (State.newRole_same role)).trans (State.checkUpstream_leads (role ▸ other)))
  · simp only [exec, execTickOutEnable, State.act_runs clocks rfl, own, on, Bool.not_true, Bool.false_eq_true, if_false, if_true]
    have mine : ((s.fset Reg.tickOutCtrl F.tickOutCtrl_period (bget F.tickOutCtrl_period v)).fset Reg.tickOutCtrl F.tickOutCtrl_held 0).resUser
        rePin = ruTickOut := by
      rw [State.resUser_fset (by decide), State.resUser_fset (by decide), mine]
    rw [if_pos (State.resCanTake_own mine), State.resGrab_own mine]
    refine ⟨_, rfl, State.flag_fset_one (by decide), ?_⟩
    rw [State.fget_fset_field (by decide) (by decide), State.fget_fset_field (by decide) (by decide), State.fget_fset_bget (by decide)]
  · simp only [exec, execDebugClockEnable, State.act_runs clocks rfl, gate, on, Bool.not_true, Bool.false_eq_true, if_false, if_true]
    have mine : (((s.logEvent 0x0C 6 0 0 (masterNum m) none).fset Reg.dbgClkCtrl F.dbgClkCtrl_sel (bget F.dbgClkCtrl_sel v)).fset
        Reg.dbgClkCtrl F.dbgClkCtrl_held 0).resUser rePin = ruDebug := by
      rw [State.resUser_fset (by decide), State.resUser_fset (by decide), State.resUser, State.fget,
        State.rget_logEvent _ _ _ _ _ _ (by decide) (by decide)]
      exact mine
    rw [if_pos (State.resCanTake_own mine), State.resGrab_own mine]
    exact ⟨_, rfl, State.flag_fset_one (by decide)⟩
  · simp only [exec, execMirrorEnable, State.act_runs clocks (decide_eq_true known), own, on, Bool.not_true, Bool.false_eq_true, if_false, if_true]
    refine ⟨_, rfl, ?_⟩
    exact State.fget_mirrorFields_vector
  · simp only [exec, execMirrorDisable, State.act_runs clocks (decide_eq_true known), own, Bool.not_true, Bool.false_eq_true, if_false]
    refine ⟨_, rfl, ?_⟩
    rw [State.flag, State.fget_fset (by decide)]; rfl
  · simp only [exec, execMirHead, State.act_runs clocks (decide_eq_true known), own, Bool.not_true, Bool.false_eq_true, if_false]
    rw [if_neg (Nat.not_lt.mpr fits)]
    exact ⟨_, rfl, (State.fget_fset (by decide)).trans (Nat.mod_eq_of_lt v.isLt)⟩
  · simp only [exec, execTelemetryEnable, State.act_runs clocks rfl, own, on, already, Bool.not_true, Bool.false_eq_true, if_false, if_true]
    exact ⟨_, rfl, (State.fget_fset_field (by decide) (by decide)).trans (State.fget_fset_bget (by decide))⟩

end Sys2Proof.Safety
end

section
/-! PROOF. The mailbox, Shed, and slices (O47 to O50). -/
namespace Sys2Proof.Machine
open Sys2Proof.Safety

/-- A row of Shed runs on its own clock also while the part is stopped by it (R363). -/
theorem State.actShed_runs {s t : State} {p : Bool} (up : s.shedUp = true) (locked : s.pwr.locked = true) (h : p = true) :
    s.actShed p t = .next t := by
  simp [State.actShed, up, locked, h]

/-- The state of a scrub that has read a line (R654). -/
def State.scrubbed (s : State) (line : Nat) : State :=
  let w := s.resTake (reStack (lineStack line)) ruScrub
  { w with shed := { w.shed with scrubPos := line } }

/-- A scrub that goes on in its pass notes the line that it reads, and what it found there. -/
theorem exec_patrolScrub_forward {s : State} {line : Nat} (clocks : s.clocked = true) (ready : s.flag Reg.service F.service_storeReady = true)
    (known : line < 24 * 2 ^ 26) (may : s.scrubMay (lineStack line) = true) (past : s.shed.scrubPos ≤ line) (found : Nat) :
    exec (.patrolScrub line found) s =
      let t := s.scrubbed line
      let u := lineUnit line
      .next (if found = 1 then t.correctedError u
        else if found = 2 && t.unitState u != 3 then
          (((t.addPoints u 64).addPoints (unitStack (lineStack line)) 16).loseLine line).logUnit 0x08 5 1 u (logDetail none none 0 (line % 2 ^ 21))
        else t) := by
  rw [exec, execPatrolScrub, State.act_runs clocks (by rw [ready, decide_eq_true known, may]; rfl)]
  simp only [if_neg (show ¬ line < (s.resTake (reStack (lineStack line)) ruScrub).shed.scrubPos from Nat.not_lt.mpr past)]
  rfl

end Sys2Proof.Machine

namespace Sys2Proof.Safety
open Sys2Proof.Machine

/-- Settles O47: each request is asked for, and its clause is the branch that answers. -/
theorem mailboxAnswers : Obligations.MailboxAnswers := by
  refine fun r m req q => ⟨fun ask => ?_, fun ask fused live => ?_, fun ask => ?_, fun ask => ?_, fun ask => ?_, fun ask known => ?_,
    fun ask low high new => ?_, fun ask => ?_, fun ask pos most level => ⟨fun ok => ?_, fun bad => ?_⟩⟩
  · rw [exec, execIdentity, State.mail_asks ask]
  · rw [exec, execQuote, State.mail_asks ask, if_neg]
    rintro (h | h)
    · exact fused h
    · exact live h
  · rw [exec, execLogFetch, State.mail_asks ask]
  · rw [exec, execLogAck, State.mail_asks ask]
  · rw [exec, execSensors, State.mail_asks ask]
  · rw [exec, execHealthDetail, State.mail_asks ask]
    rw [if_neg (Nat.not_le.mpr known)]
  · have on : q.field 0 12 ≠ 0 := by omega
    rw [exec, execPowerCap, State.mail_asks ask]
    simp only [if_neg on]
    rw [if_neg (by simp [low, high]), if_neg (Ne.symm new)]
  · intro c e
    rw [exec, execGateChallenge, State.mail_asks ask]; rfl
  · rw [exec, execGateGrant, State.mail_asks ask]
    rw [if_neg (by omega), if_pos ok]
  · rw [exec, execGateGrant, State.mail_asks ask]
    rw [if_neg (by omega), if_neg (Bool.eq_false_iff.mp bad)]

/-- Settles O48: each request is asked for, and its clause is the branch that acts. -/
theorem mailboxActs : Obligations.MailboxActs := by
  refine fun r m req q => ⟨fun ask live ok => ?_, fun h ask fw aligned short fits => ?_, fun h ask fw whole body boot => ?_, fun ask none => ?_,
    fun ask live idle => ?_, fun ask live unit may => ?_, fun ask unit used => ?_, fun ask life => ?_,
    fun keys ask life tok idle => ⟨fun ok => ?_, fun bad => ?_⟩, fun ask ok => ?_⟩
  · rw [exec, execFwBegin, State.mail_asks ask]
    rw [if_neg (Bool.eq_false_iff.mp live), if_neg (by simp [ok])]
  · rw [exec, execFwChunk, State.mail_asks ask]
    simp only [fw]
    rw [if_neg (by omega)]
  · rw [exec, execFwCommit, State.mail_asks ask]
    simp only [fw]
    rw [if_neg (by simp [whole, body])]
  · rw [exec, execFwCommit, State.mail_asks ask]
    simp only [none]
  · rw [exec, execShutdown, State.mail_asks ask]
    rw [if_neg (Bool.eq_false_iff.mp live), if_neg (Bool.eq_false_iff.mp idle)]
  · rw [exec, execSlice, State.mail_asks ask]
    rw [if_neg (Bool.eq_false_iff.mp live), if_neg (by simp only [unit, may]; decide)]
  · rw [exec, execRepair, State.mail_asks ask]
    rw [if_neg (by simp [unit, used])]
  · rw [exec, execFuse, State.mail_asks ask]
    rw [if_pos life]
  · rw [exec, execLifecycle, State.mail_asks ask]
    rw [if_neg (fun h => life h.1)]
    simp only [tok]
    rw [if_neg (Bool.eq_false_iff.mp idle), if_pos ok]
  · rw [exec, execLifecycle, State.mail_asks ask]
    rw [if_neg (fun h => life h.1)]
    simp only [tok]
    rw [if_neg (Bool.eq_false_iff.mp idle), if_neg (Bool.eq_false_iff.mp bad)]
  · rw [exec, execOwnerEnroll, State.mail_asks ask]
    rw [if_pos ok]

/-- Settles O49: each clause is a row of Shed whose interval or cause is there. -/
theorem shedRuns : Obligations.ShedRuns := by
  refine ⟨fun s up locked => ⟨fun boot => ⟨?_, fun a => ?_⟩, fun boot => ?_⟩,
    fun s clocks => ⟨fun boot => ⟨fun due => ?_, fun early => ?_, fun r due => ?_, fun due => ?_⟩, fun t grant late => ?_⟩⟩
  · exact State.actShed_runs up locked (by simp [boot])
  · exact State.actShed_runs up locked (by simp [boot])
  · exact State.actShed_runs up locked (by simp [boot])
  · exact State.act_runs clocks (by rw [boot, decide_eq_true due]; rfl)
  · exact State.act_stays (by rw [decide_eq_false (Nat.not_le.mpr early), Bool.and_false])
  · exact State.act_runs clocks (by rw [boot, decide_eq_true due]; rfl)
  · exact State.act_runs clocks (by rw [boot, decide_eq_true due]; rfl)
  · simp only [exec, execGrantExpiry, grant]
    exact State.act_runs clocks (decide_eq_true late)

/-- Settles O50: each clause is one branch of a row of slices, scrubs or BIST. -/
theorem slices : Obligations.Slices := by
  refine fun s clocks => ⟨fun die n known per boot live run due place free => ?_,
    fun u r found => ⟨fun waits may => ⟨fun repair => ?_, fun plain => ?_⟩, fun waits late => ?_, fun runs late => ⟨?_, ?_⟩⟩,
    fun line ready known => ⟨fun shut found => ?_, fun may past => ⟨?_, ?_, fun alive => ?_⟩⟩,
    fun w failed shut => ?_, fun failed none boot => ?_⟩
  · rw [exec, execPeriodicSlice, State.act_runs clocks (by simp [known, per, boot, live, run, due]), place]
    exact congrArg _ (if_neg (Bool.eq_false_iff.mp free))
  · simp only [exec, execSliceBegin, found]
    rw [State.act_runs clocks (by simpa [waits] using may), if_pos repair]
  · simp only [exec, execSliceBegin, found]
    rw [State.act_runs clocks (by simpa [waits] using may), if_neg (Bool.eq_false_iff.mp plain)]
  · simp only [exec, execSliceDeferred, found]
    exact State.act_runs clocks (by rw [waits, decide_eq_true late]; rfl)
  · simp only [exec, execSliceEnd, found]
    exact State.act_runs clocks (by rw [runs, decide_eq_true late]; rfl)
  · simp only [exec, execSliceEnd, found]
    exact State.act_runs clocks (by rw [runs, decide_eq_true late]; rfl)
  · exact State.act_stays (by rw [shut, Bool.and_false])
  · exact (exec_patrolScrub_forward clocks ready known may past 0)
  · exact (exec_patrolScrub_forward clocks ready known may past 1)
  · exact (exec_patrolScrub_forward clocks ready known may past 2).trans (congrArg _ (if_pos (bne_iff_ne.mpr alive)))
  · simp only [exec, execFullBistComplete, shut]
    exact State.act_runs clocks rfl
  · simp only [exec, execFullBistComplete, none]
    exact State.act_runs clocks boot

end Sys2Proof.Safety
end

section
/-! PROOF. Frames (O60): what rows leave unchanged. A predicate per frame, kept by the writes of a row; a word of a program without
transfers leaves no transfer that is done, so its settling moves no bytes. -/
namespace Sys2Proof.Machine
open Sys2Proof.Safety

/-- What a row leaves satisfies what both its effect and the unchanged state do. -/
theorem of_act {s t u : State} {c : Bool} {P : State → Prop} (h : s.act c t = .next u) (stay : P s) (go : P t) : P u := by
  cases h
  split
  · exact go
  · exact stay

/-- A state that differs in registers at most. -/
def OnlyRegs (s t : State) : Prop := t = { s with regs := t.regs }

theorem OnlyRegs.refl (s : State) : OnlyRegs s s := rfl

theorem OnlyRegs.fset (s : State) (a : Nat) (f : Bits) (v : Nat) : OnlyRegs s (s.fset a f v) := rfl

theorem OnlyRegs.rset (s : State) (a : Nat) (v : Word64) : OnlyRegs s (s.rset a v) := rfl

theorem OnlyRegs.trans {s t u : State} (h : OnlyRegs s t) (h' : OnlyRegs t u) : OnlyRegs s u := by
  unfold OnlyRegs at *
  rw [h', h]

theorem OnlyRegs.ite {s a b : State} {c : Prop} [Decidable c] (h : OnlyRegs s a) (h' : OnlyRegs s b) : OnlyRegs s (if c then a else b) := by
  split
  · exact h
  · exact h'

/-! ## Reads that clear (R404) -/

/-- A state that differs in registers, in outputs, and in the count of free choices at most. -/
def OnlyRead (s t : State) : Prop := t = { s with regs := t.regs, out := t.out, freeCtr := t.freeCtr }

theorem OnlyRead.refl (s : State) : OnlyRead s s := rfl

theorem OnlyRead.fset (s : State) (a : Nat) (f : Bits) (v : Nat) : OnlyRead s (s.fset a f v) := rfl

theorem OnlyRead.trans {s t u : State} (h : OnlyRead s t) (h' : OnlyRead t u) : OnlyRead s u := by
  unfold OnlyRead at *
  rw [h', h]

theorem OnlyRead.ite {s a b : State} {c : Prop} [Decidable c] (h : OnlyRead s a) (h' : OnlyRead s b) : OnlyRead s (if c then a else b) := by
  split
  · exact h
  · exact h'

theorem onlyRead_readClear (s : State) (m : Master) (half : Nat) : OnlyRead s (s.readClear m half) := by
  unfold State.readClear
  split
  · split <;> rfl
  · rfl

theorem onlyRead_each {α : Type} {f : State → α → State} (step : ∀ s x, OnlyRead s (f s x)) (l : List α) (s : State) :
    OnlyRead s (s.each l f) :=
  List.foldlRecOn (motive := OnlyRead s) l f rfl (fun t h x _ => h.trans (step t x))

/-- A read writes registers alone. -/
theorem onlyRead_readReg (s : State) (m : Master) (addr size : Nat) : OnlyRead s (s.readReg m addr size).2 := by
  simp only [State.readReg, apply_ite Prod.snd]
  have halves (t : State) (l : List Nat) : OnlyRead t (t.each l (fun t h => t.readClear m h)).bump :=
    (onlyRead_each (fun t h => onlyRead_readClear t m h) l t).trans rfl
  refine .ite (.fset ..) (.ite (.fset ..) (.ite (.fset ..) (.trans ?_ (halves _ _))))
  exact .ite (.trans (.ite (.fset ..) (.refl s)) (.fset ..)) (.ite (.fset ..) (.refl s))

theorem onlyRead_countPrbs (s : State) (lane : Nat) : OnlyRead s (s.countPrbs lane) := by
  unfold State.countPrbs
  split <;> rfl

/-! ## Words of a program -/

/-- A state in which a program still runs differs in the program alone. -/
def OnlyVy (s t : State) : Prop := t.vy.isSome = true → t = { s with vy := t.vy }

theorem OnlyVy.stays (s : State) : OnlyVy s s := fun _ => rfl

theorem OnlyVy.going (s : State) (p : VyProg) : OnlyVy s { s with vy := some p } := fun _ => rfl

/-- An end leaves no program. -/
theorem OnlyVy.ended (s : State) {t : State} {p : VyProg} {st : Nat} {f : Option VyFault} {lib : Nat} : OnlyVy s (t.vyEnd p st f lib) := by
  intro some
  cases some

theorem OnlyVy.ite {s a b : State} {c : Prop} [Decidable c] (h : c → OnlyVy s a) (h' : ¬c → OnlyVy s b) : OnlyVy s (if c then a else b) := by
  split
  · exact h ‹_›
  · exact h' ‹_›

/-- A program whose transfers are all done has none. -/
def VyProg.NoneMoved (p : VyProg) : Prop := p.xfers.all (·.done) = true → p.xfers = []

theorem xfers_passT (p : VyProg) (tile : Nat) : (p.passT tile).xfers = p.xfers := by
  have applied (l : List VyWrite) (p q : VyProg) (h : q.xfers = p.xfers) : (l.foldl VyProg.apply q).xfers = p.xfers :=
    List.foldlRecOn (motive := fun q : VyProg => q.xfers = p.xfers) l _ h (fun q h e _ => by
      simp only [VyProg.apply]
      split <;> exact h)
  exact applied _ p _ rfl

theorem xfers_passTiles (l : List Nat) (p : VyProg) : (l.foldl VyProg.passT p).xfers = p.xfers :=
  List.foldlRecOn (motive := fun q : VyProg => q.xfers = p.xfers) l _ rfl (fun q h e _ => (xfers_passT q e).trans h)

/-- A program settles without a change elsewhere, unless it ends or moves bytes. -/
theorem OnlyVy.settle {s : State} {p : VyProg} (none : p.NoneMoved) : OnlyVy s (s.vySettle p) := by
  simp only [State.vySettle]
  have same := xfers_passTiles p.readyT p
  generalize p.readyT.foldl VyProg.passT p = q at same
  refine .ite (fun _ => .ite (fun _ => .going s _) fun _ => .ite (fun _ => .ended s) fun _ => .ite (fun _ => .going s _) fun _ => .going s _)
    fun _ => .ite (fun _ => .ite (fun _ => .going s _) fun _ => .ended s) fun _ => .ite (fun arrived => ?_) fun _ => .going s _
  simp only [Bool.and_eq_true] at arrived
  obtain ⟨⟨-, moved⟩, -⟩ := arrived
  have out : s.outTransfers q = s := by
    rw [State.outTransfers, same, none (same ▸ moved)]; rfl
  rw [out]
  exact .ite (fun _ => .ended s) fun _ => .going s _

/-- An effect that moves no bytes. -/
def VyRes.NoneMoved : VyRes → Prop
  | .done p _ => p.NoneMoved
  | _ => True

/-- An effect of a program without transfers moves no bytes. -/
def MovesNone (f : State → VyIns → VyProg → VyThread → VyRes) : Prop := ∀ s v p t, p.xfers = [] → (f s v p t).NoneMoved

theorem VyProg.noneMoved_of_nil {p : VyProg} (h : p.xfers = []) : p.NoneMoved := fun _ => h

/-- A fault is noted in its program. -/
theorem OnlyVy.fault {s : State} {p : VyProg} (v : VyIns) (pc kind addr : Nat) (tile : Option Nat) (none : p.xfers = []) :
    OnlyVy s (s.vyFault p v pc kind addr tile) := by
  refine .settle (VyProg.noneMoved_of_nil ?_)
  cases tile with
  | none => exact none
  | some x =>
    simp only [VyProg.note]
    split <;> exact none

/-- An issue whose effect moves no bytes changes its program alone, where it goes on. -/
theorem OnlyVy.issue {s t : State} {p : VyProg} {o : VOp} {cls k : Nat} {u : VyUse} {f} (clean : o.upset = .clean) (prog : s.vy = some p)
    (none : p.xfers = []) (moves : MovesNone f) (h : s.vyIssue o cls k u f = .next t) : OnlyVy s t := by
  simp only [State.vyIssue, prog] at h
  refine of_act h (.stays s) ?_
  simp only [clean, bne_self_eq_false, Bool.false_eq_true, if_false]
  refine .ite (fun _ => .fault _ _ _ _ _ none) fun _ => .ite (fun _ => .fault _ _ _ _ _ none) fun _ => .ite (fun _ => .fault _ _ _ _ _ none) fun _ =>
    .ite (fun _ => .fault _ _ _ _ _ none) fun _ => .ite (fun _ => .settle (VyProg.noneMoved_of_nil none)) fun _ => ?_
  have effect := moves s (p.fields o.tile o.tid (p.thread o.tile o.tid).pc) p
    { p.thread o.tile o.tid with pc := (p.thread o.tile o.tid).pc + opWords (p.fields o.tile o.tid (p.thread o.tile o.tid).pc) } none
  split
  next res => rw [res] at effect; exact .settle effect
  next res => exact .fault _ _ _ _ _ none
  next res => exact .stays s

theorem xfers_note (p : VyProg) (kind tile addr : Nat) : (p.note kind tile addr).xfers = p.xfers := by
  simp only [VyProg.note]
  split <;> rfl

theorem xfers_showAdds (p : VyProg) (f : VyAdd → Bool) : (p.showAdds f).xfers = p.xfers := by
  simp only [VyProg.showAdds]
  exact List.foldlRecOn (motive := fun q : VyProg => q.xfers = p.xfers) _ _ rfl (fun _ h _ _ => h)

/-- A program that keeps the transfers of one without them moves no bytes. -/
theorem VyRes.noneMoved_done {p q : VyProg} {t : VyThread} (none : p.xfers = []) (same : q.xfers = p.xfers) : (VyRes.done q t).NoneMoved :=
  VyProg.noneMoved_of_nil (same.trans none)

theorem VyRes.NoneMoved.ite {c : Prop} [Decidable c] {a b : VyRes} (h : a.NoneMoved) (h' : b.NoneMoved) : (if c then a else b).NoneMoved := by
  split
  · exact h
  · exact h'

/-- A term into an accumulator moves no bytes. -/
theorem noneMoved_addTerm {p : VyProg} {t : VyThread} {d : Nat} {g : WAcc → Slot × InCnt} (none : p.xfers = []) : (addTerm p t d g).NoneMoved :=
  .ite trivial (VyRes.noneMoved_done none rfl)

/-- A store or an atomic moves no bytes of a transfer. -/
theorem noneMoved_writeMem {p : VyProg} {t : VyThread} {v : VyIns} {peer : Bool} {op : VyStore} (none : p.xfers = []) :
    (writeMem p t v peer op).NoneMoved := by
  unfold writeMem
  dsimp only
  split
  · trivial
  · refine .ite (VyRes.noneMoved_done none rfl) (VyRes.noneMoved_done none ?_)
    split
    · exact xfers_note ..
    · rfl

/-- A transfer that begins is not done (R320). -/
theorem noneMoved_startXfer {p : VyProg} {t : VyThread} {v : VyIns} {out : Bool} : (startXfer p t v out).NoneMoved := by
  unfold startXfer
  refine .ite trivial (.ite trivial (.ite trivial (.ite trivial (.ite trivial (.ite trivial (.ite trivial fun moved => ?_))))))
  simp at moved

section
variable {s : State} {i : Instr} {o : VOp} {cls k : Nat}

/-- An answer is that of the issue of a row whose effect moves no bytes. -/
def State.IsStill (s : State) (r : VyRow) (x : Res) : Prop := ∃ f, MovesNone f ∧ x = s.vyIssue r.op r.cls r.place r.use f

/-- A word whose effect is one answer that keeps the transfers. -/
theorem State.IsStill.keeps {r : VyRow} {g : State → VyIns → VyProg → VyThread → VyProg} {h : State → VyIns → VyProg → VyThread → VyThread}
    (same : ∀ s v p t, (g s v p t).xfers = p.xfers) :
    s.IsStill r (s.vyIssue r.op r.cls r.place r.use (fun s v p t => .done (g s v p t) (h s v p t))) :=
  ⟨_, fun _ _ _ _ none => VyRes.noneMoved_done none (same ..), rfl⟩

theorem State.IsStill.vyInt {op : IntOp} : s.IsStill ⟨o, 1, k, useDAB⟩ (s.vyInt o k op) := .keeps fun _ _ _ _ => rfl

theorem State.IsStill.vyCmp {f} : s.IsStill ⟨o, 1, k, useDAB⟩ (s.vyCmp o k f) := .keeps fun _ _ _ _ => rfl

theorem State.IsStill.vyFcmp {f} : s.IsStill ⟨o, 2, k, useDAB⟩ (s.vyFcmp o k f) := .keeps fun _ _ _ _ => rfl

theorem State.IsStill.vyFloat {binary :
    Bool} : s.IsStill ⟨o, 2, k, ⟨32, 32, if binary then 32 else 1, 1, if binary then 1 else 0⟩⟩ (s.vyFloat o k binary) := by
  refine ⟨_, fun s v p t none => ?_, rfl⟩
  dsimp only
  split
  · exact VyRes.noneMoved_done none rfl
  · exact VyRes.noneMoved_done none rfl

theorem State.IsStill.vyLoad {peer sign : Bool} : s.IsStill ⟨o, cls, k, useLoad⟩ (s.vyLoad o cls k peer sign) := by
  refine ⟨_, fun s v p t none => ?_, rfl⟩
  dsimp only
  split
  · trivial
  · exact VyRes.noneMoved_done none rfl

theorem State.IsStill.vyStore {peer : Bool} : s.IsStill ⟨o, cls, k, useStore⟩ (s.vyStore o cls k peer) :=
  ⟨_, fun _ _ _ _ none => noneMoved_writeMem none, rfl⟩

theorem State.IsStill.vyAtomic {op : VyStore} : s.IsStill ⟨o, 7, k, useAtomic⟩ (s.vyAtomic o k op) :=
  ⟨_, fun _ _ _ _ none => noneMoved_writeMem none, rfl⟩

end

/-- The effect of a word moves no bytes where its program has no transfer, but for HALT in a program of the library. -/
theorem exec_movesNone {c : Instr} {r : VyRow} (row : rowOf c = some r) (s : State) : s.IsStill r (exec c s) ∨ exec c s = s.libraryHalt r.op := by
  cases c with
  | halt o =>
    cases row
    by_cases own : s.vy.any (fun p => p.lib != 0) = true
    · exact .inr (if_pos own)
    · refine .inl ⟨_, ?_, if_neg own⟩
      exact fun _ _ _ _ none => VyRes.noneMoved_done none rfl
  | add | sub | mul | mulh | mulhu | div | divu | rem | remu | and | or | xor | shl | shr | sar | rotl | min | max | minu | maxu =>
    cases row; dsimp only [exec]; exact .inl .vyInt
  | cmpEq | cmpLt | cmpLtu => cases row; dsimp only [exec]; exact .inl .vyCmp
  | fadd | fsub | fmul | fma | fnma | fdiv | fmax | fmin | fsel => cases row; dsimp only [exec]; exact .inl (.vyFloat (binary := true))
  | fsqrt | fabs | fsign | fmov => cases row; dsimp only [exec]; exact .inl (.vyFloat (binary := false))
  | fcmpEq | fcmpLt | fcmpLe => cases row; dsimp only [exec]; exact .inl .vyFcmp
  | ld | lds | pld => cases row; dsimp only [exec]; exact .inl .vyLoad
  | st | pst => cases row; dsimp only [exec]; exact .inl .vyStore
  | aadd | amin | amax | aminu | amaxu | aand | aor | aswp | acas => cases row; dsimp only [exec]; exact .inl .vyAtomic
  | br | jmp | barT | barG | syncL | mov | maxr | gets | seed => cases row; dsimp only [exec]; exact .inl (.keeps fun _ _ _ _ => rfl)
  | wacc | wdot =>
    cases row; dsimp only [exec]
    refine .inl ⟨_, ?_, rfl⟩
    exact fun _ _ _ _ none => noneMoved_addTerm none
  | bxferI | bxferO =>
    cases row; dsimp only [exec]
    refine .inl ⟨_, ?_, rfl⟩
    exact fun _ _ _ _ _ => noneMoved_startXfer
  | call | dec | enc | wclr | sld | wread =>
    cases row; dsimp only [exec]
    refine .inl ⟨_, ?_, rfl⟩
    exact fun _ _ _ _ none => .ite trivial (VyRes.noneMoved_done none rfl)
  | wadd =>
    cases row; dsimp only [exec]
    refine .inl ⟨_, ?_, rfl⟩
    exact fun _ _ _ _ none => .ite trivial (.ite trivial (VyRes.noneMoved_done none rfl))
  | waitx =>
    cases row; dsimp only [exec]
    refine .inl ⟨_, ?_, rfl⟩
    exact fun _ _ _ _ none => .ite trivial (VyRes.noneMoved_done none rfl)
  | sacc =>
    cases row; dsimp only [exec]
    refine .inl ⟨_, ?_, rfl⟩
    exact fun _ _ _ _ none => .ite trivial (.ite (.ite trivial (VyRes.noneMoved_done none (xfers_note ..)))
      (VyRes.noneMoved_done none rfl))
  | wqtake =>
    cases row; dsimp only [exec]
    refine .inl ⟨_, ?_, rfl⟩
    exact fun _ _ _ _ none => .ite (VyRes.noneMoved_done none rfl) (VyRes.noneMoved_done none rfl)
  | syncG =>
    cases row; dsimp only [exec]
    refine .inl ⟨_, ?_, rfl⟩
    intro s v p t none
    refine VyRes.noneMoved_done none ?_
    split
    · exact xfers_showAdds ..
    · rfl
  | ret =>
    cases row; dsimp only [exec]
    refine .inl ⟨_, ?_, rfl⟩
    intro s v p t none
    dsimp only
    split
    · trivial
    · exact VyRes.noneMoved_done none rfl
  | _ => cases row

/-- A tagged command that is queued or rejected changes its context alone. -/
theorem host_queueTagged (s : State) (r : Ref) (f : Option Nat) : s.queueTagged r f = { s with host := (s.queueTagged r f).host } := by
  cases f with
  | none => rfl
  | some st => rfl

/-- So does its row. -/
theorem host_of_issue {s t : State} {r : Ref} {op : Nat} {check : Ctx → Option Nat}
    (h : s.issue r op (fun x => s.queueTagged r (check x)) = .next t) : t = { s with host := t.host } := by
  unfold State.issue at h
  split at h
  · cases h; rfl
  · exact of_act (P := fun t => t = { s with host := t.host }) h rfl (host_queueTagged ..)

/-- The HALT of a library program ends it or waits. -/
theorem OnlyVy.library {s t : State} {o : VOp} (clean : o.upset = .clean) (h : s.libraryHalt o = .next t) : OnlyVy s t := by
  unfold State.libraryHalt at h
  split at h
  · cases h; exact .stays s
  · refine of_act h (.stays s) ?_
    simp only [clean, bne_self_eq_false, Bool.false_eq_true, if_false]
    split
    · exact .ended s
    · exact .ended s

end Sys2Proof.Machine

namespace Sys2Proof.Safety
open Sys2Proof.Machine

/-- Settles O60: each row's effect is a write of its own part of the state, and a word's program without transfers moves nothing out. -/
theorem frames : Obligations.Frames := by
  refine ⟨fun s t c m x n v mem h => ?_, fun s t m n h => ?_, fun s t h => ?_, fun s t r c m n mem h => ?_, fun s t c p mem h => ?_,
    fun s t p c r row clean prog none h some => ?_⟩
  · simp only [List.mem_cons, List.not_mem_nil, or_false] at mem
    obtain rfl | rfl | rfl | rfl | rfl := mem
    · exact of_act (P := OnlyRegs s) h (.refl s) (.ite (.fset ..) (.ite (.refl s) (.fset ..)))
    · exact of_act (P := OnlyRegs s) h (.refl s)
        (.ite (.fset ..) ((((OnlyRegs.fset s ..).trans (.fset ..)).trans (.fset ..)).trans (.fset ..)))
    · simp only [exec, execSlotBoundary] at h
      split at h
      · cases h; rfl
      · exact of_act (P := OnlyRegs s) h (.refl s) (.fset ..)
    · simp only [exec, execScheduleStart] at h
      split at h
      · cases h; rfl
      · exact of_act (P := OnlyRegs s) h (.refl s)
          (((((OnlyRegs.fset s ..).trans (.fset ..)).trans (.fset ..)).trans (.fset ..)).trans (.rset ..))
    · exact of_act (P := OnlyRegs s) h (.refl s) (.fset ..)
  · exact of_act (P := OnlyRead s) h rfl (((onlyRead_countPrbs s n).trans (onlyRead_readReg _ m _ 4)).trans rfl)
  · exact of_act (P := fun t => t = { s with regs := t.regs, shed := t.shed } ∧ t.shed = { s.shed with since := t.shed.since })
      h ⟨rfl, rfl⟩ ⟨rfl, rfl⟩
  · simp only [List.mem_cons, List.not_mem_nil, or_false] at mem
    obtain rfl | rfl | rfl | rfl | rfl | rfl | rfl | rfl := mem
    · exact host_of_issue h
    · exact host_of_issue h
    · exact host_of_issue h
    · exact host_of_issue h
    · exact host_of_issue (check := fun x => s.dataCheck x none) h
    · exact host_of_issue h
    · exact of_act (P := fun t => t = { s with host := t.host }) h rfl rfl
    · exact of_act (P := fun t => t = { s with host := t.host }) h rfl rfl
  · simp only [List.mem_cons, List.not_mem_nil, or_false] at mem
    obtain rfl | rfl | rfl := mem
    · exact of_act (P := fun t => t = { s with links := t.links }) h rfl rfl
    · exact of_act (P := fun t => t = { s with links := t.links }) h rfl rfl
    · exact of_act (P := fun t => t = { s with links := t.links }) h rfl rfl
  · obtain ⟨f, moves, arm⟩ | arm := exec_movesNone row s
    · exact OnlyVy.issue clean prog none moves (arm ▸ h) some
    · exact OnlyVy.library clean (arm ▸ h) some

end Sys2Proof.Safety
end
